-- ==== Sys2Proof/Word.lean ====
section
/-! DEFINITION. The word types of the T216 and their plainest arithmetic. -/

namespace Sys2Proof

/-- A 64-bit register or system-register value. -/
abbrev Word := BitVec 64
/-- One byte; memory, rings and registers are little-endian (chapter "Scope"). -/
abbrev Byte := BitVec 8
/-- One 64-byte line, and the contents of one Q register; byte `i` is bits [8i+7:8i]. -/
abbrev Line := BitVec 512

/-- Sign extension of the low `w` bits of a vector to 64 bits. -/
def sx {w : Nat} (v : BitVec w) : Word := v.signExtend 64
/-- Zero extension to 64 bits. -/
def zx {w : Nat} (v : BitVec w) : Word := v.setWidth 64
/-- Bits [31:0]. -/
def low32 (v : Word) : BitVec 32 := v.setWidth 32
/-- A condition as a word, 1 or 0 (R76). -/
def boolWord (b : Bool) : Word := if b then 1#64 else 0#64

end Sys2Proof
end

