-- ==== Sys2Proof/Syntax.lean ====
section
/-! DEFINITION. The commands of the block: one constructor per row of the opcode table, with the operands that the
command's rules name.  Everything outside the block that the specification leaves to its surroundings (a measured
value, the bits that arrive on a link, the choice a controller makes among allowed ones) is an operand. -/

namespace Sys2Proof

/-! ## Names of units (R5 of the scope chapter, R15) -/

/-- A core, 0–215 (the table of units: k = 6g + local index). -/
abbrev CoreId := Fin 216
/-- A cluster, 0–35. -/
abbrev ClusterId := Fin 36
/-- A Facet, F0–F11. -/
abbrev FacetId := Fin 12
/-- A Chord strand of a Facet, 0–5. -/
abbrev StrandId := Fin 6
/-- A Net plane, 0–11. -/
abbrev PlaneId := Fin 12
/-- A partition, P0–P15. -/
abbrev Pid := Fin 16
/-- An L3 and directory slice, S0–S63. -/
abbrev SliceId := Fin 64
/-- An HBM3 stack, M0–M7. -/
abbrev StackId := Fin 8
/-- A root port: 4 × root complex + port index, 0–31. -/
abbrev PortId := Fin 32
/-- A power and clock domain that has a PWR instance. -/
abbrev DomainId := Fin 296
/-- A D register, d0–d31. -/
abbrev DReg := Fin 32
/-- An A register, a0–a15. -/
abbrev AReg := Fin 16
/-- A Q register, q0–q7. -/
abbrev QReg := Fin 8
/-- A D register of a 16-bit form, d0–d15. -/
abbrev SDReg := Fin 16
/-- An A register of a 16-bit form. -/
abbrev SAReg := Fin 8

/-- The two worlds of a partition (R62). -/
inductive World where
  | outer
  | inner
  deriving DecidableEq, Repr

/-- A service ring: the rings of a partition, or the owner ring (chapter "Service Rings and Doorbells"). -/
inductive Ring where
  | part (p : Pid)
  | owner
  deriving DecidableEq, Repr

/-- Who makes a register access (R15, R17, R501): the PSC, the test access port, or a core of a partition through
its register window. -/
inductive Agent where
  | psc
  | tap
  | core (k : CoreId)
  deriving DecidableEq, Repr

/-- The destination register of a load (R106), the blocking load of a run-ahead among them (R149, R150). -/
inductive RaDest where
  | none
  | d (r : DReg)
  | a (r : AReg)
  | q (r : QReg)
  deriving DecidableEq, Repr

/-- An external abort: its status of R163, whether a write failed, and the PPA. -/
structure Abort where
  status : BitVec 8
  write  : Bool
  ppa    : Nat
  deriving DecidableEq, Repr

/-- The message types of R269. -/
inductive MsgKind where
  | rds | rdu | upg | rdo | wrh | wri | atf | cln | inv | cli | iiv | rsv | stc | drd | dwr
  | sns | snu | sno | sni | snr | snc | snic | tlbd | intd
  | srsp | evc | cack | cmp | eva | err | dcmp | tlba
  | dh | df | dro | wbd | sdh | atr | drr
  | markMsg | echoMsg | lcr | mrd | mwr | mcmp
  deriving DecidableEq, Repr

/-- The fields of a message that its receiver uses (R234, R268, R270): the header unit's PID, world bit, privileged
mark, source and destination agent IDs, source core, home tracker number, line address (DA[51:6], or PPA[47:6] of a
device access) and argument, and the data units with their poison mark. -/
structure Msg where
  pid    : Pid
  inner  : Bool
  priv   : Bool
  src    : BitVec 8
  score  : Fin 8
  dst    : BitVec 8
  trk    : BitVec 8
  ln     : Nat
  arg    : BitVec 64
  data   : Line
  poison : Bool
  deriving DecidableEq, Repr

/-- The virtual networks (R268, R276). -/
inductive Vn where
  | req | snp | rsp | dat | gtd | mgt
  deriving DecidableEq, Repr

/-- A direction of a strand: Facet to Centroid or Centroid to Facet. -/
inductive Dir where
  | fc
  | cf
  deriving DecidableEq, Repr

/-- A router: plane, and 12y + x (R15, R263). -/
structure RouterId where
  plane : PlaneId
  node  : Fin 144
  deriving DecidableEq, Repr

/-- A router port, coded as in R285: 0 N, 1 E, 2 S, 3 W, 4 L0, 5 L1, 6 L2. -/
abbrev OutPort := Fin 7

/-- An injection point that holds source-route and slot tables (R274): a Facet fabric, or a Centroid injection point
at a router's local port. -/
inductive InjPoint where
  | facet (f : FacetId)
  | net (rt : RouterId)
  deriving DecidableEq, Repr

/-- An arbiter that has a configuration register (R292). -/
inductive ArbId where
  | net (rt : RouterId)
  | facet (f : FacetId)
  | slice (sl : SliceId)
  | pci (r : Fin 8)
  deriving DecidableEq, Repr

/-- What a link does to a unit (R300), or an array to what it stores (R260): nothing, an error in one bit, an error in two. -/
inductive LinkErr where
  | none
  | single
  | double
  deriving DecidableEq, Repr

/-- What goes with a data unit of a miss: the line that leaves a full set of the instruction cache (R164), and what the array has done to the
L2's stored data of the line before (R260). -/
structure UnitNote where
  evict : Option Nat
  err   : LinkErr
  deriving DecidableEq, Repr

/-- What reaches a router (R268, R285, R300, R310): the next unit on the link into a mesh port, with what the link does to it and the
bits that change unseen by its check bits; a message that its agent injects, on GTD or on its own class; or the next packet of a
virtual network that the Facet's Centroid endpoint has received. -/
inductive NetArr where
  | link (inp : OutPort) (err : LinkErr) (flip : BitVec 256)
  | inject (kind : MsgKind) (m : Msg) (gtd : Bool)
  | chord (vn : Vn)
  deriving DecidableEq, Repr

/-- A transfer unit as it arrives on a strand (R305): the 32 payload bytes and the trailer. -/
structure TUnit where
  data    : BitVec 256
  trailer : BitVec 32
  deriving DecidableEq, Repr

/-- A physical pseudo-channel, 32m + φ (R327). -/
abbrev PcId := Fin 256
/-- A channel, 16m + n (R357). -/
abbrev ChId := Fin 128
/-- The 72 stored bytes of a code word (R342): data bytes 0–63, META, and the seven check symbols, in this order from byte 0. -/
abbrev CodeWord := BitVec 576
/-- What an upstream memory request asks for (R370, R379): a read (with Execute Requested), a posted write, an AtomicOp (0 FetchAdd,
1 Swap, 2 CAS) with its operands, or an ATS translation. -/
inductive UpKind where
  | read (exec : Bool)
  | write
  | atomic (op : Fin 3) (operand compare : Word)
  | translate
  deriving DecidableEq, Repr
/-- An upstream memory request of a device: requester ID, PASID, privileged mode, address and length in bytes, whether the address is
an ATS-translated one, the RO and EP attributes, and the bytes of a write (R369–R379). -/
structure UpReq where
  rid   : BitVec 16
  pasid : Option (BitVec 20)
  priv  : Bool
  addr  : Nat
  size  : Nat
  kind  : UpKind
  translated : Bool
  ro    : Bool
  ep    : Bool
  data  : List Byte
  deriving DecidableEq, Repr
/-- An activity or power-state feed message to the Meter (R423, numbered as in R425: 0 Net, 1 L3, 2 HBM, 3 Chord, 4 power state): whether
its CRC holds, the counts (one row, or one for each stack or Facet) for P0–P15 and OVERHEAD, and MAIN. -/
structure Feed where
  kind   : Fin 5
  ok     : Bool
  counts : List (List Nat)
  main   : Bool
  deriving DecidableEq, Repr
/-- The weights of a Centroid or HBM rail in a parameter set (R428). -/
structure RailW where
  sigma : Nat
  aWay  : Nat
  aTok  : Nat
  aGran : Nat
  kOvh  : Nat
  wNet  : Nat
  wL3   : Nat
  wHbm  : Nat
  deriving DecidableEq, Repr
/-- A parameter image (R437–R440): PSET, the checksum it gives, the weights of VDD_NET, VDD_SRAM, VDD_IO, VDD_AON and the stacks, the
calibration corrections (entry 15·channel + 3·load point + temperature), and whether the metrology key's signature verifies. -/
structure ParamImage where
  pset     : Byte
  checksum : BitVec 16
  rails    : List RailW
  cal      : List Int
  signed   : Bool
  deriving DecidableEq, Repr
/-- A die or stack with a temperature sensor (R463): dies 0–11 are the Facets and 12 is the Centroid. -/
inductive ThermUnit where
  | die (d : Fin 13)
  | stack (m : StackId)
  deriving DecidableEq, Repr
/-- A black-box record by its fields (R486). -/
structure BbRec where
  tick : Nat
  code : BitVec 16
  pid  : Option Pid
  sev  : Fin 8
  inst : BitVec 8
  arg  : BitVec 48
  deriving DecidableEq, Repr
/-- What the SPI NOR was accessed for when its retries ran out (R485). -/
inductive SpiCtx where
  | boot
  | layoutStore (job : Nat)
  | partImage (p : Pid)
  deriving DecidableEq, Repr
/-- What starts a cold reset (R491): PKG_PWROK low, PKG_RST_N asserted, or the loss of a main rail. -/
inductive ColdCause where
  | pwrok
  | rstN
  | rail
  deriving DecidableEq, Repr
/-- A firmware copy as the ROM finds it (R499): read from the SPI NOR, key hash and signature good, and its security version. -/
structure FwCopy where
  read  : Bool
  keyOk : Bool
  sigOk : Bool
  svn   : Byte
  deriving DecidableEq, Repr
/-- An access of the core debug instrument (R505). -/
inductive DbgOp where
  | readCtl
  | writeCtl (v : BitVec 32)
  | readBp (i : Fin 16) (ctl : Bool)
  | writeBp (i : Fin 16) (ctl : Bool) (v : Word)
  | readD (r : DReg)
  | writeD (r : DReg) (v : Word)
  | readA (r : AReg)
  | writeA (r : AReg) (v : Word)
  | readQ (r : QReg)
  | writeQ (r : QReg) (v : Line)
  | readPc
  | writePc (v : Word)
  | readSys (n : BitVec 12)
  | writeSys (n : BitVec 12) (v : Word)
  | reset
  deriving DecidableEq, Repr
/-- The units that the memory BIST and scan instrument tests (R505): those of a Facet reset, or those of a cold reset. -/
inductive BistUnit where
  | facet (f : FacetId)
  | package
  deriving DecidableEq, Repr

/-- The commands: one constructor per row of the opcode table. -/
inductive Instr where
  /-- REGISTER_WRITE (R4): A write to a register that has no row of its own takes effect under its field access codes. -/
  | registerWrite (ag : Agent) (addr : Nat) (size : Nat) (v : Word)
  /-- TICK_BOUNDARY (R23): Every 100 reference cycles a tick boundary occurs, at which swaps, snapshots, watchdog ageing and audit and Meter latches take place. -/
  | tickBoundary (ppm : Option Int)
  /-- REFERENCE_ABSENT (R22): No reference edge arrives for 100 ns, so the tick master sets FREERUN, logs 0x0010 and declares FATAL. -/
  | referenceAbsent
  /-- REF_WINDOW_TIMEOUT (R22): The reference stays outside 300 ppm for 16 consecutive ticks, so FREERUN is set, 0x0010 is logged and FATAL is declared. -/
  | refWindowTimeout
  /-- SWAP_CUTOFF (R33): At cycle 1,792 the pending swap set and accepted time adjustment are captured for the next marker. `deferred`: the number of
  deferred duties as the command shows it; it follows from the rings. -/
  | swapCutoff (deferred : Nat)
  /-- TICK_MARKER_EMIT (R24): At cycle 1,800 the Centroid emits a tick marker on every plane and up strand, and each Facet emits its echo. -/
  | tickMarkerEmit
  /-- MARK (R27): A Facet receives a tick marker, holds it to its boundary and computes the alignment error. -/
  | mark (f : FacetId) (st : StrandId) (e : Int)
  /-- ECHO (R29): The Centroid receives a Facet's marker echo and measures its skew and heartbeat. -/
  | echo (f : FacetId) (st : StrandId)
  /-- FACET_LOCAL_BOUNDARY (R25): A Facet reaches its local tick boundary and acts on the held marker. -/
  | facetLocalBoundary (f : FacetId)
  /-- SWAP_REQUEST (R33): A write of class bits to LOC_SWAP_REQ requests a bank swap and locks the shadow banks. -/
  | swapRequest (classes : BitVec 4)
  /-- RESYNC_START (R42): The PSC releases a Facet's reset and begins its re-synchronisation. -/
  | resyncStart (f : FacetId)
  /-- FACET_PLL_LOCK_TIMEOUT (R42): Facet PLLs fail to lock by T + 20, which aborts the sequence with 0x4013. -/
  | facetPllLockTimeout (f : FacetId)
  /-- RESYNC_LOCK_TIMEOUT (R42): The count of good markers is not complete by U + 64, which aborts the sequence with 0x4013. -/
  | resyncLockTimeout (f : FacetId)
  /-- RESYNC_TABLE_LOAD (R42): After LOCKED the PSC writes the Facet's SLOT, ROUTE and GMAP copies into both banks. -/
  | resyncTableLoad (f : FacetId)
  /-- RESIZE (R56): The owner's RESIZE command is validated and its resize sequence started. -/
  | resize (ring : Ring) (dir : List (Nat × Nat))
  /-- RESIZE_KS3_DEADLINE (R55): A released cluster not in KS3 by the descriptor's deadline ends the RESIZE with BUSY. -/
  | resizeKs3Deadline (job : Nat)
  /-- RESIZE_TRACKERS_IDLE (R56): No home tracker holds a source request to a released granule any longer, so the slice walks begin. -/
  | resizeTrackersIdle (job : Nat)
  /-- RESIZE_WALK_COMPLETE (R56): The L3 and directory walks of every slice finish, so the wipe of released granules begins. -/
  | resizeWalkComplete (job : Nat)
  /-- GRANULE_WIPE_COMPLETE (R59): A granule wipe finishes, so the PSC writes the targets' shadow banks and requests swap C. -/
  | granuleWipeComplete (job : Nat)
  /-- PARTITION_BOOT_LOAD (R60): After creation the PSC loads the partition's boot image into its memory. -/
  | partitionBootLoad (p : Pid) (image : List Byte)
  /-- WIPE (R61): The owner's WIPE unmaps, wipes and returns a run of granules to their owner. -/
  | wipe (ring : Ring)
  /-- GMAP_ENTRY_WRITE (R48): The PSC writes a granule-map entry, which is dropped with 0x1020 if it duplicates or is invalid. -/
  | gmapEntryWrite (bank : Bool) (idx : Fin 4096) (v : Word)
  /-- DBG_CTL_WRITE (R66): A write to PSC_DBG_CTL sets debug enables, with inner fields protected from outer writes. -/
  | dbgCtlWrite (p : Pid) (w : World) (v : Word)
  /-- ADD (R101): Dd receives Ds plus Dt modulo 2^64. -/
  | add (k : CoreId) (rd : DReg) (rs : DReg) (rt : DReg)
  /-- SUB (R101): Dd receives Ds minus Dt modulo 2^64. -/
  | sub (k : CoreId) (rd : DReg) (rs : DReg) (rt : DReg)
  /-- AND (R101): Dd receives Ds AND Dt. -/
  | andD (k : CoreId) (rd : DReg) (rs : DReg) (rt : DReg)
  /-- OR (R101): Dd receives Ds OR Dt. -/
  | orD (k : CoreId) (rd : DReg) (rs : DReg) (rt : DReg)
  /-- XOR (R101): Dd receives Ds XOR Dt. -/
  | xorD (k : CoreId) (rd : DReg) (rs : DReg) (rt : DReg)
  /-- ANDN (R101): Dd receives Ds AND NOT Dt. -/
  | andn (k : CoreId) (rd : DReg) (rs : DReg) (rt : DReg)
  /-- SLL (R101): Dd receives Ds shifted left by Dt[5:0]. -/
  | sll (k : CoreId) (rd : DReg) (rs : DReg) (rt : DReg)
  /-- SRL (R101): Dd receives Ds shifted logically right by Dt[5:0]. -/
  | srl (k : CoreId) (rd : DReg) (rs : DReg) (rt : DReg)
  /-- SRA (R101): Dd receives Ds shifted arithmetically right by Dt[5:0]. -/
  | sra (k : CoreId) (rd : DReg) (rs : DReg) (rt : DReg)
  /-- ROR (R101): Dd receives Ds rotated right by Dt[5:0]. -/
  | ror (k : CoreId) (rd : DReg) (rs : DReg) (rt : DReg)
  /-- ADD_W (R101): Dd receives the sign-extended 32-bit sum. -/
  | addW (k : CoreId) (rd : DReg) (rs : DReg) (rt : DReg)
  /-- SUB_W (R101): Dd receives the sign-extended 32-bit difference. -/
  | subW (k : CoreId) (rd : DReg) (rs : DReg) (rt : DReg)
  /-- SLL_W (R101): Dd receives low32 of Ds shifted left by Dt[4:0], sign-extended. -/
  | sllW (k : CoreId) (rd : DReg) (rs : DReg) (rt : DReg)
  /-- SRL_W (R101): Dd receives low32 of Ds shifted logically right, sign-extended. -/
  | srlW (k : CoreId) (rd : DReg) (rs : DReg) (rt : DReg)
  /-- SRA_W (R101): Dd receives low32 of Ds shifted arithmetically right, sign-extended. -/
  | sraW (k : CoreId) (rd : DReg) (rs : DReg) (rt : DReg)
  /-- MIN (R101): Dd receives the signed smaller of Ds and Dt. -/
  | min (k : CoreId) (rd : DReg) (rs : DReg) (rt : DReg)
  /-- MAX (R101): Dd receives the signed larger of Ds and Dt. -/
  | max (k : CoreId) (rd : DReg) (rs : DReg) (rt : DReg)
  /-- MINU (R101): Dd receives the unsigned smaller of Ds and Dt. -/
  | minu (k : CoreId) (rd : DReg) (rs : DReg) (rt : DReg)
  /-- MAXU (R101): Dd receives the unsigned larger of Ds and Dt. -/
  | maxu (k : CoreId) (rd : DReg) (rs : DReg) (rt : DReg)
  /-- ADDI (R101): Dd receives Ds plus sext(imm14). -/
  | addi (k : CoreId) (rd : DReg) (rs : DReg) (imm : BitVec 14)
  /-- ANDI (R101): Dd receives Ds AND zext(imm14). -/
  | andi (k : CoreId) (rd : DReg) (rs : DReg) (imm : BitVec 14)
  /-- ORI (R101): Dd receives Ds OR zext(imm14). -/
  | ori (k : CoreId) (rd : DReg) (rs : DReg) (imm : BitVec 14)
  /-- XORI (R101): Dd receives Ds XOR zext(imm14). -/
  | xori (k : CoreId) (rd : DReg) (rs : DReg) (imm : BitVec 14)
  /-- SHI (R97): Dd receives Ds shifted or rotated by the immediate kind and amount. -/
  | shi (k : CoreId) (rd : DReg) (rs : DReg) (kind : Fin 4) (sh : Fin 64)
  /-- CSETI (R101): Dd receives 1 if Ds compares true against sext(imm11) under cc, else 0. -/
  | cseti (k : CoreId) (rd : DReg) (rs : DReg) (cc : Fin 8) (imm : BitVec 11)
  /-- MOVU (R101): Dd receives sext64(imm19 << 13). -/
  | movu (k : CoreId) (rd : DReg) (imm : BitVec 19)
  /-- ADDPC (R104): Ad receives pc plus sext64(imm19 << 13). -/
  | addpc (k : CoreId) (rd : AReg) (imm : BitVec 19)
  /-- CSET (R101): Dd receives 1 if Ds compares true against Dt under cc, else 0. -/
  | cset (k : CoreId) (rd : DReg) (rs : DReg) (rt : DReg) (cc : Fin 8)
  /-- MUL (R102): Dd receives the low 64 bits of the product. -/
  | mul (k : CoreId) (rd : DReg) (rs : DReg) (rt : DReg)
  /-- MULH (R102): Dd receives the high 64 bits of the signed product. -/
  | mulh (k : CoreId) (rd : DReg) (rs : DReg) (rt : DReg)
  /-- MULHU (R102): Dd receives the high 64 bits of the unsigned product. -/
  | mulhu (k : CoreId) (rd : DReg) (rs : DReg) (rt : DReg)
  /-- DIV (R102): Dd receives the signed quotient, with fixed values for zero divisor and overflow. -/
  | div (k : CoreId) (rd : DReg) (rs : DReg) (rt : DReg)
  /-- DIVU (R102): Dd receives the unsigned quotient, all ones for a zero divisor. -/
  | divu (k : CoreId) (rd : DReg) (rs : DReg) (rt : DReg)
  /-- REM (R102): Dd receives the signed remainder with the dividend's sign. -/
  | rem (k : CoreId) (rd : DReg) (rs : DReg) (rt : DReg)
  /-- REMU (R102): Dd receives the unsigned remainder. -/
  | remu (k : CoreId) (rd : DReg) (rs : DReg) (rt : DReg)
  /-- MUL_W (R102): Dd receives the sign-extended low 32 bits of the product. -/
  | mulW (k : CoreId) (rd : DReg) (rs : DReg) (rt : DReg)
  /-- DIV_W (R102): Dd receives the sign-extended 32-bit signed quotient. -/
  | divW (k : CoreId) (rd : DReg) (rs : DReg) (rt : DReg)
  /-- DIVU_W (R102): Dd receives the sign-extended 32-bit unsigned quotient. -/
  | divuW (k : CoreId) (rd : DReg) (rs : DReg) (rt : DReg)
  /-- REM_W (R102): Dd receives the sign-extended 32-bit signed remainder. -/
  | remW (k : CoreId) (rd : DReg) (rs : DReg) (rt : DReg)
  /-- REMU_W (R102): Dd receives the sign-extended 32-bit unsigned remainder. -/
  | remuW (k : CoreId) (rd : DReg) (rs : DReg) (rt : DReg)
  /-- FADD (R113): IEEE floating-point addition with flags. -/
  | fadd (k : CoreId) (rd : DReg) (rs : DReg) (rt : DReg) (dp : Bool) (rm : Fin 8)
  /-- FSUB (R113): IEEE floating-point subtraction with flags. -/
  | fsub (k : CoreId) (rd : DReg) (rs : DReg) (rt : DReg) (dp : Bool) (rm : Fin 8)
  /-- FMUL (R113): IEEE floating-point multiplication with flags. -/
  | fmul (k : CoreId) (rd : DReg) (rs : DReg) (rt : DReg) (dp : Bool) (rm : Fin 8)
  /-- FDIV (R113): IEEE floating-point division with flags. -/
  | fdiv (k : CoreId) (rd : DReg) (rs : DReg) (rt : DReg) (dp : Bool) (rm : Fin 8)
  /-- FSQRT (R113): IEEE floating-point square root with flags. -/
  | fsqrt (k : CoreId) (rd : DReg) (rs : DReg) (dp : Bool) (rm : Fin 8)
  /-- FMIN (R113): Dd receives the minimumNumber of two operands. -/
  | fmin (k : CoreId) (rd : DReg) (rs : DReg) (rt : DReg) (dp : Bool)
  /-- FMAX (R113): Dd receives the maximumNumber of two operands. -/
  | fmax (k : CoreId) (rd : DReg) (rs : DReg) (rt : DReg) (dp : Bool)
  /-- FCEQ (R113): Dd receives 1 when the operands are equal, as a quiet compare. -/
  | fceq (k : CoreId) (rd : DReg) (rs : DReg) (rt : DReg) (dp : Bool)
  /-- FCLT (R113): Dd receives 1 when Ds is less than Dt, as a signalling compare. -/
  | fclt (k : CoreId) (rd : DReg) (rs : DReg) (rt : DReg) (dp : Bool)
  /-- FCLE (R113): Dd receives 1 when Ds is less than or equal to Dt, as a signalling compare. -/
  | fcle (k : CoreId) (rd : DReg) (rs : DReg) (rt : DReg) (dp : Bool)
  /-- FCUN (R113): Dd receives 1 when either operand is NaN. -/
  | fcun (k : CoreId) (rd : DReg) (rs : DReg) (rt : DReg) (dp : Bool)
  /-- FCVT_I (R113): Converts a floating value to signed int64 with saturation. -/
  | fcvtI (k : CoreId) (rd : DReg) (rs : DReg) (dp : Bool) (rm : Fin 8)
  /-- FCVT_U (R113): Converts a floating value to unsigned int64 with saturation. -/
  | fcvtU (k : CoreId) (rd : DReg) (rs : DReg) (dp : Bool) (rm : Fin 8)
  /-- FCVT_F (R113): Converts a signed int64 to floating point, rounded. -/
  | fcvtF (k : CoreId) (rd : DReg) (rs : DReg) (dp : Bool) (rm : Fin 8)
  /-- FCVT_FU (R113): Converts an unsigned int64 to floating point, rounded. -/
  | fcvtFu (k : CoreId) (rd : DReg) (rs : DReg) (dp : Bool) (rm : Fin 8)
  /-- FCVT_P (R113): Converts between FP32 and FP64. -/
  | fcvtP (k : CoreId) (rd : DReg) (rs : DReg) (dp : Bool) (rm : Fin 8)
  /-- FNEG (R112): Inverts the sign bit of the operand. -/
  | fneg (k : CoreId) (rd : DReg) (rs : DReg) (dp : Bool)
  /-- FABS (R112): Clears the sign bit of the operand. -/
  | fabs (k : CoreId) (rd : DReg) (rs : DReg) (dp : Bool)
  /-- FKIND (R113): Dd receives the kind code of the operand. -/
  | fkind (k : CoreId) (rd : DReg) (rs : DReg) (dp : Bool)
  /-- FMADD (R113): Dd receives Ds times Dt plus Dra with one rounding. -/
  | fmadd (k : CoreId) (rd : DReg) (rs : DReg) (rt : DReg) (ra : DReg) (dp : Bool) (rm : Fin 8)
  /-- FMSUB (R113): Dd receives Ds times Dt minus Dra with one rounding. -/
  | fmsub (k : CoreId) (rd : DReg) (rs : DReg) (rt : DReg) (ra : DReg) (dp : Bool) (rm : Fin 8)
  /-- CLZ (R114): Dd receives the count of leading zero bits. -/
  | clz (k : CoreId) (rd : DReg) (rs : DReg)
  /-- CTZ (R114): Dd receives the count of trailing zero bits. -/
  | ctz (k : CoreId) (rd : DReg) (rs : DReg)
  /-- POPC (R114): Dd receives the count of one bits. -/
  | popc (k : CoreId) (rd : DReg) (rs : DReg)
  /-- BREV (R114): Dd receives the bit-reversed operand. -/
  | brev (k : CoreId) (rd : DReg) (rs : DReg)
  /-- BSWAP (R114): Dd receives the byte-reversed operand. -/
  | bswap (k : CoreId) (rd : DReg) (rs : DReg)
  /-- HSWAP (R114): Dd receives the halfword-reversed operand. -/
  | hswap (k : CoreId) (rd : DReg) (rs : DReg)
  /-- PARB (R114): Dd receives the parity of each byte. -/
  | parb (k : CoreId) (rd : DReg) (rs : DReg)
  /-- PARW (R114): Dd receives the parity of each 32-bit word. -/
  | parw (k : CoreId) (rd : DReg) (rs : DReg)
  /-- CRC32C (R115): Performs a CRC-32C step over the selected width of data. -/
  | crc32c (k : CoreId) (rd : DReg) (rs : DReg) (rt : DReg) (wd : Fin 4)
  /-- CRC64 (R115): Performs a CRC-64 step over the selected width of data. -/
  | crc64 (k : CoreId) (rd : DReg) (rs : DReg) (rt : DReg) (wd : Fin 4)
  /-- CRCP (R115): Performs a CRC step with SYS_CRC_POLY over the selected width of data. -/
  | crcp (k : CoreId) (rd : DReg) (rs : DReg) (rt : DReg) (wd : Fin 4)
  /-- ADDA (R103): Ad receives As plus Dt. -/
  | adda (k : CoreId) (rd : AReg) (rs : AReg) (rt : DReg)
  /-- SADDA (R103): Ad receives As plus Dt shifted left by n. -/
  | sadda (k : CoreId) (rd : AReg) (rs : AReg) (rt : DReg) (n : Fin 3)
  /-- SUBA (R103): Ad receives As minus Dt. -/
  | suba (k : CoreId) (rd : AReg) (rs : AReg) (rt : DReg)
  /-- MOVAD (R103): Copies a D register into an A register. -/
  | movad (k : CoreId) (rd : AReg) (rs : DReg)
  /-- MOVDA (R103): Copies an A register into a D register. -/
  | movda (k : CoreId) (rd : DReg) (rs : AReg)
  /-- CMPA (R104): Dd receives 1 if As compares true against At under cc. -/
  | cmpa (k : CoreId) (rd : DReg) (rs : AReg) (rt : AReg) (cc : Fin 8)
  /-- ADDAI (R103): Ad receives As plus sext(imm14). -/
  | addai (k : CoreId) (rd : AReg) (rs : AReg) (imm : BitVec 14)
  /-- LB (R106): Loads one byte, sign-extended. -/
  | lb (k : CoreId) (rt : DReg) (ab : AReg) (off : BitVec 14) (post : Bool)
  /-- LBU (R106): Loads one byte, zero-extended. -/
  | lbu (k : CoreId) (rt : DReg) (ab : AReg) (off : BitVec 14) (post : Bool)
  /-- LH (R106): Loads two bytes, sign-extended. -/
  | lh (k : CoreId) (rt : DReg) (ab : AReg) (off : BitVec 14) (post : Bool)
  /-- LHU (R106): Loads two bytes, zero-extended. -/
  | lhu (k : CoreId) (rt : DReg) (ab : AReg) (off : BitVec 14) (post : Bool)
  /-- LW (R106): Loads four bytes, sign-extended. -/
  | lw (k : CoreId) (rt : DReg) (ab : AReg) (off : BitVec 14) (post : Bool)
  /-- LWU (R106): Loads four bytes, zero-extended. -/
  | lwu (k : CoreId) (rt : DReg) (ab : AReg) (off : BitVec 14) (post : Bool)
  /-- LD (R106): Loads eight bytes into a D register. -/
  | ld (k : CoreId) (rt : DReg) (ab : AReg) (off : BitVec 14) (post : Bool)
  /-- LDA (R106): Loads eight bytes into an A register. -/
  | lda (k : CoreId) (rt : AReg) (ab : AReg) (off : BitVec 14) (post : Bool)
  /-- SB (R106): Stores one byte. -/
  | sb (k : CoreId) (rt : DReg) (ab : AReg) (off : BitVec 14) (post : Bool)
  /-- SH (R106): Stores two bytes. -/
  | sh (k : CoreId) (rt : DReg) (ab : AReg) (off : BitVec 14) (post : Bool)
  /-- SW (R106): Stores four bytes. -/
  | sw (k : CoreId) (rt : DReg) (ab : AReg) (off : BitVec 14) (post : Bool)
  /-- SD (R106): Stores eight bytes from a D register. -/
  | sd (k : CoreId) (rt : DReg) (ab : AReg) (off : BitVec 14) (post : Bool)
  /-- SDA (R109): Stores eight bytes from an A register. -/
  | sda (k : CoreId) (rt : AReg) (ab : AReg) (off : BitVec 14) (post : Bool)
  /-- QLOAD (R106): Loads 64 aligned bytes into a Q register. -/
  | qload (k : CoreId) (rt : QReg) (ab : AReg) (off : BitVec 14) (post : Bool)
  /-- QSAVE (R106): Stores a Q register to 64 aligned bytes. -/
  | qsave (k : CoreId) (rt : QReg) (ab : AReg) (off : BitVec 14) (post : Bool)
  /-- QDOT8 (R118): Accumulates int8 dot products of two blocks into 16 int32 lanes. -/
  | qdot8 (k : CoreId) (rd : QReg) (rs : AReg) (rt : AReg) (post : Bool)
  /-- QDOTBF (R119): Accumulates bf16 dot products into 16 FP32 lanes with one rounding. -/
  | qdotbf (k : CoreId) (rd : QReg) (rs : AReg) (rt : AReg) (post : Bool)
  /-- QCLF (R120): Folds a 64-byte block into the accumulator modulo SYS_CRC_POLY. -/
  | qclf (k : CoreId) (rd : QReg) (rs : AReg) (post : Bool)
  /-- QPOPC (R118): Accumulates per-doubleword population counts into 8 lanes. -/
  | qpopc (k : CoreId) (rd : QReg) (rs : AReg) (post : Bool)
  /-- QZERO (R121): Writes zero to all 64 bytes of a Q register. -/
  | qzero (k : CoreId) (rd : QReg)
  /-- QRED_I (R121): Dd receives the sum of the sixteen int32 lanes. -/
  | qredI (k : CoreId) (rd : DReg) (rs : QReg)
  /-- QRED_F (R121): Dd receives the pairwise FP32 sum of the lanes. -/
  | qredF (k : CoreId) (rd : DReg) (rs : QReg)
  /-- QRED_C (R121): Dd receives the reduced CRC of the fold accumulator. -/
  | qredC (k : CoreId) (rd : DReg) (rs : QReg)
  /-- QRED_P (R121): Dd receives the sum of the eight 64-bit lanes. -/
  | qredP (k : CoreId) (rd : DReg) (rs : QReg)
  /-- ATOM_ADD (R124): Atomically adds a register to memory and returns the old value. -/
  | atomAdd (k : CoreId) (rd : DReg) (rs : AReg) (rt : DReg) (far : Bool) (w64 : Bool)
  /-- ATOM_AND (R124): Atomically ANDs a register into memory and returns the old value. -/
  | atomAnd (k : CoreId) (rd : DReg) (rs : AReg) (rt : DReg) (far : Bool) (w64 : Bool)
  /-- ATOM_OR (R124): Atomically ORs a register into memory and returns the old value. -/
  | atomOr (k : CoreId) (rd : DReg) (rs : AReg) (rt : DReg) (far : Bool) (w64 : Bool)
  /-- ATOM_XOR (R124): Atomically XORs a register into memory and returns the old value. -/
  | atomXor (k : CoreId) (rd : DReg) (rs : AReg) (rt : DReg) (far : Bool) (w64 : Bool)
  /-- ATOM_SWAP (R124): Atomically swaps a register with memory. -/
  | atomSwap (k : CoreId) (rd : DReg) (rs : AReg) (rt : DReg) (far : Bool) (w64 : Bool)
  /-- ATOM_SMIN (R124): Atomically stores the signed minimum and returns the old value. -/
  | atomSmin (k : CoreId) (rd : DReg) (rs : AReg) (rt : DReg) (far : Bool) (w64 : Bool)
  /-- ATOM_SMAX (R124): Atomically stores the signed maximum and returns the old value. -/
  | atomSmax (k : CoreId) (rd : DReg) (rs : AReg) (rt : DReg) (far : Bool) (w64 : Bool)
  /-- ATOM_UMIN (R124): Atomically stores the unsigned minimum and returns the old value. -/
  | atomUmin (k : CoreId) (rd : DReg) (rs : AReg) (rt : DReg) (far : Bool) (w64 : Bool)
  /-- ATOM_UMAX (R124): Atomically stores the unsigned maximum and returns the old value. -/
  | atomUmax (k : CoreId) (rd : DReg) (rs : AReg) (rt : DReg) (far : Bool) (w64 : Bool)
  /-- ATOM_CAS (R124): Atomically compares memory with Dd and writes Dt on equality, returning the old value. -/
  | atomCas (k : CoreId) (rd : DReg) (rs : AReg) (rt : DReg) (far : Bool) (w64 : Bool)
  /-- LDRES (R127): Loads a value and sets the core's reservation on its line. -/
  | ldres (k : CoreId) (rd : DReg) (rs : AReg) (w64 : Bool)
  /-- STCOND (R127): Stores if the reservation holds, writes the success flag and clears the reservation. -/
  | stcond (k : CoreId) (rd : DReg) (rs : AReg) (rt : DReg) (w64 : Bool)
  /-- BAR_C (R211): A core-scope barrier completes when earlier accesses are performed for the core. -/
  | barC (k : CoreId)
  /-- BAR_K (R211): A cluster-scope barrier completes when earlier accesses are performed for the cluster. -/
  | barK (k : CoreId)
  /-- BAR_S (R211): A system-scope barrier completes when earlier accesses and device stores are performed system-wide. -/
  | barS (k : CoreId)
  /-- ISYNC (R131): Discards later fetched instructions and refetches after earlier effects are visible. -/
  | isync (k : CoreId)
  /-- WFI (R132): Stalls the core, entering its effective power target, until a wake event. -/
  | wfi (k : CoreId)
  /-- MFS (R133): Reads a system register into Dd under the SRN checks. -/
  | mfs (k : CoreId) (rd : DReg) (srn : BitVec 12)
  /-- MTS (R133): Writes Ds into a system register under the SRN checks. -/
  | mts (k : CoreId) (srn : BitVec 12) (rs : DReg)
  /-- TLBI_VA (R196): Removes stage-1 entries for a page and ASID in the partition. -/
  | tlbiVa (k : CoreId) (rs : AReg) (rt : DReg)
  /-- TLBI_ASID (R196): Removes non-global stage-1 entries of an ASID. -/
  | tlbiAsid (k : CoreId) (rt : DReg)
  /-- TLBI_S1ALL (R196): Removes all stage-1 entries of the current space. -/
  | tlbiS1all (k : CoreId)
  /-- TLBI_IPA (R196): Removes stage-2 entries for an IPA page and every combined entry. -/
  | tlbiIpa (k : CoreId) (rs : AReg)
  /-- TLBI_S2ALL (R196): Removes all stage-2 and combined entries of the current space. -/
  | tlbiS2all (k : CoreId)
  /-- DC_CLEAN (R252): Writes dirty copies of a line toward memory. -/
  | dcClean (k : CoreId) (rs : AReg)
  /-- DC_INV (R252): Discards every cached copy of a line without writeback. -/
  | dcInv (k : CoreId) (rs : AReg)
  /-- DC_CLINV (R252): Cleans and then discards a line. -/
  | dcClinv (k : CoreId) (rs : AReg)
  /-- DC_ZERO (R252): Stores 64 zero bytes to a line through UPG with ZERO. -/
  | dcZero (k : CoreId) (rs : AReg)
  /-- IC_INV (R252): Discards a line from the instruction caches in scope. -/
  | icInv (k : CoreId) (rs : AReg)
  /-- GATE_K (R134): Calls the kernel level with a 12-bit code. -/
  | gateK (k : CoreId) (code : BitVec 12)
  /-- GATE_H (R134): Calls the hypervisor level with a 12-bit code. -/
  | gateH (k : CoreId) (code : BitVec 12)
  /-- GATE_M (R134): Calls the monitor at PL3 with a 12-bit code. -/
  | gateM (k : CoreId) (code : BitVec 12)
  /-- ERET (R160): Returns from an exception level, switching world at PL3 under SYS_WCTL. -/
  | eret (k : CoreId)
  /-- BRK (R134): Raises a breakpoint exception, or halts under debug. -/
  | brk (k : CoreId) (imm : BitVec 8)
  /-- BZ (R105): Branches when the tested register is zero. -/
  | bz (k : CoreId) (rs : DReg) (off : BitVec 19)
  /-- BNZ (R105): Branches when the tested register is not zero. -/
  | bnz (k : CoreId) (rs : DReg) (off : BitVec 19)
  /-- J (R105): Jumps PC-relative without link. -/
  | j (k : CoreId) (off : BitVec 24)
  /-- JAL (R105): Jumps PC-relative and writes the return address to A14. -/
  | jal (k : CoreId) (off : BitVec 24)
  /-- JR (R84): Jumps to an A register, checking bit 0. -/
  | jr (k : CoreId) (rs : AReg)
  /-- JALR (R105): Jumps to an A register and writes the link to Ad. -/
  | jalr (k : CoreId) (rd : AReg) (rs : AReg)
  /-- ALU_S (R87): The short two-address ALU form behaves as its long form. -/
  | aluS (k : CoreId) (fn : Fin 8) (rd : SDReg) (rs : SDReg)
  /-- ADDI_S (R87): Adds a 7-bit signed immediate to Dd. -/
  | addiS (k : CoreId) (rd : SDReg) (imm : BitVec 7)
  /-- MOVI_S (R87): Loads a 7-bit signed immediate into Dd. -/
  | moviS (k : CoreId) (rd : SDReg) (imm : BitVec 7)
  /-- CSET_S (R87): Short compare writing 0 or 1 to Dd. -/
  | csetS (k : CoreId) (cc : Fin 8) (rd : SDReg) (rs : SDReg)
  /-- LD_S (R90): Short 64-bit load with offset or post-increment. -/
  | ldS (k : CoreId) (rt : SDReg) (ab : SAReg) (off : Fin 8) (post : Bool)
  /-- ST_S (R90): Short 64-bit store with offset or post-increment. -/
  | stS (k : CoreId) (rt : SDReg) (ab : SAReg) (off : Fin 8) (post : Bool)
  /-- LW_S (R90): Short 32-bit sign-extending load. -/
  | lwS (k : CoreId) (rt : SDReg) (ab : SAReg) (off : Fin 8) (post : Bool)
  /-- SW_S (R90): Short 32-bit store. -/
  | swS (k : CoreId) (rt : SDReg) (ab : SAReg) (off : Fin 8) (post : Bool)
  /-- BZ_S (R87): Short branch if zero. -/
  | bzS (k : CoreId) (rs : SDReg) (off : BitVec 7)
  /-- BNZ_S (R87): Short branch if not zero. -/
  | bnzS (k : CoreId) (rs : SDReg) (off : BitVec 7)
  /-- J_S (R87): Short jump without link. -/
  | jS (k : CoreId) (off : BitVec 11)
  /-- ADDA_S (R87): Adds a scaled 8-bit immediate to an A register. -/
  | addaS (k : CoreId) (rd : SAReg) (imm : BitVec 8)
  /-- ADDSP_S (R87): Adds a scaled 11-bit immediate to A15. -/
  | addspS (k : CoreId) (imm : BitVec 11)
  /-- AD_S (R87): Short address-data group operation selected by fn. -/
  | adS (k : CoreId) (fn : Fin 16) (rd : SAReg) (rs : SDReg)
  /-- LDSP_S (R87): Loads 64 bits from A15 plus a scaled offset. -/
  | ldspS (k : CoreId) (rt : SDReg) (off : BitVec 7)
  /-- STSP_S (R87): Stores 64 bits at A15 plus a scaled offset. -/
  | stspS (k : CoreId) (rt : SDReg) (off : BitVec 7)
  /-- RET_S (R105): Jumps to A14. -/
  | retS (k : CoreId)
  /-- JR_S (R87): Short jump to an A register. -/
  | jrS (k : CoreId) (rs : SAReg)
  /-- JALR_S (R88): Short jump to an A register with link in A14. -/
  | jalrS (k : CoreId) (rs : SAReg)
  /-- MOVA_S (R87): Copies one A register to another. -/
  | movaS (k : CoreId) (rd : SAReg) (rs : SAReg)
  /-- BRK_S (R87): Short breakpoint. -/
  | brkS (k : CoreId) (imm : BitVec 8)
  /-- SHI_S (R87): Short immediate shift of Dd. -/
  | shiS (k : CoreId) (rd : SDReg) (dir : Bool) (sh : Fin 64)
  /-- EXEC_CTL_WRITE (R143): A write to CORE_EXEC_CTL changes run-ahead and prediction enables, ending run-ahead if RA_EN clears. -/
  | execCtlWrite (k : CoreId) (v : Word)
  /-- RUN_AHEAD_ENTRY (R149): The core checkpoints state and enters run-ahead behind a blocking L2 miss: the load of line
  `ln` to `dst`. -/
  | runAheadEntry (k : CoreId) (ln : Nat) (dst : RaDest) (w32 : Bool)
  /-- RUN_AHEAD_LIMIT (R152): Run-ahead stops after 2,048 pseudo-retired instructions. -/
  | runAheadLimit (k : CoreId)
  /-- RUN_AHEAD_EXIT (R153): Run-ahead ends, discarding its work and restoring the checkpoint. -/
  | runAheadExit (k : CoreId)
  /-- L1_FILL (R165): Data units of a miss arrive, restart waiting loads and fill the L1 line. -/
  | l1Fill (k : CoreId) (ln : Nat) (stream : Bool) (instr : Bool) (note : UnitNote)
  /-- INTERRUPT_TAKEN (R156): A pending, takeable interrupt is taken at an instruction boundary. -/
  | interruptTaken (k : CoreId)
  /-- IMPRECISE_ABORT_TAKEN (R156): A pending imprecise external abort is taken at an instruction boundary. -/
  | impreciseAbortTaken (k : CoreId)
  /-- INT_ACK_READ (R395): A read of CORE_INT_ACK returns and clears the lowest pending INTID of its group. -/
  | intAckRead (k : CoreId) (rdr : World) (grp : World)
  /-- STORE_QUEUE_DRAIN (R212): A committed store leaves the store queue and enters the store order. -/
  | storeQueueDrain (k : CoreId)
  /-- DEVICE_STORE_ISSUE (R209): A device store leaves the device-store queue to the I/O bridge and arms its watchdog. -/
  | deviceStoreIssue (k : CoreId)
  /-- DEVICE_ACCESS_TIMEOUT (R216): A device-access watchdog fires, abandoning the access, setting DEAD and returning DEVICE_TIMEOUT. -/
  | deviceAccessTimeout (id : Nat)
  /-- DRT_REGION_WRITE (R214): A direct write to a DRT region register, dropped with 0x8032 if invalid. -/
  | drtRegionWrite (p : Pid) (w : World) (i : Fin 64) (hi : Bool) (v : Word)
  /-- DRT_LOCK (R214): Setting DRT_CTL.LOCK freezes the regions against direct writes. -/
  | drtLock (p : Pid)
  /-- IMPRECISE_ABORT_DELIVERY (R217): An imprecise abort reaches its issuing core, or the Locus, or becomes a UCR record after a reset. -/
  | impreciseAbortDelivery (k : CoreId) (ab : Abort)
  /-- RESERVATION_DEFERRAL_END (R220): 256 cycles after an LDRES the snoop deferral ends and deferred snoops are answered. -/
  | reservationDeferralEnd (k : CoreId)
  /-- RDS (R242): The home serves a read-shared request. `err`, here and in RDU and UPG: what the array has done to the L3's stored data
  of the line before (R260). -/
  | rds (m : Msg) (err : LinkErr)
  /-- RDU (R242): The home serves a read-with-ownership request. -/
  | rdu (m : Msg) (err : LinkErr)
  /-- UPG (R243): The home grants ownership without data. -/
  | upg (m : Msg) (err : LinkErr)
  /-- RDO (R246): A non-caching read is served at the home or an HBM or CXL controller. -/
  | rdo (m : Msg)
  /-- WRH (R247): A masked write through the home merges into the merge buffer, or is queued at a controller. -/
  | wrh (m : Msg)
  /-- WRI (R248): A privileged full-line write-invalidate writes memory after invalidating all copies. -/
  | wri (m : Msg)
  /-- ATF (R249): A far atomic is executed at the home or passed to the memory controller. -/
  | atf (m : Msg)
  /-- CLN (R252): System-scope clean of a line at the home. -/
  | cln (m : Msg)
  /-- INV (R252): System-scope invalidate of a line at the home. -/
  | inv (m : Msg)
  /-- CLI (R252): System-scope clean and invalidate of a line at the home. -/
  | cli (m : Msg)
  /-- IIV (R252): System-scope instruction-cache invalidate sending SNIC. -/
  | iiv (m : Msg)
  /-- RSV (R251): A drained cluster's reserved load records a home reservation. -/
  | rsv (m : Msg)
  /-- STC (R251): A drained cluster's conditional store succeeds or fails at the home. -/
  | stc (m : Msg)
  /-- SNS (R240): An owner forwards a shared copy to the requester. -/
  | sns (m : Msg)
  /-- SNU (R240): An owner forwards the line with ownership and invalidates. -/
  | snu (m : Msg)
  /-- SNO (R240): An owner forwards a copy for RDO and keeps state. -/
  | sno (m : Msg)
  /-- SNI (R240): A cluster invalidates the line without data. -/
  | sni (m : Msg)
  /-- SNR (R240): A cluster returns dirty data to the home and invalidates. -/
  | snr (m : Msg)
  /-- SNC (R240): An owner returns dirty data to the home and keeps a clean copy. -/
  | snc (m : Msg)
  /-- SNIC (R240): A cluster drops its instruction-cache copies of the line. -/
  | snic (m : Msg)
  /-- SRSP (R236): The home receives a snoop response. -/
  | srsp (m : Msg)
  /-- EVC (R242): The home consumes a clean eviction notice and answers with EVA. -/
  | evc (m : Msg)
  /-- CACK (R238): The requester's grant acknowledgement lets the home close the transaction. -/
  | cack (m : Msg)
  /-- CMP (R240): An agent receives a completion for an upgrade, write, maintenance or STC. -/
  | cmp (m : Msg)
  /-- EVA (R240): An L2 receives eviction acknowledgement and frees the way. -/
  | eva (m : Msg)
  /-- ERR (R163): An agent receives a refusal or failure with a status. -/
  | err (m : Msg)
  /-- DH (R240): A requester receives data from the home with a granted state. `victim`, here and in DF: the line that
  the fill displaces, as the command shows it; the policy of R224 and R253 names it. -/
  | dh (m : Msg) (victim : Option Nat)
  /-- DF (R240): A requester receives forwarded data from an owner. -/
  | df (m : Msg) (victim : Option Nat)
  /-- DRO (R246): An agent receives data for RDO. -/
  | dro (m : Msg)
  /-- WBD (R242): The home receives a dirty eviction. -/
  | wbd (m : Msg)
  /-- SDH (R243): The home receives dirty data returned on a snoop. -/
  | sdh (m : Msg)
  /-- ATR (R249): An agent receives an atomic result or RSV data. -/
  | atr (m : Msg)
  /-- DRD (R209): A device read request reaches the I/O bridge or target. -/
  | drd (m : Msg)
  /-- DWR (R209): A device write request reaches the I/O bridge or target. -/
  | dwr (m : Msg)
  /-- DCMP (R210): A device write completion acknowledges a device store. -/
  | dcmp (m : Msg)
  /-- DRR (R209): Device read data returns to the core. -/
  | drr (m : Msg)
  /-- TLBD (R197): A core receives a delivered TLB invalidation. -/
  | tlbd (m : Msg)
  /-- TLBA (R197): The issuer receives acknowledgement of a TLB invalidation. -/
  | tlba (m : Msg)
  /-- INTD (R392): An interrupt is delivered to a core's pending table or to the Locus. -/
  | intd (m : Msg)
  /-- LCR (R287): An injection point receives returned GTD landing credits. -/
  | lcr (m : Msg)
  /-- MRD (R269): A PSC register read request over the Net. -/
  | mrd (m : Msg)
  /-- MWR (R269): A PSC register write request over the Net. -/
  | mwr (m : Msg)
  /-- MCMP (R269): The PSC receives completion of a register access. -/
  | mcmp (m : Msg)
  /-- MERGE_BUFFER_DRAIN (R247): An idle or needed merge-buffer entry drains its line to the L3. -/
  | mergeBufferDrain (ln : Nat)
  /-- HOME_TRACKER_TIMEOUT (R480): A tracker open for 4,096 ticks logs its waits and 0x6032, and the partition goes UCD. -/
  | homeTrackerTimeout (ln : Nat)
  /-- COHERENT_REQUEST_TIMEOUT (R480): A requester's coherent-request watchdog fires and logs 0x7042. -/
  | coherentRequestTimeout (k : CoreId) (ln : Nat)
  /-- L2_LOCK_WRITE (R255): A write to CLU_L2_LOCK reserves ways, or is dropped with 0x7052. -/
  | l2LockWrite (g : ClusterId) (v : Word)
  /-- L2_DISABLE (R256): Clearing CLU_L2_CTL.EN starts the drain and clears reservations. -/
  | l2Disable (g : ClusterId)
  /-- L2_ENABLE (R256): Writing EN = 1 re-enables the L2 once any drain finishes. -/
  | l2Enable (g : ClusterId)
  /-- L2_DRAINED (R256): The last line leaves a draining L2, which becomes DRAINED and sends held misses. -/
  | l2Drained (g : ClusterId)
  /-- WAYMASK_WRITE (R230): The PSC writes an L3 way mask, dropped with 0x6021 on overlap. -/
  | waymaskWrite (sl : SliceId) (bank : Bool) (p : Pid) (v : Word)
  /-- DOMAIN_DOWN_WALK_COMPLETE (R262): The slices finish dropping a downed PID's lines, so its clusters are reset. -/
  | domainDownWalkComplete (p : Pid)
  /-- NET_PACKET_FORWARD (R272): A router receives a header unit and forwards the packet along its source route. -/
  | netPacketForward (rt : RouterId) (out : OutPort) (arr : Option NetArr)
  /-- LINK_RETRY_REQUEST (R300): A double error on a plane link triggers replay from the retry buffer. `fails`: the
  consecutive replays as the command shows them; the router counts them. -/
  | linkRetryRequest (rt : RouterId) (out : OutPort) (fails : Nat)
  /-- CREDIT_RETURN (R277): A credit returns to the sender on the sideband. -/
  | creditReturn (rt : RouterId) (out : OutPort) (vn : Vn) (n : Nat)
  /-- ROUTE_ENTRY_WRITE (R273): A write through an RTE_DATA register stores a route or slot entry, or is dropped with 0x3020. -/
  | routeEntryWrite (pt : InjPoint) (v : Word)
  /-- ARB_FREEZE (R294): Setting FREEZE stops new grants of an arbiter. -/
  | arbFreeze (arb : ArbId)
  /-- ARB_FREEZE_TIMEOUT (R294): A freeze lasting 16 ticks is cleared with FRZ_TO and 0x3041. -/
  | arbFreezeTimeout (arb : ArbId)
  /-- GRANT_HOLD_TIMEOUT (R296): A grant held past GHOLD is revoked, the packet dropped, 0x3040 logged and the PID goes UCD. -/
  | grantHoldTimeout (rt : RouterId) (out : OutPort)
  /-- ROUTER_DRAINED (R297): A router's old-bank in-flight count reaches zero, so the PSC changes its port. -/
  | routerDrained (rt : RouterId) (out : OutPort)
  /-- GTD_HOLD_END (R288): At slot 45 after a SLOT swap GTD injection resumes. -/
  | gtdHoldEnd
  /-- NET_CREDIT_AUDIT (R280): The per-link credit audit of the latched state completes and acts on any failure. The numbers
  here and in the next two audits are what the command shows; the audits read what latched. -/
  | netCreditAudit (rt : RouterId) (out : OutPort) (vn : Vn) (w : Nat) (u : Nat) (r : Nat) (d : Nat)
  /-- LANDING_CREDIT_AUDIT (R287): The GTD landing-credit audit completes and acts on any failure. -/
  | landingCreditAudit (pl : PlaneId) (src : Nat) (dst : Nat) (landed : Nat) (flying : Nat)
  /-- SLOT_AUDIT (R289): The slot-token audit completes and stops GTD on a failing plane. -/
  | slotAudit (pl : PlaneId)
  /-- CHORD_CREDIT_AUDIT (R311): The Chord credit audit against the stream cut completes and acts on any failure. -/
  | chordCreditAudit (f : FacetId) (pl : PlaneId) (vn : Vn) (dir : Dir) (q : List Nat)
  /-- RING_AUDIT (R413): The ring descriptor and completion audit completes and acts on any failure. -/
  | ringAudit (ring : Ring)
  /-- DUMP_SEQ_AUDIT (R481): The dump engine's sequence audit completes and stops the engine on failure. -/
  | dumpSeqAudit (p : Pid)
  /-- TRANSFER_UNIT (R308): A Chord receiver accepts, discards or NAKs an incoming transfer unit. -/
  | transferUnit (f : FacetId) (st : StrandId) (dir : Dir) (flip : BitVec 288)
  /-- CHORD_NAK (R308): A sender receiving NAK resends every unacknowledged unit. -/
  | chordNak (f : FacetId) (st : StrandId) (dir : Dir)
  /-- NAK_TIMEOUT (R308): The expected unit has not arrived 512 cycles after a NAK, so NAK is sent again. -/
  | nakTimeout (f : FacetId) (st : StrandId) (dir : Dir)
  /-- LCNT (R311): The Centroid receives the Facet's latched audit counters; the numbers that the command shows are
  those that the Facet latched. -/
  | lcnt (f : FacetId) (st : StrandId) (counts : List Nat)
  /-- CLOSE (R318): An endpoint receives a failover cut naming the last accepted unit of a failed strand. -/
  | close (f : FacetId) (st : StrandId) (dir : Dir) (lastSeq : Nat) (open2 : List (Option Nat))
  /-- MOVE (R321): A receiver accepts the plane return and takes later units from the returning strand. -/
  | move (f : FacetId) (st : StrandId) (dir : Dir)
  /-- RTNONLY (R307): A unit carrying only a credit return for another plane. -/
  | rtnonly (f : FacetId) (st : StrandId) (dir : Dir) (pl : PlaneId) (vn : Vn) (n : Nat)
  /-- TRAIN (R313): The PSC starts training of a DOWN strand. -/
  | train (f : FacetId) (st : StrandId)
  /-- TAKE_DOWN (R318): The PSC orders an orderly take-down of a strand. -/
  | takeDown (f : FacetId) (st : StrandId)
  /-- STRAND_DETECT_DONE (R313): Both ends see the detect pattern and the strand enters LANES. -/
  | strandDetectDone (f : FacetId) (st : StrandId)
  /-- STRAND_LANES_DONE (R313): Lane grading ends and the strand enters WIDTH. -/
  | strandLanesDone (f : FacetId) (st : StrandId) (fcC : BitVec 25) (fcF : BitVec 25) (cfC : BitVec 25) (cfF : BitVec 25)
  /-- STRAND_WIDTH_DONE (R313): The good set and width are chosen and written to the map. -/
  | strandWidthDone (f : FacetId) (st : StrandId)
  /-- STRAND_FRAME_DONE (R313): Framing completes and the strand enters LATENCY. -/
  | strandFrameDone (f : FacetId) (st : StrandId) (ok : Bool)
  /-- STRAND_LATENCY_DONE (R313): Latency is measured, failing above 160 cycles and marking SLOW above 48. -/
  | strandLatencyDone (f : FacetId) (st : StrandId) (lat : Nat)
  /-- STRAND_INIT_DONE (R313): Epoch, sequence and credits are initialised and the strand enters UP with 0x4020. -/
  | strandInitDone (f : FacetId) (st : StrandId)
  /-- TRAINING_TIMEOUT (R314): A training state exceeds its limit, failing the attempt with 0x4021. -/
  | trainingTimeout (f : FacetId) (st : StrandId)
  /-- LANE_MAP_WRITE (R312): The PSC writes LOC_LANE_MAP, dropped with 0x0013 unless the strand is DOWN or DISABLED. -/
  | laneMapWrite (f : FacetId) (st : StrandId) (v : Word)
  /-- MARGIN_ALARM (R317): An eye below margin for four passes sets MARGIN, logs 0x4024 and schedules a retrain. -/
  | marginAlarm (f : FacetId) (st : StrandId) (dir : Dir)
  /-- STRAND_DOWN (R318): A strand stops, CLOSE is exchanged and its planes move to surviving strands. -/
  | strandDown (f : FacetId) (st : StrandId)
  /-- MID_PACKET_STALL (R323): An open packet receives no unit for 16 ticks, so it is dropped and the strand taken down. -/
  | midPacketStall (f : FacetId) (st : StrandId) (dir : Dir) (pl : PlaneId)
  /-- STRAND_HEARTBEAT_LOSS (R324): No marker or echo on a strand for 2 ticks takes the strand down with 0x4027. -/
  | strandHeartbeatLoss (f : FacetId) (st : StrandId) (dir : Dir)
  /-- FACET_HEARTBEAT_LOSS (R325): The Facet's heartbeat is lost, so all its strands go down and its partitions go UCD. -/
  | facetHeartbeatLoss (f : FacetId)
  /-- ORDERLY_FACET_RESET (R326): Once all six strands are DOWN after TAKE_DOWN, the PSC resets the Facet. -/
  | orderlyFacetReset (f : FacetId)
  /-- HBM_SCHEDULE_PICK (R335): A pseudo-channel picks its next DRAM command among ready bank queues. -/
  | hbmSchedulePick (pc : PcId)
  /-- URGENCY_ESCALATION (R334): A request's elapsed time crosses a fraction of its target, raising its urgency. -/
  | urgencyEscalation (pc : PcId) (idx : Nat) (wr : Bool)
  /-- HBM_READ_DATA (R343): A code word read from DRAM is decoded as good, poisoned, corrected or uncorrectable. -/
  | hbmReadData (pc : PcId) (ln : Nat) (raw : CodeWord)
  /-- PATROL_SCRUB (R346): Every SCRUB_INT ticks a pseudo-channel reads and checks its next line. -/
  | patrolScrub (pc : PcId) (raw : CodeWord)
  /-- HPPR_COMPLETE (R348): A post-package repair finishes, freeing the entry or making it permanent. -/
  | hpprComplete (pc : PcId) (e : Fin 16) (ok : Bool)
  /-- RETIREMENT_BEGIN (R350): A retired pseudo-channel's turn comes and its new placement is staged. -/
  | retirementBegin (m : StackId)
  /-- MIGRATION_UNIT_COMPLETE (R351): The last WRI of a unit is written and PTR passes it. -/
  | migrationUnitComplete (m : StackId)
  /-- MIGRATION_COMPLETE (R355): PTR reaches the end, the final placement is staged and the old channel is retired with 0x5012. -/
  | migrationComplete (m : StackId)
  /-- CHANNEL_RECENTRE (R357): In its scheduled tick a channel re-centres its eyes for 800 ns. -/
  | channelRecentre (ch : ChId) (low : Bool)
  /-- THERMAL_READ (R358): Every 1,000 ticks the PHY reads the stack temperature and may order re-centring. -/
  | thermalRead (m : StackId) (temp : Int)
  /-- CHANNEL_RETRAIN (R359): The PSC retrains a channel whose margin fell, holding its requests. -/
  | channelRetrain (ch : ChId)
  /-- CHANNEL_RETRAIN_DONE (R359): A channel retrain ends with 0x5021, retiring the channel after three failures. -/
  | channelRetrainDone (ch : ChId) (ok : Bool)
  /-- REFRESH (R360): A per-bank refresh falls due and is issued. -/
  | refresh (pc : PcId) (bank : Fin 48)
  /-- UPSTREAM_MEMORY_REQUEST (R370): A root port's upstream request is translated by the IOT and sent to the home. -/
  | upstreamMemoryRequest (port : PortId) (req : UpReq)
  /-- MSI_WRITE (R391): A write to the MSI page becomes an interrupt message to the partition's IRD. -/
  | msiWrite (port : PortId) (addr : Nat) (size : Nat) (data : BitVec 32) (rd : Bool)
  /-- IOT_ROOT_WRITE (R375): A write to an IOT context root, ignored with 0x8043 for outer writes to the inner root. -/
  | iotRootWrite (p : Pid) (w : World) (inner : Bool) (v : Word)
  /-- IOT_INV_ALL (R380): Invalidates every IOT cache entry. -/
  | iotInvAll (p : Pid) (w : World) (v : Word)
  /-- IOT_INV_RID (R380): Invalidates IOT entries of one requester ID. -/
  | iotInvRid (p : Pid) (w : World) (v : Word)
  /-- IOT_INV_RID_PASID (R380): Invalidates IOT entries of one RID and PASID. -/
  | iotInvRidPasid (p : Pid) (w : World) (v : Word)
  /-- IOT_INV_RID_PAGES (R380): Invalidates IOT entries of one RID, PASID and page range. -/
  | iotInvRidPages (p : Pid) (w : World) (v : Word)
  /-- IOT_INV_S2ID (R380): Invalidates IOT entries of one stage-2 space. -/
  | iotInvS2id (p : Pid) (w : World) (v : Word)
  /-- IOT_INV_S2ID_PAGES (R380): Invalidates IOT entries of one stage-2 space and IPA range. -/
  | iotInvS2idPages (p : Pid) (w : World) (v : Word)
  /-- IOT_INV_DONE (R381): An IOT invalidation completes and sets DONE. -/
  | iotInvDone (p : Pid)
  /-- ATS_INV_TIMEOUT (R382): An ATS invalidation not completed in 1,000,000 ticks blocks the RID and logs 0x8046. -/
  | atsInvTimeout (p : Pid) (rid : BitVec 16)
  /-- IOT_FAULT_POP (R381): Reading IOT_FAULT_HI removes the oldest fault record. -/
  | iotFaultPop (p : Pid)
  /-- CXL_DEVICE_LOST (R386): A CXL timeout, link failure or removal marks the device lost and sends UCR records. -/
  | cxlDeviceLost (port : PortId)
  /-- PORT_QUIESCE_WAIT_END (R387): Downstream completions arrive or 1,000 ticks pass, so the link is disabled. -/
  | portQuiesceWaitEnd (port : PortId)
  /-- PORT_QUIESCE_DONE (R387): PERST# has been held 100 ticks and the port becomes disabled. -/
  | portQuiesceDone (port : PortId)
  /-- PORT_CONTAINMENT (R388): A DPC trigger contains the port, logs 0x8044 and sends a UCR record. -/
  | portContainment (port : PortId)
  /-- DPC_RELEASE (R388): Partition software releases containment and the port retrains. -/
  | dpcRelease (port : PortId)
  /-- PORT_LINK_UP (R408): A root port's link reaches up, completing an enable or retrain. -/
  | portLinkUp (port : PortId) (width : Nat) (speed : Nat) (flit : Bool)
  /-- IRD_ROUTE_WRITE (R389): A write to an interrupt route, delivering a held interrupt when EN becomes 1. -/
  | irdRouteWrite (p : Pid) (w : World) (i : Fin 2048) (v : Word)
  /-- IRD_IPI_WRITE (R390): A write to IRD_IPI sends an inter-processor interrupt to a named core. -/
  | irdIpiWrite (p : Pid) (w : World) (v : Word)
  /-- RING_ENABLE (R396): Setting EN from DISABLED resets positions and enables the rings. -/
  | ringEnable (p : Pid) (w : World) (v : Word)
  /-- RING_DISABLE (R410): Clearing EN moves the rings to QUIESCING. -/
  | ringDisable (p : Pid) (w : World) (v : Word)
  /-- SQ_DOORBELL (R402): A write to PSC_SQ_TAIL announces new descriptors, or is dropped with 0x9001. -/
  | sqDoorbell (p : Pid) (w : World) (v : Word)
  /-- CQ_DOORBELL (R402): A write to PSC_CQ_HEAD frees completion slots, or is dropped with 0x9001. -/
  | cqDoorbell (p : Pid) (w : World) (v : Word)
  /-- COMPLETION_INTERRUPT (R404): When its tick duties end the PSC sends one interrupt for the ring's completions. -/
  | completionInterrupt (p : Pid)
  /-- DEADLINE_TIMEOUT (R405): A command's DEADLINE wait expires and it completes with TIMEOUT or its named status. -/
  | deadlineTimeout (job : Nat)
  /-- POWER_REQ (R450): Writes a power vote and completes when the state is reached. -/
  | powerReq (ring : Ring)
  /-- METER_READ (R443): Returns a ledger bucket at the last closed entry. -/
  | meterRead (ring : Ring)
  /-- CTR_DUMP_CFG (R516): Configures the partition's counter dump engine from the next boundary. -/
  | ctrDumpCfg (ring : Ring)
  /-- RAS_FETCH (R474): Copies RAS records into the buffer. -/
  | rasFetch (ring : Ring)
  /-- PART_RESET (R538): Resets a partition and boots it again or holds it. -/
  | partReset (ring : Ring)
  /-- PORT_ENABLE (R408): Enables and trains a root port. -/
  | portEnable (ring : Ring)
  /-- PORT_DISABLE (R387): Quiesces and disables a root port. -/
  | portDisable (ring : Ring)
  /-- PORT_RETRAIN (R408): Retrains a root port. -/
  | portRetrain (ring : Ring)
  /-- TIME_SYNC_READ (R408): Returns the tick number and time_ofs. -/
  | timeSyncRead (ring : Ring)
  /-- TIME_SYNC_ADJUST (R40): Schedules an owner time adjustment, forward step or backward slew. -/
  | timeSyncAdjust (ring : Ring)
  /-- BLACKBOX_READ (R490): Copies black-box records to the owner and optionally marks them exported. -/
  | blackboxRead (ring : Ring)
  /-- ATTEST (R500): Answers a tenant's SPDM request into a response buffer. -/
  | attest (ring : Ring)
  /-- DRT_UPDATE (R214): Changes a locked DRT region at the next boundary and clears DEAD. -/
  | drtUpdate (ring : Ring)
  /-- SLOT_GRANT (R283): Grants n slot tokens from the candidates, or none with NO_RESOURCE. -/
  | slotGrant (ring : Ring)
  /-- SLOT_RELEASE (R408): Releases named slot tokens at the next SLOT swap. -/
  | slotRelease (ring : Ring)
  /-- PARK (R465): Starts parking the partition with a wake interval and sources. -/
  | park (ring : Ring)
  /-- UNPARK (R465): Aborts a park still in progress. -/
  | unpark (ring : Ring)
  /-- CXL_HEALTH (R408): Returns health data of CXL devices. -/
  | cxlHealth (ring : Ring) (data : List Byte)
  /-- CXL_POISON_LIST (R408): Returns the poison list of CXL devices behind the partition's granules. -/
  | cxlPoisonList (ring : Ring) (data : List Byte)
  /-- CXL_HOT_ADD (R384): Enumerates, programs and wipes a hot-added CXL device and adds its granules. -/
  | cxlHotAdd (ring : Ring) (granules : Nat)
  /-- CXL_REMOVE (R387): Quiesces and removes a CXL port. -/
  | cxlRemove (ring : Ring)
  /-- OWNER_MESSAGE (R417): A complete MCTP owner-ring message is consumed as a descriptor. -/
  | ownerMessage (id : Nat) (kind : Byte) (desc : List Word) (data : List Byte) (complete : Bool)
  /-- OWNER_MESSAGE_TIMEOUT (R417): An owner message incomplete after 10,000 ticks is discarded with 0x9030. -/
  | ownerMessageTimeout (id : Nat)
  /-- I3C_BUS_RESET (R417): An I3C bus reset discards owner messages still being assembled. -/
  | i3cBusReset
  /-- SPDM_REQUEST (R500): The PSC answers an SPDM 1.2 message on the owner bus. -/
  | spdmRequest (req : List Byte)
  /-- METER_LEDGER_CLOSE (R427): The Meter apportions the tick's channel energies and closes the ledger entry. -/
  | meterLedgerClose (raw : List Int) (temp : Int)
  /-- FEED_MESSAGE (R423): The Meter receives a per-tick activity or power-state feed message. -/
  | feedMessage (fd : Feed)
  /-- LAYOUT_FEED (R424): The Meter receives a new layout and updates LAYOUT_GEN. -/
  | layoutFeed (gen : Byte)
  /-- METER_CONSERVATION_CHECK (R431): The independent adder checks the bucket increments, faulting the Meter on mismatch. -/
  | meterConservationCheck (sum : Nat)
  /-- CHANNEL_FAIL (R432): A channel faulty for 16 ticks fails with 0x2001. -/
  | channelFail (c : Fin 72)
  /-- CHANNEL_RESTORE (R432): A failed channel good for 1,000 ticks is restored with 0x2002. -/
  | channelRestore (c : Fin 72)
  /-- FACET_CROSSCHECK (R432): Facet outputs exceeding VIN_F by 2% for 64 ticks log 0x2012. -/
  | facetCrosscheck (f : FacetId)
  /-- IDENT (R441): Returns the Meter identity summary. -/
  | ident
  /-- LEDGER (R442): Returns a signed ledger record of the last closed entry. -/
  | ledger (nonce : Word)
  /-- GAP (R442): Returns a signed gap record. -/
  | gap (idx : Nat) (nonce : Word)
  /-- EVENT (R441): Returns a signed metrological event record. -/
  | event (idx : Nat) (nonce : Word)
  /-- PARAMLOG (R441): Returns a signed parameter-change record. -/
  | paramlog (idx : Nat) (nonce : Word)
  /-- CERT (R441): Returns part of the Meter key certificate chain. -/
  | cert (part : Byte)
  /-- PARAM_LOAD (R438): Loads a signed parameter image in SERVICE or refuses it with 0x2041. -/
  | paramLoad (img : ParamImage)
  /-- EVONISUM_FRAME_TIMEOUT (R441): An incomplete or bad command frame is discarded with 0x2050. -/
  | evonisumFrameTimeout
  /-- METER_CHECKPOINT (R444): Every 1,000,000 ticks the Meter checkpoints to non-volatile store. -/
  | meterCheckpoint
  /-- WARNING_CHECKPOINT (R444): VDD_MTR falling below its warning threshold triggers a checkpoint. -/
  | warningCheckpoint
  /-- METER_RESTORE (R445): On VDD_MTR return the Meter restores its checkpoint, increments EPOCH and records a gap. -/
  | meterRestore
  /-- PWR_CTL_WRITE (R449): A write to PWR_CTL changes votes, claim or lock, with inner fields protected. -/
  | pwrCtlWrite (d : DomainId) (w : World) (v : Word)
  /-- DOMAIN_POWER_OFF (R457): A closed domain's in-flight count reaches zero and power is removed. -/
  | domainPowerOff (d : DomainId)
  /-- CORE_WAKE (R451): A core in CS1-CS3 wakes, restores its state and continues after WFI. -/
  | coreWake (k : CoreId)
  /-- CLUSTER_STATE_ENTRY (R453): A cluster enters KS1-KS3 once its cores and target allow. -/
  | clusterStateEntry (g : ClusterId)
  /-- POWERDOWN_ABANDON (R454): A drain not finished in 64 ticks abandons the power-down with 0xA001. -/
  | powerdownAbandon (k : CoreId)
  /-- BOOST_UPDATE (R459): Every 100 ticks the PSC sets the boost frequency from mean package power. -/
  | boostUpdate
  /-- DROOP_STRETCH (R461): A rail below its guard band makes the droop detector stretch the clock. -/
  | droopStretch (g : ClusterId) (n : Nat)
  /-- THERMAL_THROTTLE (R463): A die or stack at its throttle limit caps cluster clocks at 2.0 GHz with 0xA040. -/
  | thermalThrottle (u : ThermUnit) (temp : Int)
  /-- THROTTLE_RELEASE (R463): The die or stack is 5 C below its limit and the cap ends. -/
  | throttleRelease (u : ThermUnit) (temp : Int)
  /-- THERMAL_TRIP (R463): A trip limit removes main power, logs 0xA041 and declares FATAL. -/
  | thermalTrip (u : ThermUnit) (temp : Int)
  /-- PARK_COMPLETE (R465): All clusters are in KS3 and ports set, so the partition becomes PARKED with 0xA020. -/
  | parkComplete (p : Pid)
  /-- PARK_DRAIN_TIMEOUT (R465): A park not drained by T + 64 is abandoned with DRAIN_TIMEOUT. -/
  | parkDrainTimeout (p : Pid)
  /-- PARK_SAMPLE (R466): At each wake interval the Locus samples the wake sources of a parked partition. -/
  | parkSample (p : Pid) (smp : List Int)
  /-- PARTITION_WAKE (R467): The PSC restores ports, clusters and cores and sets the partition RUNNING. -/
  | partitionWake (p : Pid)
  /-- PARTITION_DOWN (R475): A UCD takes the partition DOWN, notifies the owner and starts the domain takedown. -/
  | partitionDown (p : Pid) (code : BitVec 16) (unit : Nat) (ppa : Nat)
  /-- FATAL (R477): The package stops: cause recorded, fatal output asserted and clusters held in reset. -/
  | fatal (code : BitVec 16)
  /-- PSC_HEARTBEAT_LOSS (R478): The PSC fails to complete a duty window for 1,000 ticks, declaring FATAL with 0x0030. -/
  | pscHeartbeatLoss
  /-- BLACKBOX_RECORD (R489): The Locus writes an arriving black-box record under its ring state. -/
  | blackboxRecord (r : BbRec)
  /-- SENSOR_CHECK (R485): Every 1,000 ticks temperature sensors are compared with the median. -/
  | sensorCheck (die : Nat) (sensor : Nat) (reading : Int) (median : Int)
  /-- SPI_TIMEOUT (R485): An SPI NOR transaction fails its retries, with the outcome of its context. -/
  | spiTimeout (ctx : SpiCtx)
  /-- PCIE_REFCLK_FAULT (R485): A PCIe reference outside its window contains the complex's ports. -/
  | pcieRefclkFault (rc : Fin 8)
  /-- COLD_RESET (R491): A cold reset resets every die and partition and wipes memory during boot. -/
  | coldReset (cause : ColdCause)
  /-- WARM_RESET (R493): PKG_WRST_N resets the package keeping memory and rebuilds the layout. -/
  | warmReset
  /-- BOOT_REFERENCE_CHECK (R496): After PKG_RST_N release the Locus checks the reference and starts counting ticks. -/
  | bootReferenceCheck (ok : Bool)
  /-- FIRMWARE_AUTHENTICATION (R499): The PSC ROM reads and authenticates firmware copy A, then B. -/
  | firmwareAuthentication (a : FwCopy) (b : FwCopy)
  /-- BOOT_CHORD_TRAINING (R496): All strands train and every Facet re-synchronises. -/
  | bootChordTraining (up : List Nat)
  /-- BOOT_HBM_TRAINING (R356): All eight stacks train in parallel. -/
  | bootHbmTraining (bad : List Nat) (ok : Bool)
  /-- BOOT_MEMORY_WIPE (R496): Memory and SRAMs are wiped, root ports trained and CXL devices enumerated. -/
  | bootMemoryWipe (cxl : List (Nat × Nat))
  /-- BOOT_LAYOUT_BUILD (R496): The stored layout is checked and partitions built with one swap pair. -/
  | bootLayoutBuild (rec : List Byte) (dir : List (Nat × Nat))
  /-- BOOT_IMAGE_LOAD (R497): Each partition's boot image is loaded and measured. -/
  | bootImageLoad (p : Pid) (image : List Byte)
  /-- BOOT_STEP_TIMEOUT (R496): A boot step exceeds its limit with its stated outcome. -/
  | bootStepTimeout
  /-- FACET_RESET (R494): The PSC resets a Facet die and the Centroid end of its strands. -/
  | facetReset (f : FacetId)
  /-- CORE_RESET (R505): The debug instrument resets one core. -/
  | coreReset (k : CoreId)
  /-- LIFECYCLE_REQUEST (R502): A life-cycle transition is requested, or refused and cleared. -/
  | lifecycleRequest (target : Fin 8) (token : Bool)
  /-- TAP_RESET (R504): TRST_N asserted resets the TAPs. -/
  | tapReset
  /-- BYPASS (R504): The TAP selects its one-bit bypass register. -/
  | bypass (die : Fin 13)
  /-- IDCODE (R504): The TAP selects the die's IDCODE. -/
  | idcode (die : Fin 13)
  /-- SAMPLE_PRELOAD (R504): The TAP samples or preloads the boundary register. -/
  | samplePreload (die : Fin 13) (v : Word)
  /-- EXTEST (R504): The TAP drives pins from the boundary register, refused while a partition runs. -/
  | extest (die : Fin 13) (v : Word)
  /-- CLAMP (R504): The TAP clamps outputs, refused while a partition runs. -/
  | clamp (die : Fin 13)
  /-- HIGHZ (R504): The TAP floats outputs, refused while a partition runs. -/
  | highz (die : Fin 13)
  /-- IJTAG_CONNECT (R504): The TAP connects the die's IEEE 1687 network. -/
  | ijtagConnect (die : Fin 13)
  /-- PRS_ACCESS (R505): The test instrument reads or writes a PRS register as the life-cycle state permits. -/
  | prsAccess (addr : Nat) (size : Nat) (wr : Bool) (v : Word)
  /-- CORE_DEBUG_ACCESS (R505): The core debug instrument accesses a halted core's debug and register state. -/
  | coreDebugAccess (k : CoreId) (op : DbgOp)
  /-- TRACE_ACCESS (R505): The trace instrument reads the non-invasive view. -/
  | traceAccess (k : CoreId)
  /-- MEMORY_BIST (R505): Memory BIST or scan runs in BLANK or SERVICE on reset units. -/
  | memoryBist (unit : BistUnit)
  /-- HALT_REQ (R506): A halt request is made pending for the core. -/
  | haltReq (k : CoreId)
  /-- RESUME (R506): A halted core leaves the halted state, optionally for one step. -/
  | resume (k : CoreId) (v : Word)
  /-- DEBUG_HALT (R506): A pending halt takes effect at an instruction boundary. -/
  | debugHalt (k : CoreId)
  /-- BP_CTL_WRITE (R507): A write to a breakpoint comparator, ignored with 0x8043 for outer writes to inner comparators. -/
  | bpCtlWrite (k : CoreId) (w : World) (i : Fin 16) (ctl : Bool) (v : Word)
  /-- DUMP_RECORD_WRITE (R518): The dump engine finishes a stage of a record's writes after the previous CMPs. -/
  | dumpRecordWrite (p : Pid)
  /-- SAMPLE_TAG (R520): The sampling countdown reaches zero and the allocated instruction is tagged. -/
  | sampleTag (k : CoreId) (pc : Word) (va : Word) (enc : BitVec 32)
  /-- SAMPLE_RING_WRITE (R522): A cluster writes a buffered sample record to its ring and advances TAIL. -/
  | sampleRingWrite (g : ClusterId)
  /-- SAMPLE_RING_ENABLE (R522): Setting CLU_SMPL_CTL.EN resets the ring positions and sets its world. -/
  | sampleRingEnable (g : ClusterId) (w : World) (v : Word)
  /-- MAIN_EN_RAISE (R529): At tick 100 the Locus raises MAIN_EN unless a trip holds it low. -/
  | mainEnRaise
  /-- MAIN_EN_REARM (R533): After a trip or overvoltage, MAIN_EN rises once sensors are cool and PKG_PWROK has been low. -/
  | mainEnRearm (cool : Bool)
  /-- RAIL_LOSS (R532): A main rail below 92% for 2 us sets UV and performs a cold reset. -/
  | railLoss (rail : Fin 23)
  /-- RAIL_OVERVOLTAGE (R532): A main rail above 108% for 2 us sets OV, drops MAIN_EN and performs a cold reset. -/
  | railOvervoltage (rail : Fin 23)
  /-- VDD_AON_LOSS (R530): Loss of VDD_AON clears the Locus stores, and its return starts with a cold reset. -/
  | vddAonLoss
  /-- ILLEGAL_INSTRUCTION (R85): Execution reaches an unassigned or reserved encoding, or one with non-zero must-be-zero bits, and the core takes the precise illegal-instruction exception. -/
  | illegalInstruction (k : CoreId) (w : BitVec 32)
  /-- INSTRUCTION_FETCH_FAULT (R83): Fetching an instruction's halfword takes a translation or permission fault or a precise external abort, and the fault is taken with no part of the instruction executing. -/
  | instructionFetchFault (k : CoreId) (second : Bool)
  /-- PME_MESSAGE (R466): A PME message or link activity arrives at a root port of a parked partition and the port latches it for the next wake sample. -/
  | pmeMessage (port : PortId)
  /-- OWNER_COMPLETION_READ (R417): The BMC reads an owner-ring completion over I3C, after which the descriptor no longer counts as outstanding. -/
  | ownerCompletionRead
  /-- METER_SEALING (R437): The Meter's seal fuse is blown in BLANK, which ends calibration access, generates the Meter key pair and makes MTR_STATUS.SEALED read 1. -/
  | meterSealing
  /-- DYNAMIC_ADDRESS_ASSIGNMENT (R441): The Evonisum port receives SETDASA or ENTDAA and takes a dynamic I3C address. -/
  | dynamicAddressAssignment (addr : BitVec 7)
  deriving DecidableEq, Repr

end Sys2Proof
end

