-- ==== Sys2Proof/Config.lean ====
section
/-! DEFINITION. What an implementation or a part fixes (fuse values), and the free values: constants without a body,
so that no proof can see what they are. -/

namespace Sys2Proof.Config

/-! ## Fuse values (R5: entry "F") -/

/-- The package is of stepping B1, not B0 (R1). -/
opaque isB1 : Bool
/-- PSC_DEVICE_ID.STEPPING (R1): 0x10 for B0, 0x11 for B1. -/
def stepping : BitVec 8 := if isB1 then 0x11 else 0x10
/-- PSC_MCTP_VID.VID (R416). -/
opaque mctpVid : BitVec 32
/-- The life-cycle state code in the fuses at reset (R501). -/
opaque lifeCycleFuse : Fin 5
/-- The firmware fuse counter, of the width of a security version (R499). -/
opaque svnFuse : BitVec 8
/-- MTR_ID.FW_VER and MTR_ID.CHECKSUM (R440). -/
opaque mtrFwVer : BitVec 16
opaque mtrChecksum : BitVec 16
/-- The Meter's seal fuse (R437). -/
opaque meterSealFuse : Bool

/-- Nolsuvo's manufacturer identity in every IDCODE (R504). -/
opaque mfrId : BitVec 11
/-- The package's serial number (R441). -/
opaque serial : Word

/-- The DER certificate chain of the Meter key, by byte, and its number of parts of 256 bytes (R441). -/
opaque meterCert : Nat → Byte
opaque meterCertParts : Nat

/-- The factory's calibration corrections, in units of 1/1,024 nJ: entry 15·channel + 3·load point + temperature (R435). -/
opaque calFactory : Nat → Int
/-- Whether a corrected sample of a channel that is no whole unit is rounded up, by its raw sample and temperature (R421, R435). -/
opaque calUp : Nat → Int → Int → Bool

/-! ## Free values (the specification gives no value, or allows several) -/

/-- What the branch predictor predicts from its entries of the world in force (address, target, taken), the global history and an address:
taken or not, and for a jump to a register its target from the entries, the return stack and the address (R144, which gives no function). -/
opaque predictTaken : List (Word × Word × Bool) → List Bool → Word → Bool
opaque predictTarget : List (Word × Word × Bool) → List Word → Word → Word

/-- A value the specification leaves open, fresh for each number drawn from the counter of State. -/
opaque freeWord : Nat → Word
/-- A choice the specification leaves open, fresh for each number drawn from the counter of State. -/
opaque freeBool : Nat → Bool

end Sys2Proof.Config
end

