-- ==== Sys2Proof/Machine/Regs.lean ====
section
/-! DEFINITION. The package register space (R15): every register type of the specification with its instance indices,
its PRS address (R15, and the "+0x" offset of its field table), width (R2), reset value (R5) and the masks of its field
access codes (R4).  A register's contents are kept under its PRS address. -/

namespace Sys2Proof

/-- The registers of the package register space; the arguments are the instance and element indices. -/
inductive Reg where
  /-- CORE_EXEC_CTL (06 R142-R143). -/
  | coreExecCtl (n : Fin 216)
  /-- CORE_INT_ACK_O (13 R395). -/
  | coreIntAckO (n : Fin 216)
  /-- CORE_INT_ACK_I (13 R395). -/
  | coreIntAckI (n : Fin 216)
  /-- CORE_DBG_CTL (18 R506). -/
  | coreDbgCtl (n : Fin 216)
  /-- CORE_BP_ADDR (18 R506-R507). -/
  | coreBpAddr (n : Fin 216) (i : Fin 16)
  /-- CORE_BP_CTL (18 R507). -/
  | coreBpCtl (n : Fin 216) (i : Fin 16)
  /-- CLU_OWNER (03 R46/R50). -/
  | cluOwner (g : Fin 36)
  /-- CLU_L2_CTL (09 R253-R257). -/
  | cluL2Ctl (g : Fin 36)
  /-- CLU_L2_LOCK (09 R253-R255). -/
  | cluL2Lock (g : Fin 36)
  /-- CLU_L2_LOCKMISS (09 R254). -/
  | cluL2Lockmiss (g : Fin 36)
  /-- CLU_SMPL_BASE (19 R522). -/
  | cluSmplBase (g : Fin 36)
  /-- CLU_SMPL_CTL (19 R522). -/
  | cluSmplCtl (g : Fin 36)
  /-- CLU_SMPL_HEAD (19 R522). -/
  | cluSmplHead (g : Fin 36)
  /-- CLU_SMPL_POS (19 R522). -/
  | cluSmplPos (g : Fin 36)
  /-- FCT_TICK_STATUS (02 R27-R29). -/
  | fctTickStatus (f : Fin 12)
  /-- FCT_RTE_SEL (10 R274). -/
  | fctRteSel (f : Fin 12)
  /-- FCT_RTE_DATA (10 R274 (indirect)). -/
  | fctRteData (f : Fin 12)
  /-- FCT_CHD_REMAP (11 R319). -/
  | fctChdRemap (f : Fin 12)
  /-- FCT_ARB_CLASS_A (10 R292). -/
  | fctArbClassA (f : Fin 12)
  /-- FCT_ARB_CLASS_B (10 R292). -/
  | fctArbClassB (f : Fin 12)
  /-- FCT_ARB_CFG (10 R292). -/
  | fctArbCfg (f : Fin 12)
  /-- CHD_STRAND_CTL (11 R313-R318). -/
  | chdStrandCtl (f : Fin 12) (s : Fin 6)
  /-- CHD_STRAND_STATUS (11 R313). -/
  | chdStrandStatus (f : Fin 12) (s : Fin 6)
  /-- CHD_STRAND_ERR (11 R322). -/
  | chdStrandErr (f : Fin 12) (s : Fin 6)
  /-- CHD_EYE (11 R316). -/
  | chdEye (f : Fin 12) (s : Fin 6) (l : Fin 50)
  /-- NET_RTR_CTL (10 R297-R299). -/
  | netRtrCtl (p : Fin 12) (r : Fin 144)
  /-- NET_INFLIGHT (10 R297). -/
  | netInflight (p : Fin 12) (r : Fin 144)
  /-- NET_ARB_CFG (10 R292-R294). -/
  | netArbCfg (p : Fin 12) (r : Fin 144)
  /-- NET_ARB_CLASS_A (10 R292). -/
  | netArbClassA (p : Fin 12) (r : Fin 144)
  /-- NET_ARB_CLASS_B (10 R292). -/
  | netArbClassB (p : Fin 12) (r : Fin 144)
  /-- NET_LINK_ERR (10 R302). -/
  | netLinkErr (p : Fin 12) (r : Fin 144) (o : Fin 7)
  /-- NET_SLOT_A (10 R285). -/
  | netSlotA (p : Fin 12) (r : Fin 144) (o : Fin 7) (q : Fin 32)
  /-- NET_SLOT_B (10 R285). -/
  | netSlotB (p : Fin 12) (r : Fin 144) (o : Fin 7) (q : Fin 32)
  /-- NET_RTE_SEL (10 R274). -/
  | netRteSel (p : Fin 12) (r : Fin 144)
  /-- NET_RTE_DATA (10 R274 (indirect)). -/
  | netRteData (p : Fin 12) (r : Fin 144)
  /-- L3S_WAYMASK_A (09 R229-R230). -/
  | l3sWaymaskA (i : Fin 64) (q : Fin 16)
  /-- L3S_WAYMASK_B (09 R229-R230). -/
  | l3sWaymaskB (i : Fin 64) (q : Fin 16)
  /-- L3S_ARB_CLASS_A (10 R292). -/
  | l3sArbClassA (i : Fin 64)
  /-- L3S_ARB_CLASS_B (10 R292). -/
  | l3sArbClassB (i : Fin 64)
  /-- L3S_ARB_CFG (10 R292). -/
  | l3sArbCfg (i : Fin 64)
  /-- HBM_SCHED_CFG (12 R335-R338). -/
  | hbmSchedCfg (m : Fin 8) (n : Fin 16)
  /-- HBM_RAS_CFG (12 R346-R348). -/
  | hbmRasCfg (m : Fin 8) (n : Fin 16)
  /-- HBM_PC_ERR (12 R345-R349). -/
  | hbmPcErr (m : Fin 8) (n : Fin 16) (c : Fin 2)
  /-- HBM_REMAP (12 R347-R348). -/
  | hbmRemap (m : Fin 8) (n : Fin 16) (c : Fin 2) (e : Fin 16)
  /-- HBM_PORT (12 R332-R338). -/
  | hbmPort (m : Fin 8) (n : Fin 16) (t : Fin 65)
  /-- HBM_PHY_STATUS (12 R356-R360). -/
  | hbmPhyStatus (m : Fin 8)
  /-- HBM_MIG (12 R351-R355). -/
  | hbmMig (m : Fin 8)
  /-- HBM_LPC_A (12 R350-R355). -/
  | hbmLpcA (m : Fin 8) (k : Fin 32)
  /-- HBM_LPC_B (12 R350-R355). -/
  | hbmLpcB (m : Fin 8) (k : Fin 32)
  /-- PCI_CFG (13 R363-R365). -/
  | pciCfg (r : Fin 8)
  /-- PCI_ARB_CLASS_A (10 R292, 13 R366). -/
  | pciArbClassA (r : Fin 8)
  /-- PCI_ARB_CLASS_B (10 R292, 13 R366). -/
  | pciArbClassB (r : Fin 8)
  /-- PCI_ARB_CFG (10 R292). -/
  | pciArbCfg (r : Fin 8)
  /-- PCI_PORT_OWNER_A (13 R364-R365). -/
  | pciPortOwnerA (r : Fin 8) (i : Fin 4)
  /-- PCI_PORT_OWNER_B (13 R364-R365). -/
  | pciPortOwnerB (r : Fin 8) (i : Fin 4)
  /-- PCI_PORT_STATUS (13 R365). -/
  | pciPortStatus (r : Fin 8) (i : Fin 4)
  /-- IOT_CTX_ROOT_O (13 R375). -/
  | iotCtxRootO (p : Fin 16)
  /-- IOT_CTX_ROOT_I (13 R375). -/
  | iotCtxRootI (p : Fin 16)
  /-- IOT_INV_CMD (13 R380). -/
  | iotInvCmd (p : Fin 16)
  /-- IOT_INV_ADDR (13 R380). -/
  | iotInvAddr (p : Fin 16)
  /-- IOT_INV_STATUS (13 R380-R382). -/
  | iotInvStatus (p : Fin 16)
  /-- IOT_FAULT_INT (13 R381 (width PRESUMED 32)). -/
  | iotFaultInt (p : Fin 16)
  /-- IOT_FAULT_LO (13 R381 (view of the FIFO)). -/
  | iotFaultLo (p : Fin 16)
  /-- IOT_FAULT_HI (13 R381 (view of the FIFO)). -/
  | iotFaultHi (p : Fin 16)
  /-- IRD_IPI (13 R390). -/
  | irdIpi (p : Fin 16)
  /-- IRD_ROUTE (13 R389). -/
  | irdRoute (p : Fin 16) (i : Fin 2048)
  /-- DRT_REGION_LO (08 R213-R216). -/
  | drtRegionLo (p : Fin 16) (i : Fin 64)
  /-- DRT_REGION_HI (08 R213-R216). -/
  | drtRegionHi (p : Fin 16) (i : Fin 64)
  /-- DRT_CTL (08 R214). -/
  | drtCtl (p : Fin 16)
  /-- GMAP_ENTRY_A (03 R47-R49). -/
  | gmapEntryA (i : Fin 4096)
  /-- GMAP_ENTRY_B (03 R47-R49). -/
  | gmapEntryB (i : Fin 4096)
  /-- GMAP_STATUS (03 R48). -/
  | gmapStatus
  /-- CTR_STATUS (19 R518-R519). -/
  | ctrStatus (p : Fin 16)
  /-- PSC_DEVICE_ID (01 R1). -/
  | pscDeviceId
  /-- PSC_MCTP_VID (14 R416). -/
  | pscMctpVid
  /-- PSC_BOOT_STATUS (18 R496-R498). -/
  | pscBootStatus
  /-- PSC_SQ_BASE (14 R396). -/
  | pscSqBase (p : Fin 16)
  /-- PSC_CQ_BASE (14 R396). -/
  | pscCqBase (p : Fin 16)
  /-- PSC_RING_CTL (14 R396-R397). -/
  | pscRingCtl (p : Fin 16)
  /-- PSC_SQ_TAIL (14 R402). -/
  | pscSqTail (p : Fin 16)
  /-- PSC_CQ_HEAD (14 R402). -/
  | pscCqHead (p : Fin 16)
  /-- PSC_RING_POS (14 R399-R403). -/
  | pscRingPos (p : Fin 16)
  /-- PSC_RING_STATUS (14 R396-R403). -/
  | pscRingStatus (p : Fin 16)
  /-- PSC_RING_CNT (14 R403). -/
  | pscRingCnt (p : Fin 16)
  /-- PSC_PART_STATUS (03 R46). -/
  | pscPartStatus (p : Fin 16)
  /-- PSC_PART_WM (03 R63-R64). -/
  | pscPartWm (p : Fin 16)
  /-- PSC_DBG_CTL (03 R65-R66). -/
  | pscDbgCtl (p : Fin 16)
  /-- PSC_WAKE_CAUSE (16 R467-R468). -/
  | pscWakeCause (p : Fin 16)
  /-- PSC_RAS_CTL (17 R474). -/
  | pscRasCtl (p : Fin 16)
  /-- PSC_START_CTL (18 R498). -/
  | pscStartCtl (p : Fin 16)
  /-- MTR_ID (15 R440). -/
  | mtrId
  /-- MTR_STATUS (15 R437-R443). -/
  | mtrStatus
  /-- MTR_CH_FAIL_LO (15 R432). -/
  | mtrChFailLo
  /-- MTR_CH_FAIL_HI (15 R432). -/
  | mtrChFailHi
  /-- MTR_LEDGER_TICK (15 R443). -/
  | mtrLedgerTick
  /-- MTR_ENTRY_FLAGS (15 R433). -/
  | mtrEntryFlags
  /-- MTR_TOTAL (15 R430). -/
  | mtrTotal
  /-- MTR_LEDGER (15 R430). -/
  | mtrLedger (b : Fin 19)
  /-- LOC_TICK_NUM (02 R38). -/
  | locTickNum
  /-- LOC_TIME_OFS (02 R39). -/
  | locTimeOfs
  /-- LOC_TICK_STATUS (02 R22/R41). -/
  | locTickStatus
  /-- LOC_SWAP_REQ (02 R33-R36). -/
  | locSwapReq
  /-- LOC_TICK_OVR (02 R31-R32). -/
  | locTickOvr
  /-- LOC_SWAP_TICK (02 R36). -/
  | locSwapTick
  /-- LOC_FATAL_CAUSE (17 R477). -/
  | locFatalCause
  /-- LOC_RAIL_STATUS (20 R532-R533). -/
  | locRailStatus
  /-- LOC_LANE_MAP (11 R311-R312). -/
  | locLaneMap (l : Fin 72)
  /-- BBX_STATUS (17 R489-R490). -/
  | bbxStatus
  /-- BBX_LOST (17 R489). -/
  | bbxLost
  /-- PWR_CTL (16 R448-R449). -/
  | pwrCtl (d : Fin 296)
  /-- PWR_STATUS (16 R448-R457). -/
  | pwrStatus (d : Fin 296)
  /-- PWR_PERF (16 R458). -/
  | pwrPerf (d : Fin 296)
  /-- PWR_DROOP, in cluster instances (16 R461). -/
  | pwrDroop (g : Fin 36)
  deriving DecidableEq, Repr

/-- The PRS address of a register (R15). -/
def Reg.addr : Reg → Nat
  | .coreExecCtl n => 0x00000040 + n.val * 0x10000
  | .coreIntAckO n => 0x00000100 + n.val * 0x10000
  | .coreIntAckI n => 0x00000108 + n.val * 0x10000
  | .coreDbgCtl n => 0x00000180 + n.val * 0x10000
  | .coreBpAddr n i => 0x00000200 + n.val * 0x10000 + i.val * 0x10
  | .coreBpCtl n i => 0x00000208 + n.val * 0x10000 + i.val * 0x10
  | .cluOwner g => 0x01000010 + g.val * 0x10000
  | .cluL2Ctl g => 0x01000020 + g.val * 0x10000
  | .cluL2Lock g => 0x01000028 + g.val * 0x10000
  | .cluL2Lockmiss g => 0x01000030 + g.val * 0x10000
  | .cluSmplBase g => 0x01000040 + g.val * 0x10000
  | .cluSmplCtl g => 0x01000048 + g.val * 0x10000
  | .cluSmplHead g => 0x0100004C + g.val * 0x10000
  | .cluSmplPos g => 0x01000050 + g.val * 0x10000
  | .fctTickStatus f => 0x01400300 + f.val * 0x10000
  | .fctRteSel f => 0x01400400 + f.val * 0x10000
  | .fctRteData f => 0x01400408 + f.val * 0x10000
  | .fctChdRemap f => 0x01400500 + f.val * 0x10000
  | .fctArbClassA f => 0x01400600 + f.val * 0x10000
  | .fctArbClassB f => 0x01400604 + f.val * 0x10000
  | .fctArbCfg f => 0x01400608 + f.val * 0x10000
  | .chdStrandCtl f s => 0x01500000 + f.val * 0x10000 + s.val * 0x2000
  | .chdStrandStatus f s => 0x01500008 + f.val * 0x10000 + s.val * 0x2000
  | .chdStrandErr f s => 0x01500010 + f.val * 0x10000 + s.val * 0x2000
  | .chdEye f s l => 0x01500100 + f.val * 0x10000 + s.val * 0x2000 + l.val * 0x4
  | .netRtrCtl p r => 0x02000000 + p.val * 0x90000 + r.val * 0x1000
  | .netInflight p r => 0x02000004 + p.val * 0x90000 + r.val * 0x1000
  | .netArbCfg p r => 0x02000008 + p.val * 0x90000 + r.val * 0x1000
  | .netArbClassA p r => 0x02000010 + p.val * 0x90000 + r.val * 0x1000
  | .netArbClassB p r => 0x02000014 + p.val * 0x90000 + r.val * 0x1000
  | .netLinkErr p r o => 0x02000020 + p.val * 0x90000 + r.val * 0x1000 + o.val * 0x8
  | .netSlotA p r o q => 0x02000100 + p.val * 0x90000 + r.val * 0x1000 + o.val * 0x80 + q.val * 0x4
  | .netSlotB p r o q => 0x02000500 + p.val * 0x90000 + r.val * 0x1000 + o.val * 0x80 + q.val * 0x4
  | .netRteSel p r => 0x02000C00 + p.val * 0x90000 + r.val * 0x1000
  | .netRteData p r => 0x02000C08 + p.val * 0x90000 + r.val * 0x1000
  | .l3sWaymaskA i q => 0x03000100 + i.val * 0x10000 + q.val * 0x8
  | .l3sWaymaskB i q => 0x03000180 + i.val * 0x10000 + q.val * 0x8
  | .l3sArbClassA i => 0x03000200 + i.val * 0x10000
  | .l3sArbClassB i => 0x03000204 + i.val * 0x10000
  | .l3sArbCfg i => 0x03000208 + i.val * 0x10000
  | .hbmSchedCfg m n => 0x04000000 + m.val * 0x200000 + n.val * 0x10000
  | .hbmRasCfg m n => 0x04000010 + m.val * 0x200000 + n.val * 0x10000
  | .hbmPcErr m n c => 0x04000100 + m.val * 0x200000 + n.val * 0x10000 + c.val * 0x8
  | .hbmRemap m n c e => 0x04000200 + m.val * 0x200000 + n.val * 0x10000 + c.val * 0x40 + e.val * 0x4
  | .hbmPort m n t => 0x04000400 + m.val * 0x200000 + n.val * 0x10000 + t.val * 0x8
  | .hbmPhyStatus m => 0x04100000 + m.val * 0x200000
  | .hbmMig m => 0x04100040 + m.val * 0x200000
  | .hbmLpcA m k => 0x04100100 + m.val * 0x200000 + k.val * 0x4
  | .hbmLpcB m k => 0x04100180 + m.val * 0x200000 + k.val * 0x4
  | .pciCfg r => 0x05000000 + r.val * 0x100000
  | .pciArbClassA r => 0x05000020 + r.val * 0x100000
  | .pciArbClassB r => 0x05000024 + r.val * 0x100000
  | .pciArbCfg r => 0x05000028 + r.val * 0x100000
  | .pciPortOwnerA r i => 0x05000100 + r.val * 0x100000 + i.val * 0x4
  | .pciPortOwnerB r i => 0x05000110 + r.val * 0x100000 + i.val * 0x4
  | .pciPortStatus r i => 0x05000200 + r.val * 0x100000 + i.val * 0x8
  | .iotCtxRootO p => 0x06000000 + p.val * 0x100000
  | .iotCtxRootI p => 0x06000008 + p.val * 0x100000
  | .iotInvCmd p => 0x06000010 + p.val * 0x100000
  | .iotInvAddr p => 0x06000018 + p.val * 0x100000
  | .iotInvStatus p => 0x06000020 + p.val * 0x100000
  | .iotFaultInt p => 0x06000048 + p.val * 0x100000
  | .iotFaultLo p => 0x06000050 + p.val * 0x100000
  | .iotFaultHi p => 0x06000058 + p.val * 0x100000
  | .irdIpi p => 0x07000008 + p.val * 0x100000
  | .irdRoute p i => 0x07001000 + p.val * 0x100000 + i.val * 0x4
  | .drtRegionLo p i => 0x08000000 + p.val * 0x1000 + i.val * 0x10
  | .drtRegionHi p i => 0x08000008 + p.val * 0x1000 + i.val * 0x10
  | .drtCtl p => 0x08000400 + p.val * 0x1000
  | .gmapEntryA i => 0x08100000 + i.val * 0x8
  | .gmapEntryB i => 0x08108000 + i.val * 0x8
  | .gmapStatus => 0x08110000
  | .ctrStatus p => 0x09000000 + p.val * 0x10000
  | .pscDeviceId => 0x0A000000
  | .pscMctpVid => 0x0A000008
  | .pscBootStatus => 0x0A000010
  | .pscSqBase p => 0x0A001000 + p.val * 0x1000
  | .pscCqBase p => 0x0A001008 + p.val * 0x1000
  | .pscRingCtl p => 0x0A001010 + p.val * 0x1000
  | .pscSqTail p => 0x0A001018 + p.val * 0x1000
  | .pscCqHead p => 0x0A00101C + p.val * 0x1000
  | .pscRingPos p => 0x0A001020 + p.val * 0x1000
  | .pscRingStatus p => 0x0A001028 + p.val * 0x1000
  | .pscRingCnt p => 0x0A001030 + p.val * 0x1000
  | .pscPartStatus p => 0x0A001080 + p.val * 0x1000
  | .pscPartWm p => 0x0A001088 + p.val * 0x1000
  | .pscDbgCtl p => 0x0A001090 + p.val * 0x1000
  | .pscWakeCause p => 0x0A001098 + p.val * 0x1000
  | .pscRasCtl p => 0x0A0010A0 + p.val * 0x1000
  | .pscStartCtl p => 0x0A0010A8 + p.val * 0x1000
  | .mtrId => 0x0B000000
  | .mtrStatus => 0x0B000008
  | .mtrChFailLo => 0x0B000010
  | .mtrChFailHi => 0x0B000018
  | .mtrLedgerTick => 0x0B000020
  | .mtrEntryFlags => 0x0B000028
  | .mtrTotal => 0x0B000030
  | .mtrLedger b => 0x0B000100 + b.val * 0x8
  | .locTickNum => 0x0C000000
  | .locTimeOfs => 0x0C000008
  | .locTickStatus => 0x0C000010
  | .locSwapReq => 0x0C000018
  | .locTickOvr => 0x0C00001C
  | .locSwapTick => 0x0C000020
  | .locFatalCause => 0x0C000040
  | .locRailStatus => 0x0C000048
  | .locLaneMap l => 0x0C001000 + l.val * 0x8
  | .bbxStatus => 0x0D000000
  | .bbxLost => 0x0D000008
  | .pwrCtl d => 0x0E000000 + d.val * 0x1000
  | .pwrStatus d => 0x0E000008 + d.val * 0x1000
  | .pwrPerf d => 0x0E000010 + d.val * 0x1000
  | .pwrDroop g => 0x0E0D8018 + g.val * 0x1000

/-- The width in bits (R2). -/
def Reg.width : Reg → Nat
  | .coreExecCtl _ => 32
  | .coreIntAckO _ => 32
  | .coreIntAckI _ => 32
  | .coreDbgCtl _ => 32
  | .coreBpAddr _ _ => 64
  | .coreBpCtl _ _ => 64
  | .cluOwner _ => 32
  | .cluL2Ctl _ => 32
  | .cluL2Lock _ => 64
  | .cluL2Lockmiss _ => 32
  | .cluSmplBase _ => 64
  | .cluSmplCtl _ => 32
  | .cluSmplHead _ => 32
  | .cluSmplPos _ => 64
  | .fctTickStatus _ => 32
  | .fctRteSel _ => 32
  | .fctRteData _ => 64
  | .fctChdRemap _ => 64
  | .fctArbClassA _ => 32
  | .fctArbClassB _ => 32
  | .fctArbCfg _ => 32
  | .chdStrandCtl _ _ => 32
  | .chdStrandStatus _ _ => 64
  | .chdStrandErr _ _ => 64
  | .chdEye _ _ _ => 32
  | .netRtrCtl _ _ => 32
  | .netInflight _ _ => 32
  | .netArbCfg _ _ => 32
  | .netArbClassA _ _ => 32
  | .netArbClassB _ _ => 32
  | .netLinkErr _ _ _ => 64
  | .netSlotA _ _ _ _ => 32
  | .netSlotB _ _ _ _ => 32
  | .netRteSel _ _ => 32
  | .netRteData _ _ => 64
  | .l3sWaymaskA _ _ => 32
  | .l3sWaymaskB _ _ => 32
  | .l3sArbClassA _ => 32
  | .l3sArbClassB _ => 32
  | .l3sArbCfg _ => 32
  | .hbmSchedCfg _ _ => 32
  | .hbmRasCfg _ _ => 64
  | .hbmPcErr _ _ _ => 64
  | .hbmRemap _ _ _ _ => 32
  | .hbmPort _ _ _ => 64
  | .hbmPhyStatus _ => 32
  | .hbmMig _ => 32
  | .hbmLpcA _ _ => 32
  | .hbmLpcB _ _ => 32
  | .pciCfg _ => 32
  | .pciArbClassA _ => 32
  | .pciArbClassB _ => 32
  | .pciArbCfg _ => 32
  | .pciPortOwnerA _ _ => 32
  | .pciPortOwnerB _ _ => 32
  | .pciPortStatus _ _ => 32
  | .iotCtxRootO _ => 64
  | .iotCtxRootI _ => 64
  | .iotInvCmd _ => 64
  | .iotInvAddr _ => 64
  | .iotInvStatus _ => 32
  | .iotFaultInt _ => 32
  | .iotFaultLo _ => 64
  | .iotFaultHi _ => 64
  | .irdIpi _ => 32
  | .irdRoute _ _ => 32
  | .drtRegionLo _ _ => 64
  | .drtRegionHi _ _ => 64
  | .drtCtl _ => 32
  | .gmapEntryA _ => 64
  | .gmapEntryB _ => 64
  | .gmapStatus => 32
  | .ctrStatus _ => 64
  | .pscDeviceId => 32
  | .pscMctpVid => 32
  | .pscBootStatus => 32
  | .pscSqBase _ => 64
  | .pscCqBase _ => 64
  | .pscRingCtl _ => 32
  | .pscSqTail _ => 32
  | .pscCqHead _ => 32
  | .pscRingPos _ => 64
  | .pscRingStatus _ => 32
  | .pscRingCnt _ => 64
  | .pscPartStatus _ => 32
  | .pscPartWm _ => 64
  | .pscDbgCtl _ => 32
  | .pscWakeCause _ => 64
  | .pscRasCtl _ => 32
  | .pscStartCtl _ => 64
  | .mtrId => 32
  | .mtrStatus => 64
  | .mtrChFailLo => 64
  | .mtrChFailHi => 64
  | .mtrLedgerTick => 64
  | .mtrEntryFlags => 32
  | .mtrTotal => 64
  | .mtrLedger _ => 64
  | .locTickNum => 64
  | .locTimeOfs => 64
  | .locTickStatus => 32
  | .locSwapReq => 32
  | .locTickOvr => 32
  | .locSwapTick => 64
  | .locFatalCause => 64
  | .locRailStatus => 64
  | .locLaneMap _ => 64
  | .bbxStatus => 64
  | .bbxLost => 32
  | .pwrCtl _ => 32
  | .pwrStatus _ => 32
  | .pwrPerf _ => 32
  | .pwrDroop _ => 32

/-- The mask of the fields that a write sets (RW, R4). -/
def Reg.maskRw : Reg → Word
  | .coreExecCtl _ => 0x7
  | .coreDbgCtl _ => 0x1C
  | .coreBpAddr _ _ => 0xFFFFFFFFFFFFFFFF
  | .coreBpCtl _ _ => 0x1FF
  | .cluL2Ctl _ => 0x3F01
  | .cluL2Lock _ => 0xFFFFFFFFFFFFFFFF
  | .cluL2Lockmiss _ => 0xFFFFFFFF
  | .cluSmplBase _ => 0xFFFFFFFFFFC0
  | .cluSmplCtl _ => 0xFFF3F
  | .cluSmplHead _ => 0xFFFF
  | .fctRteSel _ => 0x3FFF
  | .fctRteData _ => 0xFFFFFFFFFFFFFFFF
  | .fctArbClassA _ => 0xFFFFFFFF
  | .fctArbClassB _ => 0xFFFFFFFF
  | .fctArbCfg _ => 0xFFFF01FF
  | .chdStrandCtl _ _ => 0x4
  | .chdStrandErr _ _ => 0xFFFFFFFFFFFFFFFF
  | .netRtrCtl _ _ => 0x7F
  | .netArbCfg _ _ => 0xFFFF01FF
  | .netArbClassA _ _ => 0xFFFFFFFF
  | .netArbClassB _ _ => 0xFFFFFFFF
  | .netLinkErr _ _ _ => 0xFFFFFFFFFFFF
  | .netSlotA _ _ _ q => if q.val = 31 then 0xFF else 0xFFFFFFFF
  | .netSlotB _ _ _ q => if q.val = 31 then 0xFF else 0xFFFFFFFF
  | .netRteSel _ _ => 0xF0FF
  | .netRteData _ _ => 0xFFFFFFFFFFFFFFFF
  | .l3sWaymaskA _ _ => 0xFFFF
  | .l3sWaymaskB _ _ => 0xFFFF
  | .l3sArbClassA _ => 0xFFFFFFFF
  | .l3sArbClassB _ => 0xFFFFFFFF
  | .l3sArbCfg _ => 0xFFFF01FF
  | .hbmSchedCfg _ _ => 0xFFF1FFF
  | .hbmRasCfg _ _ => 0xFFFFFFFFFFF01
  | .hbmPcErr _ _ _ => 0xFF0000FFFF
  | .hbmPort _ _ _ => 0xFFFFFFFF00001FFF
  | .hbmLpcA _ _ => 0x7F
  | .hbmLpcB _ _ => 0x7F
  | .pciCfg _ => 0x7
  | .pciArbClassA _ => 0xFFFFFFFF
  | .pciArbClassB _ => 0xFFFFFFFF
  | .pciArbCfg _ => 0xFFFF01FF
  | .pciPortOwnerA _ _ => 0x3F
  | .pciPortOwnerB _ _ => 0x3F
  | .iotCtxRootO _ => 0xFFFFFFFFF001
  | .iotCtxRootI _ => 0xFFFFFFFFF001
  | .iotInvAddr _ => 0x1FFFFFFFFFFF000
  | .iotFaultInt _ => 0xFFF
  | .irdRoute _ _ => 0x3FF
  | .gmapEntryA _ => 0xFFFFFC3FFFFF3
  | .gmapEntryB _ => 0xFFFFFC3FFFFF3
  | .pscSqBase _ => 0xFFFFFFFFFFC0
  | .pscCqBase _ => 0xFFFFFFFFFFC0
  | .pscRingCtl _ => 0x7FF7FF1
  | .pscSqTail _ => 0xFFFF
  | .pscCqHead _ => 0xFFFF
  | .pscDbgCtl _ => 0x3C
  | .pscRasCtl _ => 0xFFF
  | .pscStartCtl _ => 0xFFFFFFFFFFFF
  | .locLaneMap _ => 0x3FFFFFFFFFFFF
  | .pwrCtl _ => 0x1F
  | .pwrPerf _ => 0x3F3F
  | .pwrDroop _ => 0xFFFFFFFF
  | _ => 0

/-- The mask of the fields whose ones clear (W1C). -/
def Reg.maskW1c : Reg → Word
  | .cluL2Ctl _ => 0x10
  | .cluSmplCtl _ => 0x80
  | .fctTickStatus _ => 0x30
  | .fctRteSel _ => 0x10000
  | .fctArbCfg _ => 0x200
  | .chdStrandStatus _ _ => 0xF8000000
  | .netRtrCtl _ _ => 0x100
  | .netArbCfg _ _ => 0x200
  | .netRteSel _ _ => 0x10000
  | .l3sArbCfg _ => 0x200
  | .hbmPhyStatus _ => 0x10000
  | .pciArbCfg _ => 0x200
  | .iotInvStatus _ => 0xE
  | .irdRoute _ _ => 0x400
  | .drtRegionLo _ _ => 0x8
  | .drtCtl _ => 0x10
  | .gmapStatus => 0x3
  | .ctrStatus _ => 0xE
  | .pscRingStatus _ => 0x1F
  | .pscRasCtl _ => 0x1000
  | .locTickStatus => 0x4
  | .locSwapReq => 0x10
  | .locTickOvr => 0xFFFF0001
  | .locRailStatus => 0x7FFFFF007FFFFF
  | .pwrStatus _ => 0x10
  | _ => 0

/-- The mask of the fields whose ones set (W1S). -/
def Reg.maskW1s : Reg → Word
  | .coreDbgCtl _ => 0x3
  | .chdStrandCtl _ _ => 0x3
  | .drtCtl _ => 0x1
  | .pscDbgCtl _ => 0x40
  | .locSwapReq => 0xF
  | .pwrCtl _ => 0x20
  | _ => 0

/-- The mask of the fields writable while the governing LOCK bit is 0 (RWL). -/
def Reg.maskRwl : Reg → Word
  | .drtRegionLo _ _ => 0xFFFFFFFFF007
  | .drtRegionHi _ _ => 0x1FFFFFF000FFFFF
  | _ => 0

/-- The mask of the write-only fields, which read zero (WO). -/
def Reg.maskWo : Reg → Word
  | .iotInvCmd _ => 0x3FFFFFFFFFFFF1F
  | .irdIpi _ => 0xFFF
  | _ => 0

/-- The mask of every field that the field table lists; other bits are reserved and read zero (R3). -/
def Reg.maskAll : Reg → Word
  | .coreExecCtl _ => 0x7
  | .coreIntAckO _ => 0x800007FF
  | .coreIntAckI _ => 0x800007FF
  | .coreDbgCtl _ => 0x31F
  | .coreBpAddr _ _ => 0xFFFFFFFFFFFFFFFF
  | .coreBpCtl _ _ => 0x1FF
  | .cluOwner _ => 0x1F
  | .cluL2Ctl _ => 0x3F17
  | .cluL2Lock _ => 0xFFFFFFFFFFFFFFFF
  | .cluL2Lockmiss _ => 0xFFFFFFFF
  | .cluSmplBase _ => 0xFFFFFFFFFFC0
  | .cluSmplCtl _ => 0xFFFFF
  | .cluSmplHead _ => 0xFFFF
  | .cluSmplPos _ => 0xFFFFFFFF0000FFFF
  | .fctTickStatus _ => 0xFF3F
  | .fctRteSel _ => 0x13FFF
  | .fctRteData _ => 0xFFFFFFFFFFFFFFFF
  | .fctChdRemap _ => 0x3FFFFFFFFFF
  | .fctArbClassA _ => 0xFFFFFFFF
  | .fctArbClassB _ => 0xFFFFFFFF
  | .fctArbCfg _ => 0xFFFF03FF
  | .chdStrandCtl _ _ => 0x7
  | .chdStrandStatus _ _ => 0xFFFFFFFF
  | .chdStrandErr _ _ => 0xFFFFFFFFFFFFFFFF
  | .chdEye _ _ _ => 0x7FFFFF
  | .netRtrCtl _ _ => 0x17F
  | .netInflight _ _ => 0xFFFFFFFF
  | .netArbCfg _ _ => 0xFFFF03FF
  | .netArbClassA _ _ => 0xFFFFFFFF
  | .netArbClassB _ _ => 0xFFFFFFFF
  | .netLinkErr _ _ _ => 0xFFFFFFFFFFFF
  | .netSlotA _ _ _ q => if q.val = 31 then 0xFF else 0xFFFFFFFF
  | .netSlotB _ _ _ q => if q.val = 31 then 0xFF else 0xFFFFFFFF
  | .netRteSel _ _ => 0x1F0FF
  | .netRteData _ _ => 0xFFFFFFFFFFFFFFFF
  | .l3sWaymaskA _ _ => 0xFFFF
  | .l3sWaymaskB _ _ => 0xFFFF
  | .l3sArbClassA _ => 0xFFFFFFFF
  | .l3sArbClassB _ => 0xFFFFFFFF
  | .l3sArbCfg _ => 0xFFFF03FF
  | .hbmSchedCfg _ _ => 0xFFF1FFF
  | .hbmRasCfg _ _ => 0xFFFFFFFFFFF01
  | .hbmPcErr _ _ _ => 0x3FFFFFFFFFFF
  | .hbmRemap _ _ _ _ => 0x7FFFFF
  | .hbmPort _ _ _ => 0xFFFFFFFF00001FFF
  | .hbmPhyStatus _ => 0x3FF03
  | .hbmMig _ => 0xFFFFFFF
  | .hbmLpcA _ _ => 0x7F
  | .hbmLpcB _ _ => 0x7F
  | .pciCfg _ => 0x7
  | .pciArbClassA _ => 0xFFFFFFFF
  | .pciArbClassB _ => 0xFFFFFFFF
  | .pciArbCfg _ => 0xFFFF03FF
  | .pciPortOwnerA _ _ => 0x3F
  | .pciPortOwnerB _ _ => 0x3F
  | .pciPortStatus _ _ => 0x7FF
  | .iotCtxRootO _ => 0xFFFFFFFFF001
  | .iotCtxRootI _ => 0xFFFFFFFFF001
  | .iotInvCmd _ => 0x3FFFFFFFFFFFF1F
  | .iotInvAddr _ => 0x1FFFFFFFFFFF000
  | .iotInvStatus _ => 0xF
  | .iotFaultInt _ => 0xFFF
  | .iotFaultLo _ => 0xFFFFFFFFFFFFFFFF
  | .iotFaultHi _ => 0x1FFFFFFFFFFF000
  | .irdIpi _ => 0xFFF
  | .irdRoute _ _ => 0x7FF
  | .drtRegionLo _ _ => 0xFFFFFFFFF00F
  | .drtRegionHi _ _ => 0x1FFFFFF000FFFFF
  | .drtCtl _ => 0x11
  | .gmapEntryA _ => 0xFFFFFC3FFFFF3
  | .gmapEntryB _ => 0xFFFFFC3FFFFF3
  | .gmapStatus => 0xFFF0003
  | .ctrStatus _ => 0xFFFFFFFF0000030F
  | .pscDeviceId => 0xFFFFFFFF
  | .pscMctpVid => 0xFFFFFFFF
  | .pscBootStatus => 0x1FFFF
  | .pscSqBase _ => 0xFFFFFFFFFFC0
  | .pscCqBase _ => 0xFFFFFFFFFFC0
  | .pscRingCtl _ => 0x7FF7FFF
  | .pscSqTail _ => 0xFFFF
  | .pscCqHead _ => 0xFFFF
  | .pscRingPos _ => 0x7F01FFFFFFFF
  | .pscRingStatus _ => 0xFF001F
  | .pscRingCnt _ => 0xFFFFFFFFFFFFFFFF
  | .pscPartStatus _ => 0xF7FFFF07
  | .pscPartWm _ => 0xFFFFC0000000
  | .pscDbgCtl _ => 0x7F
  | .pscWakeCause _ => 0xFFFFFFFF0000007F
  | .pscRasCtl _ => 0x7F1FFF
  | .pscStartCtl _ => 0xFFFFFFFFFFFF
  | .mtrId => 0xFFFFFFFF
  | .mtrStatus => 0xFFFFFFFFFFFFFF07
  | .mtrChFailLo => 0xFFFFFFFFFFFFFFFF
  | .mtrChFailHi => 0xFF
  | .mtrLedgerTick => 0xFFFFFFFFFFFFFFFF
  | .mtrEntryFlags => 0x3F
  | .mtrTotal => 0xFFFFFFFFFFFFFFFF
  | .mtrLedger _ => 0xFFFFFFFFFFFFFFFF
  | .locTickNum => 0xFFFFFFFFFFFFFFFF
  | .locTimeOfs => 0xFFFFFFFFFFFFFFFF
  | .locTickStatus => 0xFFFF000F
  | .locSwapReq => 0xFF1F
  | .locTickOvr => 0xFFFF0001
  | .locSwapTick => 0xFFFFFFFFFFFFFFFF
  | .locFatalCause => 0xFFFFFFFFFFFFFFFF
  | .locRailStatus => 0x1FFFFFF007FFFFF
  | .locLaneMap _ => 0x3FFFFFFFFFFFF
  | .bbxStatus => 0x1FFF0FFF3FFF
  | .bbxLost => 0xFFFFFFFF
  | .pwrCtl _ => 0x33F
  | .pwrStatus _ => 0xFFF001F
  | .pwrPerf _ => 0x3F3F3F
  | .pwrDroop _ => 0xFFFFFFFF

/-- The ports that the router at node 12y + x has (R263–R265): the mesh ports that the edge leaves, and the local ports
to which agents attach. Coded 0 N, 1 E, 2 S, 3 W, 4 L0, 5 L1. -/
def Reg.routerPorts (plane node : Nat) : Nat :=
  let x := node % 12
  let y := node / 12
  let facet := (x = 0 ∨ x = 11) ∧ y % 2 = plane % 2
  let slice := (x = 1 ∨ x = 2 ∨ x = 4 ∨ x = 5 ∨ x = 6 ∨ x = 7 ∨ x = 9 ∨ x = 10) ∧ ((1 ≤ y ∧ y ≤ 4) ∨ (7 ≤ y ∧ y ≤ 10))
  let rc := (y = 5 ∨ y = 6) ∧ (x = 1 ∨ x = 4 ∨ x = 7 ∨ x = 10)
  let centre := (x = 5 ∨ x = 6) ∧ (y = 5 ∨ y = 6)
  let dump := x = 3 ∧ y = 5
  let hbm := (y = 0 ∨ y = 11) ∧ (x = 0 ∨ x = 2 ∨ x = 3 ∨ x = 5 ∨ x = 6 ∨ x = 8 ∨ x = 9 ∨ x = 11)
  (if y = 0 then 0 else 1) + (if x = 11 then 0 else 2) + (if y = 11 then 0 else 4) + (if x = 0 then 0 else 8)
    + (if facet ∨ slice ∨ rc ∨ centre ∨ dump then 16 else 0) + (if hbm then 32 else 0)


/-- The reset value (R5): the field table's Reset column. -/
def Reg.reset : Reg → Word
  | .coreExecCtl _ => 0x7
  | .cluL2Ctl _ => 0x1
  | .cluSmplCtl _ => 0x8
  | .fctTickStatus _ => 0xE
  | .fctChdRemap _ => 0xB646D2240
  | .fctArbClassA _ => 0x55555555
  | .fctArbClassB _ => 0x55555555
  | .fctArbCfg _ => 0x1000040
  | .chdStrandCtl _ _ => 0x4
  | .netRtrCtl p r => BitVec.ofNat 64 (Reg.routerPorts p.val r.val)
  | .netArbCfg _ _ => 0x1000040
  | .netArbClassA _ _ => 0x55555555
  | .netArbClassB _ _ => 0x55555555
  | .l3sArbClassA _ => 0x55555555
  | .l3sArbClassB _ => 0x55555555
  | .l3sArbCfg _ => 0x1000040
  | .hbmSchedCfg _ _ => 0x4301020
  | .hbmRasCfg _ _ => 0x3E82001AD201
  | .hbmPort _ _ t => if t.val = 64 then 0x107D else 0x7D
  | .hbmLpcA _ k => BitVec.ofNat 64 k.val
  | .hbmLpcB _ k => BitVec.ofNat 64 k.val
  | .pciArbClassA _ => 0x55555555
  | .pciArbClassB _ => 0x55555555
  | .pciArbCfg _ => 0x1000040
  | .pscDeviceId => 0xD8080C00 ||| Config.stepping.setWidth 64
  | .pscMctpVid => Config.mctpVid.setWidth 64
  | .pscBootStatus => 0x1 ||| (BitVec.ofNat 64 Config.lifeCycleFuse.val <<< 5)
  | .pscRingCtl _ => 0x840
  | .pscRingPos _ => 0x100000000
  | .pscRingStatus _ => 0x80000
  | .mtrId => Config.mtrFwVer.setWidth 64 ||| (Config.mtrChecksum.setWidth 64 <<< 16)
  | .mtrStatus => 0x100 ||| boolWord Config.meterSealFuse
  | .locLaneMap _ => 0x3FFFFFFFFFFFF
  | .pwrCtl _ => 0xC
  | .pwrStatus d => if d.val < 252 then 3 else 0
  | .pwrPerf d => if 216 ≤ d.val ∧ d.val < 252 then 0x1D0A22 else 0
  | _ => 0

/-- An index below its bound. -/
def Reg.fin? (n k : Nat) : Option (Fin n) := if h : k < n then some ⟨k, h⟩ else none

/-- A reading that holds under a condition. -/
def Reg.guarded (c : Prop) [Decidable c] (r : Option Reg) : Option Reg := if c then r else none

/-- The first reading that gives a register. -/
def Reg.orElse : Option Reg → Option Reg → Option Reg
  | some r, _ => some r
  | none, r => r

/-- The register of block CORE at the offset `o` from its base (R15). -/
def Reg.inCore (o : Nat) : Option Reg :=
  Reg.orElse (Reg.guarded (0x40 ≤ o ∧ ((o - 0x40) % 0x10000) = 0) ((Reg.fin? 216 ((o - 0x40) / 0x10000)).bind fun i0 => some (.coreExecCtl i0))) (
  Reg.orElse (Reg.guarded (0x100 ≤ o ∧ ((o - 0x100) % 0x10000) = 0) ((Reg.fin? 216 ((o - 0x100) / 0x10000)).bind fun i0 => some (.coreIntAckO i0))) (
  Reg.orElse (Reg.guarded (0x108 ≤ o ∧ ((o - 0x108) % 0x10000) = 0) ((Reg.fin? 216 ((o - 0x108) / 0x10000)).bind fun i0 => some (.coreIntAckI i0))) (
  Reg.orElse (Reg.guarded (0x180 ≤ o ∧ ((o - 0x180) % 0x10000) = 0) ((Reg.fin? 216 ((o - 0x180) / 0x10000)).bind fun i0 => some (.coreDbgCtl i0))) (
  Reg.orElse (Reg.guarded (0x200 ≤ o ∧ (((o - 0x200) % 0x10000) % 0x10) = 0) ((Reg.fin? 216 ((o - 0x200) / 0x10000)).bind fun i0 => (Reg.fin? 16 (((o - 0x200) % 0x10000) / 0x10)).bind fun i1 => some (.coreBpAddr i0 i1))) (
  Reg.orElse (Reg.guarded (0x208 ≤ o ∧ (((o - 0x208) % 0x10000) % 0x10) = 0) ((Reg.fin? 216 ((o - 0x208) / 0x10000)).bind fun i0 => (Reg.fin? 16 (((o - 0x208) % 0x10000) / 0x10)).bind fun i1 => some (.coreBpCtl i0 i1))) (
  none))))))

/-- The register of block CLU at the offset `o` from its base (R15). -/
def Reg.inClu (o : Nat) : Option Reg :=
  Reg.orElse (Reg.guarded (0x10 ≤ o ∧ ((o - 0x10) % 0x10000) = 0) ((Reg.fin? 36 ((o - 0x10) / 0x10000)).bind fun i0 => some (.cluOwner i0))) (
  Reg.orElse (Reg.guarded (0x20 ≤ o ∧ ((o - 0x20) % 0x10000) = 0) ((Reg.fin? 36 ((o - 0x20) / 0x10000)).bind fun i0 => some (.cluL2Ctl i0))) (
  Reg.orElse (Reg.guarded (0x28 ≤ o ∧ ((o - 0x28) % 0x10000) = 0) ((Reg.fin? 36 ((o - 0x28) / 0x10000)).bind fun i0 => some (.cluL2Lock i0))) (
  Reg.orElse (Reg.guarded (0x30 ≤ o ∧ ((o - 0x30) % 0x10000) = 0) ((Reg.fin? 36 ((o - 0x30) / 0x10000)).bind fun i0 => some (.cluL2Lockmiss i0))) (
  Reg.orElse (Reg.guarded (0x40 ≤ o ∧ ((o - 0x40) % 0x10000) = 0) ((Reg.fin? 36 ((o - 0x40) / 0x10000)).bind fun i0 => some (.cluSmplBase i0))) (
  Reg.orElse (Reg.guarded (0x48 ≤ o ∧ ((o - 0x48) % 0x10000) = 0) ((Reg.fin? 36 ((o - 0x48) / 0x10000)).bind fun i0 => some (.cluSmplCtl i0))) (
  Reg.orElse (Reg.guarded (0x4C ≤ o ∧ ((o - 0x4C) % 0x10000) = 0) ((Reg.fin? 36 ((o - 0x4C) / 0x10000)).bind fun i0 => some (.cluSmplHead i0))) (
  Reg.orElse (Reg.guarded (0x50 ≤ o ∧ ((o - 0x50) % 0x10000) = 0) ((Reg.fin? 36 ((o - 0x50) / 0x10000)).bind fun i0 => some (.cluSmplPos i0))) (
  none))))))))

/-- The register of block FCT at the offset `o` from its base (R15). -/
def Reg.inFct (o : Nat) : Option Reg :=
  Reg.orElse (Reg.guarded (0x300 ≤ o ∧ ((o - 0x300) % 0x10000) = 0) ((Reg.fin? 12 ((o - 0x300) / 0x10000)).bind fun i0 => some (.fctTickStatus i0))) (
  Reg.orElse (Reg.guarded (0x400 ≤ o ∧ ((o - 0x400) % 0x10000) = 0) ((Reg.fin? 12 ((o - 0x400) / 0x10000)).bind fun i0 => some (.fctRteSel i0))) (
  Reg.orElse (Reg.guarded (0x408 ≤ o ∧ ((o - 0x408) % 0x10000) = 0) ((Reg.fin? 12 ((o - 0x408) / 0x10000)).bind fun i0 => some (.fctRteData i0))) (
  Reg.orElse (Reg.guarded (0x500 ≤ o ∧ ((o - 0x500) % 0x10000) = 0) ((Reg.fin? 12 ((o - 0x500) / 0x10000)).bind fun i0 => some (.fctChdRemap i0))) (
  Reg.orElse (Reg.guarded (0x600 ≤ o ∧ ((o - 0x600) % 0x10000) = 0) ((Reg.fin? 12 ((o - 0x600) / 0x10000)).bind fun i0 => some (.fctArbClassA i0))) (
  Reg.orElse (Reg.guarded (0x604 ≤ o ∧ ((o - 0x604) % 0x10000) = 0) ((Reg.fin? 12 ((o - 0x604) / 0x10000)).bind fun i0 => some (.fctArbClassB i0))) (
  Reg.orElse (Reg.guarded (0x608 ≤ o ∧ ((o - 0x608) % 0x10000) = 0) ((Reg.fin? 12 ((o - 0x608) / 0x10000)).bind fun i0 => some (.fctArbCfg i0))) (
  none)))))))

/-- The register of block CHD at the offset `o` from its base (R15). -/
def Reg.inChd (o : Nat) : Option Reg :=
  Reg.orElse (Reg.guarded (((o % 0x10000) % 0x2000) = 0) ((Reg.fin? 12 (o / 0x10000)).bind fun i0 => (Reg.fin? 6 ((o % 0x10000) / 0x2000)).bind fun i1 => some (.chdStrandCtl i0 i1))) (
  Reg.orElse (Reg.guarded (0x8 ≤ o ∧ (((o - 0x8) % 0x10000) % 0x2000) = 0) ((Reg.fin? 12 ((o - 0x8) / 0x10000)).bind fun i0 => (Reg.fin? 6 (((o - 0x8) % 0x10000) / 0x2000)).bind fun i1 => some (.chdStrandStatus i0 i1))) (
  Reg.orElse (Reg.guarded (0x10 ≤ o ∧ (((o - 0x10) % 0x10000) % 0x2000) = 0) ((Reg.fin? 12 ((o - 0x10) / 0x10000)).bind fun i0 => (Reg.fin? 6 (((o - 0x10) % 0x10000) / 0x2000)).bind fun i1 => some (.chdStrandErr i0 i1))) (
  Reg.orElse (Reg.guarded (0x100 ≤ o ∧ ((((o - 0x100) % 0x10000) % 0x2000) % 0x4) = 0) ((Reg.fin? 12 ((o - 0x100) / 0x10000)).bind fun i0 => (Reg.fin? 6 (((o - 0x100) % 0x10000) / 0x2000)).bind fun i1 => (Reg.fin? 50 ((((o - 0x100) % 0x10000) % 0x2000) / 0x4)).bind fun i2 => some (.chdEye i0 i1 i2))) (
  none))))

/-- The register of block NET at the offset `o` from its base (R15). -/
def Reg.inNet (o : Nat) : Option Reg :=
  Reg.orElse (Reg.guarded (((o % 0x90000) % 0x1000) = 0) ((Reg.fin? 12 (o / 0x90000)).bind fun i0 => (Reg.fin? 144 ((o % 0x90000) / 0x1000)).bind fun i1 => some (.netRtrCtl i0 i1))) (
  Reg.orElse (Reg.guarded (0x4 ≤ o ∧ (((o - 0x4) % 0x90000) % 0x1000) = 0) ((Reg.fin? 12 ((o - 0x4) / 0x90000)).bind fun i0 => (Reg.fin? 144 (((o - 0x4) % 0x90000) / 0x1000)).bind fun i1 => some (.netInflight i0 i1))) (
  Reg.orElse (Reg.guarded (0x8 ≤ o ∧ (((o - 0x8) % 0x90000) % 0x1000) = 0) ((Reg.fin? 12 ((o - 0x8) / 0x90000)).bind fun i0 => (Reg.fin? 144 (((o - 0x8) % 0x90000) / 0x1000)).bind fun i1 => some (.netArbCfg i0 i1))) (
  Reg.orElse (Reg.guarded (0x10 ≤ o ∧ (((o - 0x10) % 0x90000) % 0x1000) = 0) ((Reg.fin? 12 ((o - 0x10) / 0x90000)).bind fun i0 => (Reg.fin? 144 (((o - 0x10) % 0x90000) / 0x1000)).bind fun i1 => some (.netArbClassA i0 i1))) (
  Reg.orElse (Reg.guarded (0x14 ≤ o ∧ (((o - 0x14) % 0x90000) % 0x1000) = 0) ((Reg.fin? 12 ((o - 0x14) / 0x90000)).bind fun i0 => (Reg.fin? 144 (((o - 0x14) % 0x90000) / 0x1000)).bind fun i1 => some (.netArbClassB i0 i1))) (
  Reg.orElse (Reg.guarded (0x20 ≤ o ∧ ((((o - 0x20) % 0x90000) % 0x1000) % 0x8) = 0) ((Reg.fin? 12 ((o - 0x20) / 0x90000)).bind fun i0 => (Reg.fin? 144 (((o - 0x20) % 0x90000) / 0x1000)).bind fun i1 => (Reg.fin? 7 ((((o - 0x20) % 0x90000) % 0x1000) / 0x8)).bind fun i2 => some (.netLinkErr i0 i1 i2))) (
  Reg.orElse (Reg.guarded (0x100 ≤ o ∧ (((((o - 0x100) % 0x90000) % 0x1000) % 0x80) % 0x4) = 0) ((Reg.fin? 12 ((o - 0x100) / 0x90000)).bind fun i0 => (Reg.fin? 144 (((o - 0x100) % 0x90000) / 0x1000)).bind fun i1 => (Reg.fin? 7 ((((o - 0x100) % 0x90000) % 0x1000) / 0x80)).bind fun i2 => (Reg.fin? 32 (((((o - 0x100) % 0x90000) % 0x1000) % 0x80) / 0x4)).bind fun i3 => some (.netSlotA i0 i1 i2 i3))) (
  Reg.orElse (Reg.guarded (0x500 ≤ o ∧ (((((o - 0x500) % 0x90000) % 0x1000) % 0x80) % 0x4) = 0) ((Reg.fin? 12 ((o - 0x500) / 0x90000)).bind fun i0 => (Reg.fin? 144 (((o - 0x500) % 0x90000) / 0x1000)).bind fun i1 => (Reg.fin? 7 ((((o - 0x500) % 0x90000) % 0x1000) / 0x80)).bind fun i2 => (Reg.fin? 32 (((((o - 0x500) % 0x90000) % 0x1000) % 0x80) / 0x4)).bind fun i3 => some (.netSlotB i0 i1 i2 i3))) (
  Reg.orElse (Reg.guarded (0xC00 ≤ o ∧ (((o - 0xC00) % 0x90000) % 0x1000) = 0) ((Reg.fin? 12 ((o - 0xC00) / 0x90000)).bind fun i0 => (Reg.fin? 144 (((o - 0xC00) % 0x90000) / 0x1000)).bind fun i1 => some (.netRteSel i0 i1))) (
  Reg.orElse (Reg.guarded (0xC08 ≤ o ∧ (((o - 0xC08) % 0x90000) % 0x1000) = 0) ((Reg.fin? 12 ((o - 0xC08) / 0x90000)).bind fun i0 => (Reg.fin? 144 (((o - 0xC08) % 0x90000) / 0x1000)).bind fun i1 => some (.netRteData i0 i1))) (
  none))))))))))

/-- The register of block L3S at the offset `o` from its base (R15). -/
def Reg.inL3s (o : Nat) : Option Reg :=
  Reg.orElse (Reg.guarded (0x100 ≤ o ∧ (((o - 0x100) % 0x10000) % 0x8) = 0) ((Reg.fin? 64 ((o - 0x100) / 0x10000)).bind fun i0 => (Reg.fin? 16 (((o - 0x100) % 0x10000) / 0x8)).bind fun i1 => some (.l3sWaymaskA i0 i1))) (
  Reg.orElse (Reg.guarded (0x180 ≤ o ∧ (((o - 0x180) % 0x10000) % 0x8) = 0) ((Reg.fin? 64 ((o - 0x180) / 0x10000)).bind fun i0 => (Reg.fin? 16 (((o - 0x180) % 0x10000) / 0x8)).bind fun i1 => some (.l3sWaymaskB i0 i1))) (
  Reg.orElse (Reg.guarded (0x200 ≤ o ∧ ((o - 0x200) % 0x10000) = 0) ((Reg.fin? 64 ((o - 0x200) / 0x10000)).bind fun i0 => some (.l3sArbClassA i0))) (
  Reg.orElse (Reg.guarded (0x204 ≤ o ∧ ((o - 0x204) % 0x10000) = 0) ((Reg.fin? 64 ((o - 0x204) / 0x10000)).bind fun i0 => some (.l3sArbClassB i0))) (
  Reg.orElse (Reg.guarded (0x208 ≤ o ∧ ((o - 0x208) % 0x10000) = 0) ((Reg.fin? 64 ((o - 0x208) / 0x10000)).bind fun i0 => some (.l3sArbCfg i0))) (
  none)))))

/-- The register of block HBM at the offset `o` from its base (R15). -/
def Reg.inHbm (o : Nat) : Option Reg :=
  Reg.orElse (Reg.guarded (((o % 0x200000) % 0x10000) = 0) ((Reg.fin? 8 (o / 0x200000)).bind fun i0 => (Reg.fin? 16 ((o % 0x200000) / 0x10000)).bind fun i1 => some (.hbmSchedCfg i0 i1))) (
  Reg.orElse (Reg.guarded (0x10 ≤ o ∧ (((o - 0x10) % 0x200000) % 0x10000) = 0) ((Reg.fin? 8 ((o - 0x10) / 0x200000)).bind fun i0 => (Reg.fin? 16 (((o - 0x10) % 0x200000) / 0x10000)).bind fun i1 => some (.hbmRasCfg i0 i1))) (
  Reg.orElse (Reg.guarded (0x100 ≤ o ∧ ((((o - 0x100) % 0x200000) % 0x10000) % 0x8) = 0) ((Reg.fin? 8 ((o - 0x100) / 0x200000)).bind fun i0 => (Reg.fin? 16 (((o - 0x100) % 0x200000) / 0x10000)).bind fun i1 => (Reg.fin? 2 ((((o - 0x100) % 0x200000) % 0x10000) / 0x8)).bind fun i2 => some (.hbmPcErr i0 i1 i2))) (
  Reg.orElse (Reg.guarded (0x200 ≤ o ∧ (((((o - 0x200) % 0x200000) % 0x10000) % 0x40) % 0x4) = 0) ((Reg.fin? 8 ((o - 0x200) / 0x200000)).bind fun i0 => (Reg.fin? 16 (((o - 0x200) % 0x200000) / 0x10000)).bind fun i1 => (Reg.fin? 2 ((((o - 0x200) % 0x200000) % 0x10000) / 0x40)).bind fun i2 => (Reg.fin? 16 (((((o - 0x200) % 0x200000) % 0x10000) % 0x40) / 0x4)).bind fun i3 => some (.hbmRemap i0 i1 i2 i3))) (
  Reg.orElse (Reg.guarded (0x400 ≤ o ∧ ((((o - 0x400) % 0x200000) % 0x10000) % 0x8) = 0) ((Reg.fin? 8 ((o - 0x400) / 0x200000)).bind fun i0 => (Reg.fin? 16 (((o - 0x400) % 0x200000) / 0x10000)).bind fun i1 => (Reg.fin? 65 ((((o - 0x400) % 0x200000) % 0x10000) / 0x8)).bind fun i2 => some (.hbmPort i0 i1 i2))) (
  Reg.orElse (Reg.guarded (0x100000 ≤ o ∧ ((o - 0x100000) % 0x200000) = 0) ((Reg.fin? 8 ((o - 0x100000) / 0x200000)).bind fun i0 => some (.hbmPhyStatus i0))) (
  Reg.orElse (Reg.guarded (0x100040 ≤ o ∧ ((o - 0x100040) % 0x200000) = 0) ((Reg.fin? 8 ((o - 0x100040) / 0x200000)).bind fun i0 => some (.hbmMig i0))) (
  Reg.orElse (Reg.guarded (0x100100 ≤ o ∧ (((o - 0x100100) % 0x200000) % 0x4) = 0) ((Reg.fin? 8 ((o - 0x100100) / 0x200000)).bind fun i0 => (Reg.fin? 32 (((o - 0x100100) % 0x200000) / 0x4)).bind fun i1 => some (.hbmLpcA i0 i1))) (
  Reg.orElse (Reg.guarded (0x100180 ≤ o ∧ (((o - 0x100180) % 0x200000) % 0x4) = 0) ((Reg.fin? 8 ((o - 0x100180) / 0x200000)).bind fun i0 => (Reg.fin? 32 (((o - 0x100180) % 0x200000) / 0x4)).bind fun i1 => some (.hbmLpcB i0 i1))) (
  none)))))))))

/-- The register of block PCI at the offset `o` from its base (R15). -/
def Reg.inPci (o : Nat) : Option Reg :=
  Reg.orElse (Reg.guarded ((o % 0x100000) = 0) ((Reg.fin? 8 (o / 0x100000)).bind fun i0 => some (.pciCfg i0))) (
  Reg.orElse (Reg.guarded (0x20 ≤ o ∧ ((o - 0x20) % 0x100000) = 0) ((Reg.fin? 8 ((o - 0x20) / 0x100000)).bind fun i0 => some (.pciArbClassA i0))) (
  Reg.orElse (Reg.guarded (0x24 ≤ o ∧ ((o - 0x24) % 0x100000) = 0) ((Reg.fin? 8 ((o - 0x24) / 0x100000)).bind fun i0 => some (.pciArbClassB i0))) (
  Reg.orElse (Reg.guarded (0x28 ≤ o ∧ ((o - 0x28) % 0x100000) = 0) ((Reg.fin? 8 ((o - 0x28) / 0x100000)).bind fun i0 => some (.pciArbCfg i0))) (
  Reg.orElse (Reg.guarded (0x100 ≤ o ∧ (((o - 0x100) % 0x100000) % 0x4) = 0) ((Reg.fin? 8 ((o - 0x100) / 0x100000)).bind fun i0 => (Reg.fin? 4 (((o - 0x100) % 0x100000) / 0x4)).bind fun i1 => some (.pciPortOwnerA i0 i1))) (
  Reg.orElse (Reg.guarded (0x110 ≤ o ∧ (((o - 0x110) % 0x100000) % 0x4) = 0) ((Reg.fin? 8 ((o - 0x110) / 0x100000)).bind fun i0 => (Reg.fin? 4 (((o - 0x110) % 0x100000) / 0x4)).bind fun i1 => some (.pciPortOwnerB i0 i1))) (
  Reg.orElse (Reg.guarded (0x200 ≤ o ∧ (((o - 0x200) % 0x100000) % 0x8) = 0) ((Reg.fin? 8 ((o - 0x200) / 0x100000)).bind fun i0 => (Reg.fin? 4 (((o - 0x200) % 0x100000) / 0x8)).bind fun i1 => some (.pciPortStatus i0 i1))) (
  none)))))))

/-- The register of block IOT at the offset `o` from its base (R15). -/
def Reg.inIot (o : Nat) : Option Reg :=
  Reg.orElse (Reg.guarded ((o % 0x100000) = 0) ((Reg.fin? 16 (o / 0x100000)).bind fun i0 => some (.iotCtxRootO i0))) (
  Reg.orElse (Reg.guarded (0x8 ≤ o ∧ ((o - 0x8) % 0x100000) = 0) ((Reg.fin? 16 ((o - 0x8) / 0x100000)).bind fun i0 => some (.iotCtxRootI i0))) (
  Reg.orElse (Reg.guarded (0x10 ≤ o ∧ ((o - 0x10) % 0x100000) = 0) ((Reg.fin? 16 ((o - 0x10) / 0x100000)).bind fun i0 => some (.iotInvCmd i0))) (
  Reg.orElse (Reg.guarded (0x18 ≤ o ∧ ((o - 0x18) % 0x100000) = 0) ((Reg.fin? 16 ((o - 0x18) / 0x100000)).bind fun i0 => some (.iotInvAddr i0))) (
  Reg.orElse (Reg.guarded (0x20 ≤ o ∧ ((o - 0x20) % 0x100000) = 0) ((Reg.fin? 16 ((o - 0x20) / 0x100000)).bind fun i0 => some (.iotInvStatus i0))) (
  Reg.orElse (Reg.guarded (0x48 ≤ o ∧ ((o - 0x48) % 0x100000) = 0) ((Reg.fin? 16 ((o - 0x48) / 0x100000)).bind fun i0 => some (.iotFaultInt i0))) (
  Reg.orElse (Reg.guarded (0x50 ≤ o ∧ ((o - 0x50) % 0x100000) = 0) ((Reg.fin? 16 ((o - 0x50) / 0x100000)).bind fun i0 => some (.iotFaultLo i0))) (
  Reg.orElse (Reg.guarded (0x58 ≤ o ∧ ((o - 0x58) % 0x100000) = 0) ((Reg.fin? 16 ((o - 0x58) / 0x100000)).bind fun i0 => some (.iotFaultHi i0))) (
  none))))))))

/-- The register of block IRD at the offset `o` from its base (R15). -/
def Reg.inIrd (o : Nat) : Option Reg :=
  Reg.orElse (Reg.guarded (0x8 ≤ o ∧ ((o - 0x8) % 0x100000) = 0) ((Reg.fin? 16 ((o - 0x8) / 0x100000)).bind fun i0 => some (.irdIpi i0))) (
  Reg.orElse (Reg.guarded (0x1000 ≤ o ∧ (((o - 0x1000) % 0x100000) % 0x4) = 0) ((Reg.fin? 16 ((o - 0x1000) / 0x100000)).bind fun i0 => (Reg.fin? 2048 (((o - 0x1000) % 0x100000) / 0x4)).bind fun i1 => some (.irdRoute i0 i1))) (
  none))

/-- The register of block DRT at the offset `o` from its base (R15). -/
def Reg.inDrt (o : Nat) : Option Reg :=
  Reg.orElse (Reg.guarded (((o % 0x1000) % 0x10) = 0) ((Reg.fin? 16 (o / 0x1000)).bind fun i0 => (Reg.fin? 64 ((o % 0x1000) / 0x10)).bind fun i1 => some (.drtRegionLo i0 i1))) (
  Reg.orElse (Reg.guarded (0x8 ≤ o ∧ (((o - 0x8) % 0x1000) % 0x10) = 0) ((Reg.fin? 16 ((o - 0x8) / 0x1000)).bind fun i0 => (Reg.fin? 64 (((o - 0x8) % 0x1000) / 0x10)).bind fun i1 => some (.drtRegionHi i0 i1))) (
  Reg.orElse (Reg.guarded (0x400 ≤ o ∧ ((o - 0x400) % 0x1000) = 0) ((Reg.fin? 16 ((o - 0x400) / 0x1000)).bind fun i0 => some (.drtCtl i0))) (
  none)))

/-- The register of block GMAP at the offset `o` from its base (R15). -/
def Reg.inGmap (o : Nat) : Option Reg :=
  Reg.orElse (Reg.guarded ((o % 0x8) = 0) ((Reg.fin? 4096 (o / 0x8)).bind fun i0 => some (.gmapEntryA i0))) (
  Reg.orElse (Reg.guarded (0x8000 ≤ o ∧ ((o - 0x8000) % 0x8) = 0) ((Reg.fin? 4096 ((o - 0x8000) / 0x8)).bind fun i0 => some (.gmapEntryB i0))) (
  Reg.orElse (Reg.guarded (0x10000 ≤ o ∧ (o - 0x10000) = 0) (some (.gmapStatus))) (
  none)))

/-- The register of block CTR at the offset `o` from its base (R15). -/
def Reg.inCtr (o : Nat) : Option Reg :=
  Reg.orElse (Reg.guarded ((o % 0x10000) = 0) ((Reg.fin? 16 (o / 0x10000)).bind fun i0 => some (.ctrStatus i0))) (
  none)

/-- The register of block PSC at the offset `o` from its base (R15). -/
def Reg.inPsc (o : Nat) : Option Reg :=
  Reg.orElse (Reg.guarded (o = 0) (some (.pscDeviceId))) (
  Reg.orElse (Reg.guarded (0x8 ≤ o ∧ (o - 0x8) = 0) (some (.pscMctpVid))) (
  Reg.orElse (Reg.guarded (0x10 ≤ o ∧ (o - 0x10) = 0) (some (.pscBootStatus))) (
  Reg.orElse (Reg.guarded (0x1000 ≤ o ∧ ((o - 0x1000) % 0x1000) = 0) ((Reg.fin? 16 ((o - 0x1000) / 0x1000)).bind fun i0 => some (.pscSqBase i0))) (
  Reg.orElse (Reg.guarded (0x1008 ≤ o ∧ ((o - 0x1008) % 0x1000) = 0) ((Reg.fin? 16 ((o - 0x1008) / 0x1000)).bind fun i0 => some (.pscCqBase i0))) (
  Reg.orElse (Reg.guarded (0x1010 ≤ o ∧ ((o - 0x1010) % 0x1000) = 0) ((Reg.fin? 16 ((o - 0x1010) / 0x1000)).bind fun i0 => some (.pscRingCtl i0))) (
  Reg.orElse (Reg.guarded (0x1018 ≤ o ∧ ((o - 0x1018) % 0x1000) = 0) ((Reg.fin? 16 ((o - 0x1018) / 0x1000)).bind fun i0 => some (.pscSqTail i0))) (
  Reg.orElse (Reg.guarded (0x101C ≤ o ∧ ((o - 0x101C) % 0x1000) = 0) ((Reg.fin? 16 ((o - 0x101C) / 0x1000)).bind fun i0 => some (.pscCqHead i0))) (
  Reg.orElse (Reg.guarded (0x1020 ≤ o ∧ ((o - 0x1020) % 0x1000) = 0) ((Reg.fin? 16 ((o - 0x1020) / 0x1000)).bind fun i0 => some (.pscRingPos i0))) (
  Reg.orElse (Reg.guarded (0x1028 ≤ o ∧ ((o - 0x1028) % 0x1000) = 0) ((Reg.fin? 16 ((o - 0x1028) / 0x1000)).bind fun i0 => some (.pscRingStatus i0))) (
  Reg.orElse (Reg.guarded (0x1030 ≤ o ∧ ((o - 0x1030) % 0x1000) = 0) ((Reg.fin? 16 ((o - 0x1030) / 0x1000)).bind fun i0 => some (.pscRingCnt i0))) (
  Reg.orElse (Reg.guarded (0x1080 ≤ o ∧ ((o - 0x1080) % 0x1000) = 0) ((Reg.fin? 16 ((o - 0x1080) / 0x1000)).bind fun i0 => some (.pscPartStatus i0))) (
  Reg.orElse (Reg.guarded (0x1088 ≤ o ∧ ((o - 0x1088) % 0x1000) = 0) ((Reg.fin? 16 ((o - 0x1088) / 0x1000)).bind fun i0 => some (.pscPartWm i0))) (
  Reg.orElse (Reg.guarded (0x1090 ≤ o ∧ ((o - 0x1090) % 0x1000) = 0) ((Reg.fin? 16 ((o - 0x1090) / 0x1000)).bind fun i0 => some (.pscDbgCtl i0))) (
  Reg.orElse (Reg.guarded (0x1098 ≤ o ∧ ((o - 0x1098) % 0x1000) = 0) ((Reg.fin? 16 ((o - 0x1098) / 0x1000)).bind fun i0 => some (.pscWakeCause i0))) (
  Reg.orElse (Reg.guarded (0x10A0 ≤ o ∧ ((o - 0x10A0) % 0x1000) = 0) ((Reg.fin? 16 ((o - 0x10A0) / 0x1000)).bind fun i0 => some (.pscRasCtl i0))) (
  Reg.orElse (Reg.guarded (0x10A8 ≤ o ∧ ((o - 0x10A8) % 0x1000) = 0) ((Reg.fin? 16 ((o - 0x10A8) / 0x1000)).bind fun i0 => some (.pscStartCtl i0))) (
  none)))))))))))))))))

/-- The register of block MTR at the offset `o` from its base (R15). -/
def Reg.inMtr (o : Nat) : Option Reg :=
  Reg.orElse (Reg.guarded (o = 0) (some (.mtrId))) (
  Reg.orElse (Reg.guarded (0x8 ≤ o ∧ (o - 0x8) = 0) (some (.mtrStatus))) (
  Reg.orElse (Reg.guarded (0x10 ≤ o ∧ (o - 0x10) = 0) (some (.mtrChFailLo))) (
  Reg.orElse (Reg.guarded (0x18 ≤ o ∧ (o - 0x18) = 0) (some (.mtrChFailHi))) (
  Reg.orElse (Reg.guarded (0x20 ≤ o ∧ (o - 0x20) = 0) (some (.mtrLedgerTick))) (
  Reg.orElse (Reg.guarded (0x28 ≤ o ∧ (o - 0x28) = 0) (some (.mtrEntryFlags))) (
  Reg.orElse (Reg.guarded (0x30 ≤ o ∧ (o - 0x30) = 0) (some (.mtrTotal))) (
  Reg.orElse (Reg.guarded (0x100 ≤ o ∧ ((o - 0x100) % 0x8) = 0) ((Reg.fin? 19 ((o - 0x100) / 0x8)).bind fun i0 => some (.mtrLedger i0))) (
  none))))))))

/-- The register of block LOC at the offset `o` from its base (R15). -/
def Reg.inLoc (o : Nat) : Option Reg :=
  Reg.orElse (Reg.guarded (o = 0) (some (.locTickNum))) (
  Reg.orElse (Reg.guarded (0x8 ≤ o ∧ (o - 0x8) = 0) (some (.locTimeOfs))) (
  Reg.orElse (Reg.guarded (0x10 ≤ o ∧ (o - 0x10) = 0) (some (.locTickStatus))) (
  Reg.orElse (Reg.guarded (0x18 ≤ o ∧ (o - 0x18) = 0) (some (.locSwapReq))) (
  Reg.orElse (Reg.guarded (0x1C ≤ o ∧ (o - 0x1C) = 0) (some (.locTickOvr))) (
  Reg.orElse (Reg.guarded (0x20 ≤ o ∧ (o - 0x20) = 0) (some (.locSwapTick))) (
  Reg.orElse (Reg.guarded (0x40 ≤ o ∧ (o - 0x40) = 0) (some (.locFatalCause))) (
  Reg.orElse (Reg.guarded (0x48 ≤ o ∧ (o - 0x48) = 0) (some (.locRailStatus))) (
  Reg.orElse (Reg.guarded (0x1000 ≤ o ∧ ((o - 0x1000) % 0x8) = 0) ((Reg.fin? 72 ((o - 0x1000) / 0x8)).bind fun i0 => some (.locLaneMap i0))) (
  none)))))))))

/-- The register of block BBX at the offset `o` from its base (R15). -/
def Reg.inBbx (o : Nat) : Option Reg :=
  Reg.orElse (Reg.guarded (o = 0) (some (.bbxStatus))) (
  Reg.orElse (Reg.guarded (0x8 ≤ o ∧ (o - 0x8) = 0) (some (.bbxLost))) (
  none))

/-- The register of block PWR at the offset `o` from its base (R15). -/
def Reg.inPwr (o : Nat) : Option Reg :=
  Reg.orElse (Reg.guarded ((o % 0x1000) = 0) ((Reg.fin? 296 (o / 0x1000)).bind fun i0 => some (.pwrCtl i0))) (
  Reg.orElse (Reg.guarded (0x8 ≤ o ∧ ((o - 0x8) % 0x1000) = 0) ((Reg.fin? 296 ((o - 0x8) / 0x1000)).bind fun i0 => some (.pwrStatus i0))) (
  Reg.orElse (Reg.guarded (0x10 ≤ o ∧ ((o - 0x10) % 0x1000) = 0) ((Reg.fin? 296 ((o - 0x10) / 0x1000)).bind fun i0 => some (.pwrPerf i0))) (
  Reg.orElse (Reg.guarded (0xD8018 ≤ o ∧ ((o - 0xD8018) % 0x1000) = 0) ((Reg.fin? 36 ((o - 0xD8018) / 0x1000)).bind fun i0 => some (.pwrDroop i0))) (
  none))))

/-- The register at a PRS address, if one lies there (R2, R15). -/
def Reg.ofAddr (a : Nat) : Option Reg :=
  if 0x0E000000 ≤ a then Reg.inPwr (a - 0x0E000000) else
  if 0x0D000000 ≤ a then Reg.inBbx (a - 0x0D000000) else
  if 0x0C000000 ≤ a then Reg.inLoc (a - 0x0C000000) else
  if 0x0B000000 ≤ a then Reg.inMtr (a - 0x0B000000) else
  if 0x0A000000 ≤ a then Reg.inPsc (a - 0x0A000000) else
  if 0x09000000 ≤ a then Reg.inCtr (a - 0x09000000) else
  if 0x08100000 ≤ a then Reg.inGmap (a - 0x08100000) else
  if 0x08000000 ≤ a then Reg.inDrt (a - 0x08000000) else
  if 0x07000000 ≤ a then Reg.inIrd (a - 0x07000000) else
  if 0x06000000 ≤ a then Reg.inIot (a - 0x06000000) else
  if 0x05000000 ≤ a then Reg.inPci (a - 0x05000000) else
  if 0x04000000 ≤ a then Reg.inHbm (a - 0x04000000) else
  if 0x03000000 ≤ a then Reg.inL3s (a - 0x03000000) else
  if 0x02000000 ≤ a then Reg.inNet (a - 0x02000000) else
  if 0x01500000 ≤ a then Reg.inChd (a - 0x01500000) else
  if 0x01400000 ≤ a then Reg.inFct (a - 0x01400000) else
  if 0x01000000 ≤ a then Reg.inClu (a - 0x01000000) else
  Reg.inCore a

end Sys2Proof
end

