-- ==== Sys2Proof/Machine/Table.lean ====
section
/-! DEFINITION. Sparse tables: a list of (key, value) pairs in one canonical form, the keys strictly rising and no
entry equal to what an unlisted key holds.  Equal tables are equal lists. -/

namespace Sys2Proof.Machine

/-- A sparse table; an unlisted key holds the default its reader names. -/
abbrev Tbl (α : Type) := List (Nat × α)

/-- The value at a key. -/
def Tbl.get {α : Type} (d : α) : Tbl α → Nat → α
  | [], _ => d
  | (a, v) :: t, k => if k = a then v else Tbl.get d t k

/-- Remove a key. -/
def Tbl.del {α : Type} : Tbl α → Nat → Tbl α
  | [], _ => []
  | (a, v) :: t, k => if k = a then Tbl.del t k else (a, v) :: Tbl.del t k

/-- Put a value at a key whatever it is. -/
def Tbl.put {α : Type} : Tbl α → Nat → α → Tbl α
  | [], k, x => [(k, x)]
  | (a, v) :: t, k, x => if k = a then (k, x) :: t else if k < a then (k, x) :: (a, v) :: t else (a, v) :: Tbl.put t k x

/-- Write a key: a value equal to the default removes the entry. -/
def Tbl.set {α : Type} [DecidableEq α] (d : α) (t : Tbl α) (k : Nat) (x : α) : Tbl α :=
  if x = d then Tbl.del t k else Tbl.put t k x

/-- Every key of a list is above a bound, and the keys rise strictly. -/
def Tbl.rising {α : Type} : Nat → Tbl α → Bool
  | _, [] => true
  | b, (a, _) :: t => decide (b ≤ a) && Tbl.rising (a + 1) t

/-- The canonical form: keys strictly rising and no entry equal to its key's default. -/
def Tbl.wf {α : Type} [DecidableEq α] (d : Nat → α) (t : Tbl α) : Bool :=
  Tbl.rising 0 t && t.all fun e => decide (e.2 ≠ d e.1)

/-- Change every entry, and drop those that become the default. -/
def Tbl.mapVals {α : Type} [DecidableEq α] (d : α) (f : Nat → α → α) : Tbl α → Tbl α
  | [] => []
  | (a, v) :: t => Tbl.set d (Tbl.mapVals d f t) a (f a v)

end Sys2Proof.Machine
end

