-- ==== Sys2Proof/Machine/State.lean ====
section
/-! DEFINITION. The state of the block as plain data: every register, buffer, counter, mode and pin that the
specification gives the T216, and the queue of waiting commands. -/

namespace Sys2Proof.Machine

/-- The reasons for which the block stops with a fault.
`noSuchAddress`: raised by the operations over memory for a device address at which R47 places no byte; safe: the
model stops where the hardware has nothing to reach.
`reservedHeader`: raised by NET_PACKET_FORWARD for a header unit that passes its check and names a reserved VN, turn code or
LPORT, to which R268 and R272 give no effect; safe. -/
inductive Fault where
  | noSuchAddress (da : Nat)
  | reservedHeader
  deriving DecidableEq, Repr

/-- The reasons for which a command is refused.
`notModelled`: answered by the dispatch alone for a command without a meaning yet (there is none); safe. -/
inductive Refusal where
  | notModelled (mnemonic : String)
  deriving DecidableEq, Repr

/-! ## A core (R71–R80, R142, R150, R155–R172, R195, R208) -/

/-- A privilege level, PL0–PL3 (R62). -/
abbrev Level := Fin 4

/-- The four translation registers (R171): SYS_S1_ROOT, SYS_S1_CTL, SYS_S2_ROOT, SYS_S2_CTL. -/
structure TrRegs where
  s1Root : Word
  s1Ctl  : Word
  s2Root : Word
  s2Ctl  : Word
  deriving DecidableEq, Repr

/-- A committed store in the store queue (R107, R208): its PPA, size in bytes (1–8, or 64 for QSAVE and DC.ZERO, which take 8 entries
and leave together) and value, the memory type, and the world bit it carries. -/
structure SqEnt where
  ppa   : Nat
  size  : Nat
  data  : Line
  cacheable : Bool
  zero  : Bool
  inner : Bool
  deriving DecidableEq, Repr

/-- A committed device store in the device-store queue (R208, R209). -/
structure DqEnt where
  ppa    : Nat
  size   : Nat
  data   : Line
  issued : Bool
  inner  : Bool
  deriving DecidableEq, Repr

/-- A line in an L1 cache (R164): line number, way, world tag, streaming tag (R168), dirty mark. -/
structure L1Line where
  ln     : Nat
  way    : Nat
  inner  : Bool
  stream : Bool
  dirty  : Bool
  deriving DecidableEq, Repr

/-- A victim-cache entry (R167). -/
structure VcEnt where
  line : L1Line
  age  : Fin 4
  deriving DecidableEq, Repr

/-- A TLB entry (R169, R195): the tags, the input range in 4 KiB pages, the leaves of both stages, and the result
page. `stage` 1: stage 1 only; 2: stage 2 only; 3: combined. -/
structure TlbEnt where
  stage  : Nat
  asid   : Option (BitVec 16)
  space  : Bool × Bool × BitVec 8
  inner  : Bool
  root   : Word
  base   : Nat
  pages  : Nat
  out    : Nat
  leaf1  : Option Word
  lvl1   : Nat
  leaf2  : Option Word
  lvl2   : Nat
  deriving DecidableEq, Repr

/-- A miss buffer (R142, R165): the line, whether its upper data unit comes first, how many units have arrived, whether the line is
wanted with ownership, for the instruction cache, as a streaming fill (R168) or by run-ahead (R152), the world of the access, and the tick in
which its watchdog was armed (R478). -/
structure MissBuf where
  ln     : Nat
  upper  : Bool
  got    : Nat
  write  : Bool
  instr  : Bool
  stream : Bool
  ra     : Bool
  inner  : Bool
  armed  : Nat
  deriving DecidableEq, Repr

/-- The load at the pc that waits for a line which missed the L2 (R149): its address, the line, the data units that it needs, its
destination and its length. -/
structure Block where
  pc   : Word
  ln   : Nat
  low  : Bool
  high : Bool
  dst  : RaDest
  len  : Nat
  deriving DecidableEq, Repr

/-- What a line held before a later store of another agent, as a load may still read it that was performed before older loads (R205): the
line and its bytes, the A registers written since, the bytes of which the core has read or written a newer value, and how many more
instructions and loads the reorder window and the load queue can hold before it (R142). -/
structure Stale where
  ln    : Nat
  data  : Line
  regs  : BitVec 16
  dead  : BitVec 64
  left  : Nat
  loads : Nat
  deriving DecidableEq, Repr

/-- What trains a predictor (R144, R146): the address of the instruction, the branch target or the loaded value, whether the branch was
taken, and the world. -/
structure Train where
  pc    : Word
  val   : Word
  taken : Bool
  inner : Bool
  deriving DecidableEq, Repr

/-- A walk-cache entry (R195): a table descriptor, its stage, space and world, the root in force and where it lay. -/
structure WcEnt where
  stage : Nat
  space : Bool × Bool × BitVec 8
  inner : Bool
  root  : Word
  ea    : Nat
  desc  : Word
  deriving DecidableEq, Repr

/-- A reservation (R127, R220): the DA line, whether it is held at the home (R251), whether the deferral of snoops
is running, and the Net time of its LDRES. -/
structure Resv where
  ln     : Nat
  atHome : Bool
  defer  : Bool
  since  : Nat
  deriving DecidableEq, Repr

/-- Where the value of an outstanding device load goes (R209): destination, size, sign extension and base update. -/
structure DevWait where
  va    : Word
  ppa   : Nat
  size  : Nat
  sign  : Bool
  dst   : RaDest
  upd   : Option (AReg × Word)
  len   : Nat
  deriving DecidableEq, Repr

/-- A run-ahead in progress (R149–R153): the checkpoint (A, D and Q registers, A15 copies, SYS_FPCSR, reservation,
branch history, return stack, value-predictor history, pc), the blocking load, the registers marked INV, the count of pseudo-retired
instructions, whether run-ahead has stopped, and the run-ahead store buffer, each entry with its INV mark. -/
structure RunAhead where
  pc     : Word
  d      : Tbl Word
  a      : Tbl Word
  sp     : Tbl Word
  q      : Tbl Line
  fpcsr  : Word
  resv   : Option Resv
  hist   : List Bool
  ras    : List (Word × Bool)
  vpred  : List Train
  block  : Block
  invD   : List Nat
  invA   : List Nat
  invQ   : List Nat
  count  : Nat
  stop   : Bool
  sb     : List (SqEnt × Bool)
  deriving DecidableEq, Repr

/-- A tagged instruction whose sample record is open (R520, R521). -/
structure Tagged where
  pc    : Word
  va    : Word
  enc   : BitVec 32
  deriving DecidableEq, Repr

/-- One core. -/
structure Core where
  /-- Held in reset, or not yet released (R491, R498). -/
  held   : Bool
  pc     : Word
  d      : Tbl Word
  a      : Tbl Word
  /-- The four copies of A15 by level (R74). -/
  sp     : Tbl Word
  q      : Tbl Line
  pl     : Level
  inner  : Bool
  /-- System registers by SRN (R80). -/
  sys    : Tbl Word
  /-- The contents before an MTS that is not yet in effect (R172). -/
  trOld  : Option TrRegs
  resv   : Option Resv
  /-- Snoops deferred under R220. -/
  deferred : List (MsgKind × Msg)
  sq     : List SqEnt
  dq     : List DqEnt
  l1d    : List L1Line
  l1i    : List L1Line
  /-- The replacement trees of the L1 caches by set (R164). -/
  l1dLru : Tbl Nat
  l1iLru : Tbl Nat
  vc     : Tbl (Option VcEnt)
  miss   : List MissBuf
  block  : Option Block
  stale  : List Stale
  /-- The L1 DTLB, the L1 ITLB and the L2 TLB, each latest entered first (R169). -/
  dtlb   : List TlbEnt
  itlb   : List TlbEnt
  tlb    : List TlbEnt
  wc     : List WcEnt
  /-- The TAGs and target cores of this core's TLBI deliveries that are not yet acknowledged (R197). -/
  tlbOut : List (Nat × Nat)
  /-- The lines of this core's system-scope DC and IC operations that are not yet complete, each with the tick in which its watchdog was
  armed (R252, R478). -/
  maintOut : List (Nat × Nat)
  /-- The pending imprecise abort (R217). -/
  abort  : Option Abort
  /-- The pending tables of the two groups, as ascending INTIDs (R392). -/
  pendO  : List Nat
  pendI  : List Nat
  /-- Waiting in WFI (R132) and the core state CS0–CS3 (R451). -/
  wfi    : Bool
  cs     : Fin 4
  /-- The value of a device load that is awaited (R209). -/
  wait   : Option DevWait
  /-- The tick in which a power-down began (R454). -/
  sleepAt : Nat
  ra     : Option RunAhead
  halted : Bool
  /-- Device stores must drain before the handler's first instruction (R219). -/
  drain  : Bool
  haltReq : Bool
  /-- The instruction after a RESUME with STEP runs, then the core halts (R506). -/
  stepping : Bool
  /-- Global branch history, and the return stack with the worlds of its entries (R144, R146). -/
  hist   : List Bool
  ras    : List (Word × Bool)
  /-- What trained the branch, value and memory-dependence predictors, latest first (R144, R146). -/
  bpred  : List Train
  vpred  : List Train
  mdep   : List Train
  /-- The pages whose demand accesses trained the stream prefetcher: DA page and world (R148). -/
  spf    : List (Nat × Bool)
  /-- Failed STCONDs in a row (R222). -/
  stFail : Nat
  /-- Sampling (R520, R521). -/
  smplCount : Nat
  tagged : Option Tagged
  /-- The world that last wrote SYS_PMU_CTL (R510). -/
  pmuInner : Bool
  deriving DecidableEq, Repr

/-! ## The coherence state of one line (R226–R262) -/

/-- The states of an L2 line (R231). -/
inductive L2St where
  | s | e | m | o | isd | imd | upa | evp
  deriving DecidableEq, Repr

/-- A line in an L2: its state, the prior stable state remembered by UPA (`none` is I), world tag, data, poison, an error in its stored data
that no read has met yet (R260), the way it occupies (none while it is in the miss buffers), the local core that it was filled
for (R253), and the tick in which the watchdog of its request was armed (R478). -/
structure L2Copy where
  st     : L2St
  prior  : Option L2St
  inner  : Bool
  data   : Line
  poison : Bool
  err    : LinkErr
  way    : Option (Fin 16)
  core   : Fin 6
  armed  : Nat
  deriving DecidableEq, Repr

/-- Directory states (R232). -/
inductive DirSt where
  | ds | de | dx
  deriving DecidableEq, Repr

/-- A directory entry (R232); `dx` stands for the state DO; `ref`: recently used (R233). -/
structure DirEnt where
  st    : DirSt
  owner : Nat
  pres  : BitVec 36
  pid   : Pid
  ref   : Bool
  deriving DecidableEq, Repr

/-- An L3 copy (R228): data, dirty mark, poison, an error in its stored data that no read has met yet (R260), PID tag, way, and whether it
was recently used. -/
structure L3Copy where
  data   : Line
  dirty  : Bool
  poison : Bool
  err    : LinkErr
  pid    : Pid
  way    : Fin 16
  ref    : Bool
  deriving DecidableEq, Repr

/-- A merge-buffer entry (R247): one line image, a byte mask and a PID; `base` is the recalled data, `born` and `last` the Net times of its first
and its latest WRH. -/
structure MergeEnt where
  data   : Line
  mask   : BitVec 64
  base   : Option Line
  born   : Nat
  last   : Nat
  poison : Bool
  pid    : Pid
  deriving DecidableEq, Repr

/-- An open home tracker (R237, R238, R243): its number in the slice, the request, the snoops not yet answered
(clusters), the evictions awaited after WBIF answers and those already consumed, the data returned and its poison
mark, whether it came by WBD, whether the owner forwarded the data and with which result, whether the home's own
response was sent, whether CACK is still awaited, and the tick of arming. -/
structure Tracker where
  num    : Nat
  kind   : MsgKind
  req    : Msg
  snoops : List Nat
  wbif   : List Nat
  evs    : List Nat
  got    : Option (Line × Bool)
  wasM   : Bool
  fwd    : Bool
  res    : Nat
  sent   : Bool
  cack   : Bool
  armed  : Nat
  deriving DecidableEq, Repr

/-- Everything the caches, the home and memory's poison marks hold about one line. -/
structure LineSt where
  l2    : Tbl (Option L2Copy)
  dir   : Option DirEnt
  l3    : Option L3Copy
  mb    : Option MergeEnt
  tr    : Option Tracker
  queue : List (MsgKind × Msg)
  /-- The memory copy carries a poison mark (R342). -/
  mpois : Bool
  deriving DecidableEq, Repr

/-- A line nothing holds. -/
def LineSt.empty : LineSt := { l2 := [], dir := none, l3 := none, mb := none, tr := none, queue := [], mpois := false }

/-! ## A Facet (R27–R29, R35, R42, R274, R286) -/

/-- A marker as a Facet holds it (R24, R25). -/
structure Marker where
  tick : Nat
  swap : BitVec 4
  adj  : Int
  deriving DecidableEq, Repr

/-- The Facet's local timing and table copies. -/
structure Facet where
  /-- Held in reset (R42, R326). -/
  inReset : Bool
  /-- The local generator runs: the first marker after training has been taken (R42). -/
  runs    : Bool
  /-- The Facet's copy of the tick number and time offset (R41). -/
  tick    : Nat
  ofs     : Int
  held    : Option Marker
  /-- A boundary passed without its marker, whose SWAP and TIME_ADJ are still owed (R29). -/
  late    : Bool
  /-- Consecutive markers with an error of at most 4 ns, and the tick of the last marker that was measured (R27, R42). -/
  good    : Nat
  seen    : Option Nat
  /-- The phase error in units of 0.25 ns, and a step owed at the next boundary (R27). -/
  phase   : Int
  stepNext : Option Int
  /-- The bank in force of the Facet's copies, by class (R33, R42). -/
  active  : BitVec 4
  /-- The Facet's skew as the Centroid measured it from the echoes, in units of 0.25 ns (R29). -/
  skew    : Int
  /-- The package time last read on the Facet, in units of 0.5 ns (R39). -/
  shown   : Option Int
  /-- The ticks T and U of R42, and whether the PSC has loaded the Facet's table copies. -/
  startAt : Option Nat
  trainAt : Option Nat
  loaded  : Bool
  deriving DecidableEq, Repr

/-- A Facet in reset. -/
def Facet.empty : Facet :=
  { inReset := true, runs := false, tick := 0, ofs := 0, held := none, late := false, good := 0, seen := none, phase := 0,
    stepNext := none, active := 0, skew := 0, shown := none, startAt := none, trainAt := none, loaded := false }

/-! ## The Net (R263–R302) -/

/-- A packet in a buffer: its input port, header unit, the data units that are there with their POISON bits, whether it was demoted into
the reserved units (R302), and for a GTD packet the Net time at which it is due (R284, R310). -/
structure NetPkt where
  inp  : OutPort
  hdr  : BitVec 256
  data : List (BitVec 256 × Bool)
  demo : Bool
  due  : Option Nat
  deriving DecidableEq, Repr

/-- A unit on a link that its receiver has not accepted, which the sender keeps in its retry buffer (R300): virtual network, whether it is
a header, payload and POISON, the demotion mark, and for GTD the Net time at which it crosses (R284). -/
structure WUnit where
  vn     : Nat
  head   : Bool
  data   : BitVec 256
  poison : Bool
  demo   : Bool
  due    : Option Nat
  deriving DecidableEq, Repr

/-- A grant that is held: the packet with the units still to pass, how many of its units have passed, and the tick of the grant (R296). -/
structure Grant where
  pkt   : NetPkt
  sent  : Nat
  since : Nat
  deriving DecidableEq, Repr

/-- A GTD packet that a router is forwarding unit by unit (R284): its output, the packet as far as it has passed, the data units still to
come, and whether it was demoted. -/
structure GtdOpen where
  out  : OutPort
  pkt  : NetPkt
  left : Nat
  demo : Bool
  deriving DecidableEq, Repr

/-- An arbiter of R290: wait counts by requester, and for each class (4: the aged) its members in the order in which round
robin serves them. -/
structure Arb where
  wait  : Tbl Nat
  rings : Tbl (List Nat)
  deriving DecidableEq, Repr

def Arb.empty : Arb := { wait := [], rings := [] }

/-- A router: waiting packets in order of arrival, the units on the link into each mesh port, the grant held by each output, units of
each output's virtual networks that are away (buffer size less the credits held) and the credits returning (both by 8 × output +
network), the units away of the agents at the local ports (by 8 × port + network), the arbiters (virtual network by output; input by
8 × output + network), the outputs and networks that hold new headers after an audit (R481), those whose last audit failed (R483), the
replays of each link in this tick and the consecutive ones (R301), the ports whose receiver discards until a replay (R300), and the
GTD packet that is passing each port. -/
structure Router where
  queue  : List NetPkt
  wire   : Tbl (List WUnit)
  grants : Tbl (Option Grant)
  away   : Tbl Nat
  ret    : Tbl Nat
  local_ : Tbl Nat
  vnArb  : Tbl Arb
  inArb  : Tbl Arb
  hold   : List Nat
  bad    : List Nat
  replays : Tbl Nat
  fails  : Tbl Nat
  skip   : List Nat
  gtd    : Tbl (Option GtdOpen)
  deriving DecidableEq, Repr

def Router.empty : Router :=
  { queue := [], wire := [], grants := [], away := [], ret := [], local_ := [], vnArb := [], inArb := [], hold := [], bad := [],
    replays := [], fails := [], skip := [], gtd := [] }

/-- A slot token as the PSC records it (R282, R283): partition, plane, the agents of the path, and the slot. -/
structure Token where
  pid   : Pid
  plane : Nat
  src   : Nat
  dst   : Nat
  slot  : Nat
  deriving DecidableEq, Repr

/-- A GTD request between its injection and its home (R287): plane, units, whether it has landed, and the message. -/
structure LandReq where
  plane  : Nat
  units  : Nat
  landed : Bool
  kind   : MsgKind
  msg    : Msg
  deriving DecidableEq, Repr

/-- The Net beyond its registers: routers; the route and slot injection entries, and whether the PSC has written the boot
routes (R496); landing credits that are away by path, the
GTD requests that hold some of them, and the paths that are held (R287, R481); tokens, and those staged for the next SLOT swap; the planes whose GTD
injection an audit stopped, with the slot by absolute number 125 × tick + slot (R35, R481); the tick in which each freeze began (R294); whether slots 0–44 of a tick that
begins with a SLOT swap are running (R288); the messages that have been injected and not yet ejected; the Net time until which each
injection point's GTD units take its cycles (R285); the arbiters of the Facet fabrics by 12 × Facet + plane, of the home
slices, and of the root complexes (R292); and the requests that wait at a home slice for a tracker (R237). -/
structure Net where
  routers : Tbl Router
  routes  : Tbl Word
  routesOn : Bool
  inject  : Tbl Word
  landing : Tbl Nat
  landQ   : List LandReq
  landHold : List Nat
  landBad : List Nat
  tokens  : List Token
  staged  : Option (List Token)
  slotStop : Tbl (Option Nat)
  frozen  : Tbl (Option Nat)
  slotHold : Bool
  flying  : List (MsgKind × Msg)
  gtdBusy : Tbl Nat
  fctArb  : Tbl Arb
  l3sArb  : Tbl Arb
  pciArb  : Tbl Arb
  sliceQ  : Tbl (List (MsgKind × Msg))
  deriving DecidableEq, Repr

def Net.empty : Net :=
  { routers := [], routes := [], routesOn := false, inject := [], landing := [], landQ := [], landHold := [], landBad := [], tokens := [],
    staged := none, slotStop := [], frozen := [], slotHold := false, flying := [], gtdBusy := [], fctArb := [], l3sArb := [], pciArb := [], sliceQ := [] }

/-! ## The Chord (R303–R326) -/

/-- A sequenced unit in a replay buffer, with its plane and its original trailer (R307, R308). -/
structure ChUnit where
  seq     : Nat
  plane   : Nat
  data    : BitVec 256
  trailer : BitVec 32
  deriving DecidableEq, Repr

/-- An open packet at a receiver: its header, the data units accepted with their POISON bits, and the tick of its last unit
(R306, R323). -/
structure ChOpen where
  hdr  : BitVec 256
  data : List (BitVec 256 × Bool)
  last : Nat
  deriving DecidableEq, Repr

/-- One direction of a strand: the sender's unacknowledged units, how many of them it has sent since the last NAK, its next sequence
number; the next expected sequence number, the position count, whether the receiver discards until the expected unit, the accepted
units not yet acknowledged, the NAKs to be sent, those that the sender has received and not yet acted on, and the Net time of the last
one; the consecutive replays of the first unit, and whether
the returning planes still wait for MOVE (R304, R307–R309, R321). -/
structure ChDir where
  unacked : List ChUnit
  sent    : Nat
  next    : Nat
  exp     : Nat
  pos     : Nat
  skip    : Bool
  acks    : Nat
  naks    : Nat
  nakIn   : Nat
  nakAt   : Nat
  fails   : Nat
  await   : Bool
  deriving DecidableEq, Repr

def ChDir.empty : ChDir :=
  { unacked := [], sent := 0, next := 0, exp := 0, pos := 0, skip := false, acks := 0, naks := 0, nakIn := 0, nakAt := 0, fails := 0, await := false }

/-- A strand beyond its registers: both directions, the tick of entry to the present state, the grades of the attempt (Facet to
Centroid by both ends, Centroid to Facet by both ends), the ticks of the last marker and echo, the marker and the ECHO that are on their
way (R24, R29), the Net time at which an orderly take-down began (R318), the CRC errors in this tick, the eye-scan lane, and the passes in a row in which each lane's eye stayed below the
margin (R311–R317, R324). -/
structure Strand where
  fc    : ChDir
  cf    : ChDir
  since : Nat
  goodF : BitVec 25
  goodC : BitVec 25
  mark  : Nat
  echo  : Nat
  markTx : Option Marker
  echoTx : Bool
  closing : Option Nat
  crc   : Nat
  lane  : Nat
  low   : Tbl Nat
  deriving DecidableEq, Repr

def Strand.empty : Strand :=
  { fc := ChDir.empty, cf := ChDir.empty, since := 0, goodF := 0, goodC := 0, mark := 0, echo := 0, markTx := none, echoTx := false, closing := none,
    crc := 0, lane := 0, low := [] }

/-- Credits of one Facet, plane, virtual network and direction (R310, R311): units sent and not yet returned, units in the
receiver's buffer, freed and unsent returns, the counts of credits accepted and sent, the demotion units in use, and what the audit
has found (R481, R483). -/
structure ChCred where
  away : Nat
  occ  : Nat
  pend : Nat
  rf   : Nat
  rc   : Nat
  demo : Nat
  hold : Bool
  bad  : Bool
  deriving DecidableEq, Repr

def ChCred.empty : ChCred := { away := 0, occ := 0, pend := 0, rf := 0, rc := 0, demo := 0, hold := false, bad := false }

/-- The Chord beyond its registers: strands by 6f + s, credits by ((12f + plane) × 8 + network) × 2 + direction; by (12f + plane) × 2 +
direction the open packets at the receivers, the packets that wait at the senders, the rest of the packet that each sender has open
with its network, the packets received and not yet handed on, and the Net times at which GTD packets on their way are due (R310); what the cuts of R311 latched, by credit, at the Facets and for the audit; and the
Facets whose heartbeat is lost (R325). -/
structure Chord where
  strands : Tbl Strand
  creds   : Tbl ChCred
  opens   : Tbl (Option ChOpen)
  tx      : Tbl (List NetPkt)
  cur     : Tbl (Nat × List (BitVec 256 × Bool))
  rx      : Tbl (List NetPkt)
  dues    : Tbl (List Nat)
  facetCut : Tbl (Option ChCred)
  cut     : Tbl (Option ChCred)
  lost    : List Nat
  deriving DecidableEq, Repr

def Chord.empty : Chord :=
  { strands := [], creds := [], opens := [], tx := [], cur := [], rx := [], dues := [], facetCut := [], cut := [], lost := [] }

/-! ## HBM3 (R327–R362) -/

/-- A request in a pseudo-channel's queue (R333): kind, DA line, port, arrival in Net cycles, urgency level, and the message to
answer. -/
structure HbmReq where
  kind  : MsgKind
  ln    : Nat
  port  : Nat
  at_   : Nat
  level : Nat
  full  : Bool
  msg   : Msg
  deriving DecidableEq, Repr

/-- A physical pseudo-channel: read and write queues, write mode, open rows by bank, consecutive row hits by bank, the arbiter, the
accesses issued to DRAM whose data is awaited (reads, and partial writes that read first), the code words corrected in each row in this
scrub pass, the scrub pointer and the tick of the last scrub read, the tick of the last 0x5001, and the start of the CE window
(R333–R347). -/
structure PcSt where
  rq     : List HbmReq
  wq     : List HbmReq
  wmode  : Bool
  rows   : Tbl (Option Nat)
  hits   : Tbl Nat
  arb    : Arb
  issued : List HbmReq
  rowCe  : Tbl (List Nat)
  scrub  : Nat
  scrubAt : Nat
  ceTick : Option Nat
  winAt  : Nat
  deriving DecidableEq, Repr

def PcSt.empty : PcSt :=
  { rq := [], wq := [], wmode := false, rows := [], hits := [], arb := Arb.empty, issued := [], rowCe := [], scrub := 0,
    scrubAt := 0, ceTick := none, winAt := 0 }

/-- A stack: retirements waiting for their turn, the placement staged for the next GMAP swap (logical pseudo-channel, mode, final),
poisoned lines moved by the migration, the temperature of the last thermal re-centring with its tick, the tick of the last reading, whether
a fill is running, the channels whose eyes are below the limits, and the channel retrains that run with their ticks (R349–R362). -/
structure StackSt where
  retire : List Nat
  staged : Option (Nat × Nat × Bool)
  moved  : Nat
  temp   : Option Int
  thermAt : Option Nat
  readAt : Option Nat
  filling : Nat
  low    : List Nat
  train  : Tbl (Option Nat)
  deriving DecidableEq, Repr

def StackSt.empty : StackSt := { retire := [], staged := none, moved := 0, temp := none, thermAt := none, readAt := none, filling := 0, low := [], train := [] }

/-- HBM3 beyond its registers: pseudo-channels by 32m + φ, stacks, failed retrains by channel, and whether granules 179–185 have
been withdrawn (R352). -/
structure Hbm where
  pcs    : Tbl PcSt
  stk : Tbl StackSt
  fails  : Tbl Nat
  withdrawn : Bool
  deriving DecidableEq, Repr

def Hbm.empty : Hbm := { pcs := [], stk := [], fails := [], withdrawn := false }

/-! ## Records (R473, R486, R52) -/

/-- A black-box record as the ring holds it (R486). -/
abbrev BbCell := BbRec

/-- The black-box ring (R489, R490): the records that are not empty by position, the exported marks, the records
written in this tick, those lost in this tick, and the records still to be written before STOPPED is complete.  WPTR,
FROZEN, STOPPED, TRIG and UNEXP are BBX_STATUS. -/
structure BlackBox where
  recs     : Tbl (Option BbCell)
  exported : Tbl Bool
  wrote    : Nat
  lostTick : Nat
  left     : Nat
  deriving DecidableEq, Repr

/-- Refusals of one kind by one PID in this tick (R52). -/
structure Coal where
  code  : Nat
  pid   : Pid
  inst  : Nat
  page  : Nat
  count : Nat
  deriving DecidableEq, Repr

/-- A RAS record (R473). -/
structure RasRec where
  code  : BitVec 16
  ucd   : Bool
  seq   : Nat
  count : Nat
  tick  : Nat
  addr  : Nat
  unit  : Nat
  deriving DecidableEq, Repr

/-! ## The PSC (R402–R417, R56) -/

/-- A completion (R406): its fields, the tick of its writing, whether its descriptor had NOIRQ, and the inline data of an owner
completion. -/
structure Compl where
  tick   : Nat
  tag    : Nat
  status : Nat
  opcode : Nat
  idx    : Nat
  r0     : Nat
  r1     : Nat
  len    : Nat
  noirq  : Bool
  data   : List Byte
  deriving DecidableEq, Repr

/-- A descriptor in hand (R405): the words, the slot it was consumed from, the input data, the tick of its
consumption, how far its work has come, and the numbers that its later steps need. -/
structure Job where
  id    : Nat
  ring  : Ring
  words : List Word
  idx   : Nat
  data  : List Byte
  armed : Nat
  phase : Nat
  aux   : List Nat
  deriving DecidableEq, Repr

/-- A command that has ended and whose output and completion are still to be written: the descriptor, STATUS, RESULT0, RESULT1, LEN, the
PPA that the output goes to, and the output (R404, R406). -/
structure Finish where
  job    : Job
  status : Nat
  r0     : Nat
  r1     : Nat
  len    : Nat
  ppa    : Nat
  out    : List Byte
  deriving DecidableEq, Repr

/-- A partition's layout (R415): clusters as a mask, granule runs (first PPA_G, first DA_G, count), the way mask, root
ports, HBM port targets by class, watermark, debug grants, boot image and load PPA, token ceiling and ring quota. -/
structure PartLayout where
  clusters : Nat
  runs     : List (Nat × Nat × Nat)
  ways     : Nat
  ports    : List Nat
  hbm      : List (Nat × Nat)
  wm       : Nat
  dbg      : Nat
  boot     : Option (Nat × Nat)
  ceil     : Nat
  quota    : Nat
  deriving DecidableEq, Repr

/-- The empty layout; the quota is the one of a layout that names none (PSC_RING_STATUS). -/
def PartLayout.empty : PartLayout :=
  { clusters := 0, runs := [], ways := 0, ports := [], hbm := [], wm := 0, dbg := 0, boot := none, ceil := 0, quota := 8 }

/-- A RESIZE or WIPE in progress (R55–R61): its command, whether it is a WIPE, the PIDs it involves with their STATE before it, the
new layouts and bifurcation codes, whether the layout is to be stored, what it releases (clusters, granules as (PID, PPA_G, DA_G),
root ports), and how far it has come: 0 waiting for KS3, 1 waiting for its ports and banks, 2 swap B requested, 3 waiting for
trackers, 4 walking, 5 wiping, 6 waiting to stage swap C, 7 swap C requested. -/
structure Resize where
  id       : Nat
  wipe     : Bool
  pids     : List (Nat × Nat)
  layouts  : List (Nat × PartLayout)
  bifur    : List (Nat × Nat)
  cxl      : List Nat
  persist  : Bool
  clusters : List Nat
  grans    : List (Nat × Nat × Nat)
  ports    : List Nat
  phase    : Nat
  deriving DecidableEq, Repr

/-- A wake source of a parked partition (R464). -/
structure WakeSrc where
  typ   : Nat
  index : Nat
  op    : Nat
  mask  : Nat
  value : Nat
  deriving DecidableEq, Repr

/-- A partition that is being parked or is parked (R465, R466): the command, the tick of the PARK and of PARKED, the
interval in ms, the sources, the number of the next sample, the states of the port domains before the park, and the wake that is due:
the matching entry, a wake-pending interrupt, the owner (R467, R468). -/
structure Park where
  job    : Option Nat
  since  : Nat
  parked : Option Nat
  ms     : Nat
  srcs   : List WakeSrc
  next   : Nat
  ports  : List (Nat × Nat)
  hit    : Option (Option Nat × Bool × Bool)
  deriving DecidableEq, Repr

/-- A reset of a core (kind 0), a partition (1), the package (2, warm) or a Facet (3) in progress: its number, whether the partition
is then held, its step (1: the store queues drain, 2: the L2s drain), and the tick in which the step began (R219, R491, R492). -/
structure Rst where
  kind  : Nat
  id    : Nat
  hold  : Bool
  stage : Nat
  since : Nat
  deriving DecidableEq, Repr

/-- The PSC's own state. -/
structure Psc where
  /-- Descriptors in hand, in order of consumption, and the number of the next one. -/
  jobs     : List Job
  nextId   : Nat
  /-- Commands that have ended and wait for lines of their output, in order (R237, R404). -/
  finishing : List Finish
  /-- Completions held by rings in FAULT (R411). -/
  held     : Tbl (List Compl)
  /-- Rings to which a completion without NOIRQ was written in this tick (R404). -/
  irqDue   : List Nat
  /-- The tick, plus 1, of the last completion interrupt of each ring (R404). -/
  irqAt    : Tbl Nat
  /-- Rings that had a completion refused while QUIESCING (R411). -/
  cqLost   : List Nat
  /-- Descriptors consumed from each ring in this tick (R403). -/
  consumed : Tbl Nat
  /-- Consecutive ring-audit failures (R413); key 16 is the owner ring. -/
  auditFail : Tbl Nat
  /-- The completion last written to an even slot (R401). -/
  lastEven : Tbl (List Word)
  /-- Rings that R412 is ending. -/
  ending   : List Nat
  /-- Owner-ring descriptors consumed and completions not yet read by the BMC (R417), and messages being assembled with
  the tick of their first packet. -/
  ownerOut : List Compl
  ownerAsm : Tbl Nat
  /-- Owner-ring counters for the audit of R413: consumed and completed. -/
  ownerCnt : Nat × Nat
  /-- RESIZE and WIPE commands in progress. -/
  resizes  : List Resize
  /-- Layouts in force and stored in SPI NOR (R54). -/
  layouts  : Tbl PartLayout
  stored   : Tbl PartLayout
  /-- Bifurcation codes and CXL ports of the stored layout (R364). -/
  storedBif : Tbl Nat
  storedCxl : List Nat
  /-- Free granules: those wiped and in no map (R45); the pool after boot is all HBM granules and the CXL granules. -/
  pool     : List (Nat × Nat)
  /-- Parked partitions (R465). -/
  parks    : Tbl (Option Park)
  /-- Measurements of the boot images by PID (R497, R500): a digest number. -/
  measured : Tbl Nat
  /-- Partitions held in reset by PART_RESET with HOLD (R538). -/
  onHold   : List Nat
  /-- The time adjusts accepted and not yet applied (R40), and the rest of the slew in force, with their commands. -/
  adjusts  : List (Int × Option Nat)
  slew     : Nat
  /-- The swap classes and the adjust captured for the next marker (R33). -/
  captured : Option (BitVec 4 × Option (Int × Option Nat))
  /-- Descriptors by ring that the last tick deferred (R31). -/
  deferred : Tbl Nat
  /-- Swap requests that wait until a Facet's RESYNC is clear (R43). -/
  swapWait : Nat
  /-- The tick of the last tick-duty window completed or deferred (R478). -/
  beat     : Nat
  /-- Partitions whose boot core is released at the next boundary (R60, R498, R538). -/
  release  : List Nat
  /-- Swap classes that wait until the Meter shows a layout's generation, and that generation (R424). -/
  layWait  : Nat
  layGen   : Nat
  /-- The tick in which the boot step in progress began (R496), the firmware fuse counter (R499), and the requested life-cycle
  state (R502). -/
  bootAt   : Nat
  svn      : Nat
  lcReq    : Option Nat
  /-- Granules recorded as being wiped, filled or migrated (R495), and the owners of the granules at a warm reset (R491). -/
  transit  : List Nat
  warmOwn  : Tbl Nat
  /-- Resets in progress (R492). -/
  resets   : List Rst
  deriving DecidableEq, Repr

/-! ## Input and output (R215, R363–R391) -/

/-- A device access that the I/O bridge has issued (R215, R216): its core, address and size, the root port it went to, the DRT
region that classified it, whether it is acknowledged already, whether its core has been reset since (R217), and its watchdog. -/
structure DevAcc where
  id      : Nat
  core    : CoreId
  ppa     : Nat
  size    : Nat
  write   : Bool
  port    : Option Nat
  region  : Option Nat
  early   : Bool
  orphan  : Bool
  armed   : Nat
  timeout : Nat
  deriving DecidableEq, Repr

/-- Bytes of an upstream read or AtomicOp (R373): the line, offset and length, and once they are there the completion status, EP and the
bytes. -/
structure UpSeg where
  ln   : Nat
  off  : Nat
  len  : Nat
  got  : Option (Byte × Bool × List Byte)
  deriving DecidableEq, Repr

/-- A root port beyond PCI_PORT_STATUS: the step of a quiesce (1: step 2 of R387, 2: step 5) with its tick; the command that waits for
the port; for each posted write whose CMPs are awaited its lines, the reads that are not yet completed with their parts in address order,
and the requests and MSIs held behind them (R373, R374); the bytes of the port's configuration header that software has written (R367,
R368); the latched wake event (R466); and the speed ceiling of PORT_CTL. -/
structure PortSt where
  step   : Nat
  since  : Nat
  job    : Option Nat
  posted : List (List Nat)
  reads  : List (List UpSeg)
  held   : List (UpReq ⊕ Nat)
  cfg    : Tbl Byte
  pme    : Bool
  ceil   : Nat
  deriving DecidableEq, Repr

def PortSt.idle : PortSt :=
  { step := 0, since := 0, job := none, posted := [], reads := [], held := [], cfg := [], pme := false, ceil := 0 }

/-- A cached context (0), PASID entry (1) or translation (2) of an IOT (R380): the port, the world, the RID and PASID, the page, the
stage-2 space and IPA page it was read under, its words, and the leaves of a translation. -/
structure IotEnt where
  port  : Nat
  kind  : Nat
  inner : Bool
  rid   : Nat
  pasid : Nat
  s2id  : Option Nat
  ipa   : Nat
  w0    : Word
  w1    : Word
  xl    : Option TlbEnt
  deriving DecidableEq, Repr

/-- A running IOT invalidation (R380–R382): the command, its tick, and the accesses in flight when it began, as (port, line). -/
structure IotInv where
  cmd   : Word
  armed : Nat
  ats   : Bool
  waits : List (Nat × Nat)
  deriving DecidableEq, Repr

/-- An I/O translation unit. -/
structure Iot where
  cache   : List IotEnt
  blocked : List Nat
  inv     : Option IotInv
  faults  : List (Word × Word)
  ovf     : Bool
  deriving DecidableEq, Repr

def Iot.empty : Iot := { cache := [], blocked := [], inv := none, faults := [], ovf := false }

/-! ## Save RAM (R452, R453) -/

/-- The save slot of a core in CS3 (R452). -/
structure SaveSlot where
  d    : Tbl Word
  a    : Tbl Word
  sp   : Tbl Word
  q    : Tbl Line
  pc   : Word
  pl   : Level
  inner : Bool
  sys  : Tbl Word
  exec : Word
  bps  : List Word
  crc  : Word
  deriving DecidableEq, Repr

/-! ## The Meter (R418–R446) -/

/-- A gap record: where it begins, where it ends once it is closed, its cause and channel (R442, R446). -/
structure GapRec where
  epoch : Nat
  tick  : Nat
  stop  : Option (Nat × Nat)
  cause : Nat
  chan  : Nat
  deriving DecidableEq, Repr

/-- A metrological event record (R441, R442). -/
structure MtrEvent where
  epoch : Nat
  tick  : Nat
  code  : Nat
  unit  : Nat
  deriving DecidableEq, Repr

/-- A parameter-change record (R439, R442). -/
structure ParRec where
  epoch : Nat
  tick  : Nat
  pOld  : Nat
  pNew  : Nat
  cOld  : Nat
  cNew  : Nat
  deriving DecidableEq, Repr

/-- The layout that the Meter applies to a tick (R423, R424): the owner of each cluster as PID + 1, and ways, HBM granules and tokens
by PID. -/
structure MtrLay where
  owner : Tbl Nat
  ways  : Tbl Nat
  grans : Tbl Nat
  toks  : Tbl Nat
  deriving DecidableEq, Repr

/-- What the Meter has learned about a tick (R423): the feeds received, the layout in force, whether the tick master was free-running,
and whether the parameter set changed at the start of the tick (R433). -/
structure Feeds where
  net   : Option (List Nat)
  l3    : Option (List Nat)
  hbm   : Option (List (List Nat))
  chord : Option (List (List Nat))
  main  : Option Bool
  lay   : MtrLay
  free  : Bool
  pset  : Bool
  deriving DecidableEq, Repr

def MtrLay.empty : MtrLay := { owner := [], ways := [], grans := [], toks := [] }
def Feeds.empty : Feeds :=
  { net := none, l3 := none, hbm := none, chord := none, main := none, lay := MtrLay.empty, free := false, pset := false }

/-- A checkpoint (R444): counters, residues, EPOCH and tick. -/
structure MtrCheck where
  led   : Tbl Nat
  total : Nat
  rho   : Tbl Nat
  epoch : Nat
  tick  : Nat
  deriving DecidableEq, Repr

/-- Parameter set 1 (R428): VDD_NET, VDD_SRAM, VDD_IO, VDD_AON and an HBM stack. -/
def paramSet1 : List RailW :=
  [{ sigma := 22938, aWay := 0, aTok := 4, aGran := 0, kOvh := 64, wNet := 1, wL3 := 0, wHbm := 0 },
   { sigma := 32768, aWay := 16, aTok := 0, aGran := 0, kOvh := 16, wNet := 0, wL3 := 1, wHbm := 0 },
   { sigma := 19661, aWay := 0, aTok := 0, aGran := 4, kOvh := 256, wNet := 1, wL3 := 0, wHbm := 2 },
   { sigma := 65536, aWay := 0, aTok := 0, aGran := 0, kOvh := 1, wNet := 0, wL3 := 0, wHbm := 0 },
   { sigma := 26214, aWay := 0, aTok := 0, aGran := 1, kOvh := 0, wNet := 0, wL3 := 0, wHbm := 1 }]

/-- The Meter beyond its mirrors: residues by channel (R422), bucket counters and TOTAL (R430), the last closed tick, whether the
entry of the tick that has ended is still to be closed, the flags, whether the mirrors still show what was before (R443), what is
known of the running and of the last tick, the activity that the hardware has counted in the running tick, by 17 × (Net 0, L3 1, stack 2 + m,
Facet 10 + f) + bucket (R423), the consecutive
ticks for which a channel's reading has been good and for which a Facet's outputs have exceeded its VIN_F by more than 2% (R432), the tick of
the last 0x2010 of each feed (R425), the measured total of the last entry (R431), the records, the checkpoint, the parameter set in force
and the image that waits for a boundary, the tick of the last signature (R442), the I3C dynamic address (R441), and what the
mirrors MTR_STATUS, MTR_CH_FAIL and MTR_ID will show (R443). -/
structure Meter where
  rho    : Tbl Nat
  led    : Tbl Nat
  total  : Nat
  closed : Option Nat
  due    : Bool
  flags  : Nat
  stale  : Bool
  now    : Feeds
  last   : Feeds
  acts   : Tbl Nat
  good   : Tbl Nat
  exceed : Tbl Nat
  missed : Tbl (Option Nat)
  inc    : Nat
  gaps   : List GapRec
  events : List MtrEvent
  plog   : List ParRec
  ck     : MtrCheck
  rails  : List RailW
  cal    : Option (List Int)
  next   : Option ParamImage
  signAt : Option Nat
  addr   : Option (BitVec 7)
  st     : Word
  fail   : Nat
  sum    : BitVec 16
  deriving DecidableEq, Repr

def Meter.reset : Meter :=
  { rho := [], led := [], total := 0, closed := none, due := false, flags := 0, stale := false, now := Feeds.empty, last := Feeds.empty, acts := [], good := [], exceed := [], missed := [],
    inc := 0, gaps := [], events := [], plog := [], ck := { led := [], total := 0, rho := [], epoch := 0, tick := 0 }, rails := paramSet1,
    cal := none, next := none, signAt := none, addr := none, st := 0x100 ||| boolWord Config.meterSealFuse, fail := 0, sum := Config.mtrChecksum }

/-! ## Counter dumps (R514–R519) -/

/-- A dump engine that is configured (R516, R517): ring base, log2 records, interval, selection, core entries, record length in bytes,
tick T₀, the world of the ring, the number last written, and GEN of the last record. -/
structure Dump where
  base   : Nat
  log2   : Nat
  n      : Nat
  sel    : Nat
  cores  : Nat
  reclen : Nat
  t0     : Nat
  inner  : Bool
  last   : Option Nat
  gen    : Option Nat
  deriving DecidableEq, Repr

/-- A record that waits to be written (R32, R517): its configuration, number, tick and GEN, whether cores were left out, whether GEN
differs from the record before, whether no latch was free, whether it is deferred, the stages written, and its body. -/
structure Snap where
  cfg    : Dump
  seq    : Nat
  tick   : Nat
  gen    : Nat
  trunc  : Bool
  layout : Bool
  missed : Bool
  late   : Bool
  stage  : Nat
  body   : List Byte
  deriving DecidableEq, Repr

/-! ## Power and test access -/

/-- Power management beyond its registers: the boost frequency in 100 MHz with the tick and MTR_TOTAL of its last computation (R459),
the units above their throttle limit (R463), the temperature sensors: consecutive implausible readings, and those that have
failed, by 64 × die + sensor (R485), and whether PKG_PWROK has been low since MAIN_EN was last forced low (R533). -/
structure Pwr where
  boost   : Nat
  boostAt : Nat
  total   : Nat
  hot     : List ThermUnit
  odd     : Tbl Nat
  readAt  : Tbl (Option Nat)
  failed  : List Nat
  low     : Bool
  deriving DecidableEq, Repr

def Pwr.reset : Pwr := { boost := 29, boostAt := 0, total := 0, hot := [], odd := [], readAt := [], failed := [], low := false }

/-- A die's TAP (R504): the selected instruction (0 BYPASS, 1 IDCODE, 2 SAMPLE/PRELOAD, 3 EXTEST, 4 CLAMP, 5 HIGHZ, 6 the IEEE 1687
network) and the boundary register's update stage. -/
structure Tap where
  ir  : Nat
  bsr : Word
  deriving DecidableEq, Repr

def Tap.reset : Tap := { ir := 1, bsr := 0 }

/-- What latches at cycle 0 of a tick for the audits of its cycles 0–383 (R23, R280, R287, R289): the routers, the landing credits and
buffers, the LCR messages in flight, the slot tables with the registers, the injection entries, and the tokens that the PSC had
recorded. -/
structure Latch where
  routers : Tbl Router
  landing : Tbl Nat
  landQ   : List LandReq
  lcr     : List Msg
  regs    : Tbl Word
  inject  : Tbl Word
  tokens  : List Token
  deriving DecidableEq, Repr

def Latch.empty : Latch := { routers := [], landing := [], landQ := [], lcr := [], regs := [], inject := [], tokens := [] }

/-- A TLBA that a cluster owes (R197): the message, and by core the older entries of its store queue, and of its device accesses, that may
have used a removed entry and are not yet performed. -/
structure TlbOwed where
  ack : Msg
  sq  : Tbl Nat
  dq  : Tbl Nat
  deriving DecidableEq, Repr

/-! ## The whole block -/

/-- The state of the block. -/
structure State where
  /-- The commands that wait, first in, first out. -/
  pending : List Instr
  /-- The number of free values drawn so far (the model's own). -/
  free    : Nat
  /-- The Net cycle within the tick (R21). -/
  cycle   : Nat
  /-- The package register space by PRS address (R15). -/
  regs    : Tbl Word
  /-- Device memory: DA and byte (R47). -/
  mem     : List Host.Cell
  /-- Coherence state by line number, DA[51:6]. -/
  lines   : Tbl LineSt
  /-- The replacement trees of the L2s by 4,096 × cluster + set (R224). -/
  l2Lru   : Tbl Nat
  /-- The reservation registers of the home slices: by core the line that it covers (R251). -/
  hresv   : Tbl (Option Nat)
  /-- The TLBI acknowledgements that clusters owe (R197). -/
  tlbOwed : List TlbOwed
  cores   : Tbl Core
  facets  : Tbl Facet
  /-- The marker that the Centroid emitted in this tick (R24). -/
  marker  : Option Marker
  /-- Consecutive ticks with the reference outside its window (R22). -/
  refBad  : Nat
  net     : Net
  /-- What latched at cycle 0 of this tick for its audits (R23). -/
  latch   : Latch
  chord   : Chord
  hbm     : Hbm
  /-- Messages in flight (R235, R269). -/
  msgs    : List (MsgKind × Msg)
  bbx     : BlackBox
  coal    : List Coal
  /-- RAS queues by PID, oldest first, and the next record number (R474). -/
  ras     : Tbl (List RasRec)
  rasSeq  : Tbl Nat
  /-- Held IPIs: target cores by 16 × PID + INTID (R390). -/
  ipi     : Tbl (List Nat)
  /-- The Locus wake-pending table by core: outer and inner INTIDs (R394), and the aborts held there (R217). -/
  wakeO   : Tbl (List Nat)
  wakeI   : Tbl (List Nat)
  wakeAb  : Tbl (Option Abort)
  /-- Sample records buffered by each cluster, oldest first (R522). -/
  smplBuf : Tbl (List Line)
  /-- PIDs whose requests the home slices refuse (R262 step 1). -/
  refused : List Nat
  /-- FATAL has been declared (R477). -/
  fatal   : Bool
  psc     : Psc
  /-- Device accesses in flight at the I/O bridge and the next number. -/
  devs    : List DevAcc
  devNext : Nat
  ports   : Tbl PortSt
  iots    : Tbl Iot
  saves   : Tbl (Option SaveSlot)
  cluSaves : Tbl (List (Nat × Word))
  /-- In-band interrupts raised on the owner bus and not yet served (R417, R475). -/
  ibi     : Nat
  meter   : Meter
  pwr     : Pwr
  taps    : Tbl Tap
  /-- Port counts (R514) by ((16 × kind + PID) × 256 + entry) × 2 + count, kinds 0 HBM, 1 Chord, 2 Net, 3 PCIe; the dump engines and
  the records that wait. -/
  ctrs    : Tbl Nat
  dumps   : Tbl (Option Dump)
  snaps   : Tbl (List Snap)
  /-- What the last command that returns data delivered outside: a register read, a TAP instruction, an SPDM answer, or an
  Evonisum record. -/
  reply   : List Byte
  deriving DecidableEq, Repr

/-- The empty black box (R489). -/
def BlackBox.empty : BlackBox := { recs := [], exported := [], wrote := 0, lostTick := 0, left := 0 }

/-- The PSC right after a cold reset. -/
def Psc.reset : Psc :=
  { jobs := [], nextId := 1, finishing := [], held := [], irqDue := [], irqAt := [], cqLost := [], consumed := [], auditFail := [], lastEven := [], ending := [],
    ownerOut := [], ownerAsm := [], ownerCnt := (0, 0), resizes := [], layouts := [], stored := [], storedBif := [], storedCxl := [],
    pool := [], parks := [], measured := [], onHold := [], adjusts := [], slew := 0, captured := none, deferred := [], swapWait := 0,
    beat := 0, release := [], layWait := 0, layGen := 0, bootAt := 0, svn := Config.svnFuse.toNat, lcReq := none, transit := [], warmOwn := [], resets := [] }

/-- The block right after reset: every register at its reset value (R5), every core held, every structure empty. -/
def State.reset : State :=
  { pending := [], free := 0, cycle := 0, regs := [], mem := [], lines := [], l2Lru := [], hresv := [], tlbOwed := [], cores := [], facets := [], marker := none,
    refBad := 0, net := Net.empty, latch := Latch.empty, chord := Chord.empty, hbm := Hbm.empty, msgs := [],
    bbx := BlackBox.empty, coal := [], ras := [], rasSeq := [], ipi := [], wakeO := [], wakeI := [], wakeAb := [],
    smplBuf := [], refused := [], fatal := false, psc := Psc.reset, devs := [], devNext := 1, ports := [], iots := [],
    saves := [], cluSaves := [], ibi := 0, meter := Meter.reset, pwr := Pwr.reset, taps := [], ctrs := [], dumps := [], snaps := [],
    reply := [] }

end Sys2Proof.Machine
end

