-- ==== Sys2Proof/Machine/Ops.lean ====
section
/-! DEFINITION. The named operations over registers, memory, records, interrupts and messages that every meaning is
written with. -/

namespace Sys2Proof.Machine

/-! ## Bit fields -/

/-- Bits [hi:lo] of a word, as a number. -/
def fld (v : Word) (hi lo : Nat) : Nat := v.toNat / 2 ^ lo % 2 ^ (hi + 1 - lo)

/-- One bit of a word. -/
def bit (v : Word) (i : Nat) : Bool := v.getLsbD i

/-- The mask of bits [hi:lo]. -/
def fmask (hi lo : Nat) : Word := BitVec.ofNat 64 ((2 ^ (hi + 1 - lo) - 1) * 2 ^ lo)

/-- A word with its bits [hi:lo] set to a number. -/
def setFld (v : Word) (hi lo x : Nat) : Word :=
  (v &&& ~~~ fmask hi lo) ||| BitVec.ofNat 64 (x % 2 ^ (hi + 1 - lo) * 2 ^ lo)

/-- The number of a condition. -/
def b2n (b : Bool) : Nat := if b then 1 else 0

/-- Addition that saturates. -/
def satAdd (top a b : Nat) : Nat := min top (a + b)

/-! ## The package register space (R2–R5, R15) -/

/-- The contents of a register. -/
def State.rg (s : State) (r : Reg) : Word := s.regs.get r.reset r.addr

/-- Put a register's contents. -/
def State.rgSet (s : State) (r : Reg) (v : Word) : State := { s with regs := s.regs.set r.reset r.addr v }

/-- A field of a register, as a number. -/
def State.rf (s : State) (r : Reg) (hi lo : Nat) : Nat := fld (s.rg r) hi lo

/-- A one-bit field of a register. -/
def State.rb (s : State) (r : Reg) (i : Nat) : Bool := bit (s.rg r) i

/-- Set a field of a register by hardware. -/
def State.rfSet (s : State) (r : Reg) (hi lo x : Nat) : State := s.rgSet r (setFld (s.rg r) hi lo x)

/-- Count up in a field that saturates. -/
def State.rfInc (s : State) (r : Reg) (hi lo n : Nat) : State :=
  s.rfSet r hi lo (satAdd (2 ^ (hi + 1 - lo) - 1) (s.rf r hi lo) n)

/-- The contents after a software write under the field access codes of R4; `lock` is the governing LOCK bit.
Reserved bits stay zero (R3). -/
def regWritten (r : Reg) (lock : Bool) (old v : Word) : Word :=
  let rw := if lock then r.maskRw else r.maskRw ||| r.maskRwl
  ((old &&& ~~~ rw) ||| (v &&& rw) ||| (v &&& r.maskW1s)) &&& ~~~ (v &&& r.maskW1c)

/-- A software write under R4. -/
def State.rgWrite (s : State) (r : Reg) (lock : Bool) (v : Word) : State := s.rgSet r (regWritten r lock (s.rg r) v)

/-- Return registers to their reset values (R5). -/
def State.rgReset (s : State) (r : Reg) : State := s.rgSet r r.reset

/-- LOC_TICK_NUM (R38). -/
def State.tick (s : State) : Nat := (s.rg .locTickNum).toNat

/-! ## Ownership (R45–R50) -/

/-- The cluster of a core: k = 6g + local index. -/
def clusterOf (k : CoreId) : ClusterId := ⟨k.val / 6, by omega⟩

/-- The Facet of a cluster: g = 3f + c. -/
def facetOf (g : ClusterId) : FacetId := ⟨g.val / 3, by omega⟩

/-- A cluster whose CLU_OWNER is written already and which joins its partition only at the swap C that is requested (R18, R56). -/
def State.stagedClu (s : State) (g : ClusterId) : Bool :=
  s.psc.resizes.any fun r => r.phase == 7 && r.layouts.any fun x =>
    x.2.clusters / 2 ^ g.val % 2 == 1 && (s.psc.layouts.get PartLayout.empty x.1).clusters / 2 ^ g.val % 2 == 0

/-- The partition that owns a cluster under the layout in force: that of CLU_OWNER[g], once it is in force (R18, R46). -/
def State.owner (s : State) (g : ClusterId) : Option Pid :=
  if s.rb (.cluOwner g) 4 && !(s.stagedClu g) then some ⟨s.rf (.cluOwner g) 3 0 % 16, Nat.mod_lt _ (by decide)⟩ else none

/-- The PID that a core's accesses carry (R50). -/
def State.pidOf (s : State) (k : CoreId) : Pid :=
  ⟨s.rf (.cluOwner (clusterOf k)) 3 0 % 16, Nat.mod_lt _ (by decide)⟩

/-- The clusters of a partition. -/
def State.clustersOf (s : State) (p : Pid) : List Nat := (List.range 36).filter fun g => s.owner (Fin.ofNat 36 g) == some p

/-! ## The black box (R486–R489) -/

/-- The severity of an event code (R488); the two audits of R481 whose severity varies name it themselves. -/
def sevOf (code : Nat) : Nat :=
  if code ∈ [0x0031, 0x2001, 0x2010, 0x3022, 0x3026, 0x3030, 0x3031, 0x4010, 0x4011, 0x4022, 0x4024, 0x4025, 0x4026,
      0x4027, 0x4030, 0x5001, 0x5020] then 1
  else if code ∈ [0x2030, 0x3021, 0x3024, 0x4023, 0x5010, 0x5013, 0x6031, 0x7040, 0x7041, 0x7051, 0x7053, 0x8012, 0x8031,
      0x8044, 0x8046, 0x8050, 0x9010, 0x9011, 0x9020] then 2
  else if code ∈ [0x3023, 0x3040, 0x4028, 0x6030, 0x6032, 0x7042, 0x7050, 0xA002] then 3
  else if code ∈ [0x0010, 0x0030, 0x1050, 0x3025, 0x5014, 0x5023, 0x6033, 0xA041] then 4
  else 0

/-- A black-box record of an event of this tick. -/
def State.bbCell (s : State) (code : Nat) (sev : Nat) (pid : Option Pid) (inst arg : Nat) : BbCell :=
  { tick := s.tick % 2 ^ 48, code := BitVec.ofNat 16 code, pid := pid, sev := Fin.ofNat 8 sev,
    inst := BitVec.ofNat 8 inst, arg := BitVec.ofNat 48 arg }

/-- The position after the write at `p`: in FROZEN the ring wraps inside the half that is not kept (R489). -/
def bbNext (frozen : Bool) (trig p : Nat) : Nat :=
  let n := (p + 1) % 4096
  if frozen && n == (trig + 2049) % 4096 then (trig + 1) % 4096 else n

/-- Put a record at WPTR and account for UNEXP. -/
def State.bbPut (s : State) (c : BbCell) : State :=
  let w := s.rf .bbxStatus 11 0
  let wasUnexp := (s.bbx.recs.get none w).isSome && !(s.bbx.exported.get false w)
  let frozen := s.rb .bbxStatus 12
  let trig := s.rf .bbxStatus 27 16
  let s := { s with bbx := { s.bbx with
    recs := s.bbx.recs.set none w (some c), exported := s.bbx.exported.set false w false, wrote := s.bbx.wrote + 1 } }
  let s := if wasUnexp then s else s.rfSet .bbxStatus 44 32 (s.rf .bbxStatus 44 32 + 1)
  let sev := c.sev.val
  -- freeze on the first SEV 3 or 4 while LIVE; stop on SEV 4
  let s := if (sev = 3 ∨ sev = 4) ∧ !frozen then (s.rfSet .bbxStatus 27 16 w).rfSet .bbxStatus 12 12 1 else s
  let s := if sev = 4 ∧ !(s.rb .bbxStatus 13) then { (s.rfSet .bbxStatus 13 13 1) with bbx := { s.bbx with left := 256 } } else s
  s.rfSet .bbxStatus 11 0 (bbNext frozen trig w)

/-- A record arrives at the Locus (R489): at most 64 are written in a tick, and in STOPPED 256 after the FATAL record;
the others are counted in BBX_LOST. -/
def State.bbArrive (s : State) (c : BbCell) : State :=
  if s.rb .bbxStatus 13 ∧ s.bbx.left = 0 then s.rfInc .bbxLost 31 0 1
  else if 64 ≤ s.bbx.wrote then { (s.rfInc .bbxLost 31 0 1) with bbx := { s.bbx with lostTick := s.bbx.lostTick + 1 } }
  else
    let stopped := s.rb .bbxStatus 13
    let s := if stopped then { s with bbx := { s.bbx with left := s.bbx.left - 1 } } else s
    s.bbPut c

/-- Log an event with the severity of its code. -/
def State.bb (s : State) (code : Nat) (pid : Option Pid) (inst arg : Nat) : State :=
  s.bbArrive (s.bbCell code (sevOf code) pid inst arg)

/-- Log an event with a severity of its own (R481). -/
def State.bbSev (s : State) (code sev : Nat) (pid : Option Pid) (inst arg : Nat) : State :=
  s.bbArrive (s.bbCell code sev pid inst arg)

/-- Count a coalesced refusal; its record is written when the tick ends (R52). -/
def coalAdd (code : Nat) (p : Pid) (inst page : Nat) : List Coal → List Coal
  | [] => [{ code := code, pid := p, inst := inst, page := page, count := 1 }]
  | c :: t => if c.code = code ∧ c.pid = p then { c with count := satAdd 255 c.count 1 } :: t
              else c :: coalAdd code p inst page t

/-- A refusal of a kind that R52 coalesces. -/
def State.bbCoal (s : State) (code : Nat) (p : Pid) (inst page : Nat) : State :=
  { s with coal := coalAdd code p inst page s.coal }

/-! ## Interrupts (R389–R394) -/

/-- Insert into an ascending list without repeats. -/
def insertNat (x : Nat) : List Nat → List Nat
  | [] => [x]
  | y :: t => if x = y then y :: t else if x < y then x :: y :: t else y :: insertNat x t

/-- The union of two ascending lists. -/
def unionNat (a b : List Nat) : List Nat := a.foldl (fun acc x => insertNat x acc) b

/-- A message with every field zero. -/
def Msg.zero : Msg :=
  { pid := 0, inner := false, priv := false, src := 0, score := 0, dst := 0, trk := 0, ln := 0, arg := 0, data := 0,
    poison := false }

/-- The messages of virtual network MGT (R269). -/
def onMgt : MsgKind → Bool
  | .markMsg | .echoMsg | .lcr | .mrd | .mwr | .mcmp => true
  | _ => false

/-- Put a message on the Net. In FATAL every endpoint stops injection of the networks other than MGT, and only a cold reset ends that, so the
message never leaves its endpoint (R477). -/
def State.send (s : State) (kind : MsgKind) (m : Msg) : State :=
  { s with msgs := if s.fatal && !(onMgt kind) then s.msgs else s.msgs ++ [(kind, m)] }

/-- Take an arriving message off the Net, if it was in flight. -/
def State.arrived (s : State) (kind : MsgKind) (m : Msg) : State := { s with msgs := s.msgs.erase (kind, m) }

/-- The PWR domain of a core, of a cluster (R447): cores 0–215, clusters 216–251. -/
def coreDom (k : CoreId) : DomainId := ⟨k.val, by omega⟩
def clusterDom (g : ClusterId) : DomainId := ⟨216 + g.val, by omega⟩

/-- The core as data. -/
def Core.reset : Core :=
  { held := true, pc := 0, d := [], a := [], sp := [], q := [], pl := 1, inner := false, sys := [], trOld := none,
    resv := none, deferred := [], sq := [], dq := [], l1d := [], l1i := [], l1dLru := [], l1iLru := [], vc := [], miss := [], block := none, stale := [],
    dtlb := [], itlb := [], tlb := [], wc := [], tlbOut := [],
    maintOut := [], abort := none, pendO := [], pendI := [], wfi := false, cs := 3, wait := none, sleepAt := 0, ra := none,
    halted := false, drain := false, haltReq := false, stepping := false, hist := [], ras := [], bpred := [], vpred := [], mdep := [],
    spf := [], stFail := 0, smplCount := 0, tagged := none,
    pmuInner := false }

def State.core (s : State) (k : CoreId) : Core := s.cores.get Core.reset k.val
def State.setCore (s : State) (k : CoreId) (c : Core) : State := { s with cores := s.cores.set Core.reset k.val c }

/-- Send INTD for an INTID and group to a core: to the Locus when the core sleeps in CS2 or CS3 or its domain is
closed, otherwise to its cluster (R392). -/
def State.deliver (s : State) (p : Pid) (intid : Nat) (grp : Bool) (k : CoreId) : State :=
  let sleeps := 2 ≤ (s.core k).cs.val || s.rb (.pwrStatus (coreDom k)) 3
  s.send .intd { Msg.zero with
    pid := p, inner := grp, src := 0x2D, dst := if sleeps then 0x2F else BitVec.ofNat 8 (clusterOf k).val,
    arg := BitVec.ofNat 64 (intid + b2n grp * 2 ^ 11 + (k.val % 6) * 2 ^ 12 + k.val * 2 ^ 15) }

/-- The partition owns a core. -/
def State.ownsCore (s : State) (p : Pid) (k : CoreId) : Bool := s.owner (clusterOf k) == some p

/-- A message to INTID `i` of partition `p` (R389). Every route of a DOWN partition acts as EN = 0 (R475). -/
def State.raiseInt (s : State) (p : Pid) (i : Nat) : State :=
  let r : Reg := .irdRoute p (Fin.ofNat 2048 i)
  let v := s.rg r
  let n := fld v 7 0
  if !(bit v 9) || s.rf (.pscPartStatus p) 2 0 == 5 then s.rfSet r 10 10 1
  else if decide (n < 216) && s.ownsCore p (Fin.ofNat 216 n) then s.deliver p (i % 2048) (bit v 8) (Fin.ofNat 216 n)
  else s.bb 0x8042 (some p) (0x40 + p.val) n

/-! ## RAS records (R474) -/

/-- A record of the same event and page (R474). -/
def rasSame (code page : Nat) (r : RasRec) : Bool := r.code == BitVec.ofNat 16 code && r.addr == page

/-- Queue or merge a RAS record of partition `p`. -/
def State.rasPush (s : State) (p : Pid) (code : Nat) (ucd : Bool) (addr unit : Nat) : State :=
  let q : List RasRec := s.ras.get [] p.val
  let page := addr / 4096 * 4096
  if q.any (rasSame code page) then
    { s with ras := s.ras.set [] p.val (q.map fun r => if rasSame code page r then { r with count := satAdd 0xFFFF r.count 1 } else r) }
  else if 64 ≤ q.length then s.rfSet (.pscRasCtl p) 12 12 1
  else
    let n : Nat := s.rasSeq.get 0 p.val
    let r : RasRec := { code := BitVec.ofNat 16 code, ucd := ucd, seq := n % 65536, count := 1, tick := s.tick, addr := page,
                        unit := unit }
    let s1 : State := { s with ras := s.ras.set [] p.val (q ++ [r]), rasSeq := s.rasSeq.set 0 p.val ((n + 1) % 65536) }
    let s2 := s1.rfSet (.pscRasCtl p) 22 16 (q.length + 1)
    if q.isEmpty && s2.rb (.pscRasCtl p) 11 then s2.raiseInt p (s2.rf (.pscRasCtl p) 10 0) else s2

/-! ## Memory (R47) -/

/-- What a byte of memory that nothing has written reads as: zero, since every granule is wiped (R45, R361). -/
def memZero : Byte := 0#8

/-- One byte at a device address. -/
def State.rdByte (s : State) (da : Nat) : Byte := Tbl.get memZero s.mem da

/-- Write one byte. -/
def State.wrByte (s : State) (da : Nat) (b : Byte) : State := { s with mem := Tbl.set memZero s.mem da b }

/-- The canonical form of memory. -/
def Memory.wf (m : List Host.Cell) : Bool := Tbl.wf (fun _ => memZero) m

/-- `n` bytes from an address, little-endian. -/
def memRead (m : List Host.Cell) (a : Nat) : Nat → Nat
  | 0 => 0
  | n + 1 => (Tbl.get memZero m a).toNat + 256 * memRead m (a + 1) n

/-- Write `n` bytes of a number at an address, little-endian. -/
def memWrite (m : List Host.Cell) (a : Nat) : Nat → Nat → List Host.Cell
  | 0, _ => m
  | n + 1, v => memWrite (Tbl.set memZero m a (BitVec.ofNat 8 v)) (a + 1) n (v / 256)

/-- The 64 bytes of a line of memory. -/
def State.memLine (s : State) (ln : Nat) : Line := BitVec.ofNat 512 (memRead s.mem (64 * ln) 64)

/-- Write a line of memory. -/
def State.setMemLine (s : State) (ln : Nat) (v : Line) : State := { s with mem := memWrite s.mem (64 * ln) 64 v.toNat }

/-! ## Port counts (R514) -/

/-- Count `n` units of a partition at a port: kinds 0 HBM, 1 Chord, 2 Net, 3 PCIe; 48 bits wide. -/
def State.portCount (s : State) (kind : Nat) (p : Pid) (entry cnt n : Nat) : State :=
  let k := ((16 * kind + p.val) * 256 + entry) * 2 + cnt
  { s with ctrs := s.ctrs.set 0 k ((s.ctrs.get 0 k + n) % 2 ^ 48) }

/-- The Meter's feeds count `n` units, lookups or transfers of a row (0 Net, 1 L3, 2 + m HBM stack m, 10 + f Chord of Facet f) for the
partition of the packet's PID field, or for OVERHEAD (R423). -/
def State.activity (s : State) (row : Nat) (overhead : Bool) (p : Pid) (n : Nat) : State :=
  let k := 17 * row + (if overhead then 16 else p.val)
  { s with meter := { s.meter with acts := s.meter.acts.set 0 k (s.meter.acts.get 0 k + n) } }

/-! ## The granule map (R47–R49) -/

/-- The bank in force of a swap class: 0 SLOT, 1 ROUTE, 2 GMAP, 3 ARB (R33, LOC_SWAP_REQ.ACTIVE). -/
def State.bank (s : State) (cls : Nat) : Bool := s.rb .locSwapReq (12 + cls)

/-- The first valid entry of a granule-map bank that a test accepts. -/
def State.gmapFind (s : State) (bankB : Bool) (f : Word → Bool) : Option Word :=
  let base := 0x08100000 + (if bankB then 0x8000 else 0)
  s.regs.findSome? fun e => if base ≤ e.1 ∧ e.1 < base + 0x8000 ∧ bit e.2 0 ∧ f e.2 then some e.2 else none

/-- The valid entry for (PID, PPA_G) (R49). -/
def State.gmapPpa (s : State) (bankB : Bool) (p : Pid) (g : Nat) : Option Word :=
  s.gmapFind bankB fun v => fld v 7 4 == p.val && fld v 25 8 == g

/-- The valid entry for a DA granule (R51, home check). -/
def State.gmapDa (s : State) (bankB : Bool) (g : Nat) : Option Word := s.gmapFind bankB fun v => fld v 51 30 == g

/-- The PPA of a partition's byte at a DA, for a RAS record; 0 where no entry maps it. -/
def State.ppaOf (s : State) (p : Pid) (da : Nat) : Nat :=
  match s.gmapDa (s.bank 2) (da / 2 ^ 30) with
  | some v => if fld v 7 4 = p.val then fld v 25 8 * 2 ^ 30 + da % 2 ^ 30 else 0
  | none => 0

/-- The world of the memory that a line lies in: the INNER bit of its granule (R47, R164). -/
def State.lineInner (s : State) (ln : Nat) : Bool := match s.gmapDa (s.bank 2) (ln / 2 ^ 24) with | some v => bit v 1 | none => false

/-! ## The Net cycle and the Meter's mirrors (R21, R443) -/

/-- The registers MTR_LEDGER[b], with their numbers. -/
def mtrLedgers : List (Fin 19) := (List.range 19).map fun b => Fin.ofNat 19 b

/-- The mirrors take the Meter's present values, the tick last (R443). -/
def State.publish (s : State) : State :=
  if !s.meter.stale then s else
  let m := s.meter
  let s := ((s.rgSet .mtrStatus m.st).rgSet .mtrChFailLo (BitVec.ofNat 64 m.fail)).rgSet .mtrChFailHi (BitVec.ofNat 64 (m.fail / 2 ^ 64))
  let s := (s.rfSet .mtrId 31 16 m.sum.toNat).rgSet .mtrTotal (BitVec.ofNat 64 m.total)
  let s : State := mtrLedgers.foldl (fun s b => s.rgSet (.mtrLedger b) (BitVec.ofNat 64 (m.led.get 0 b.val))) s
  let s := (s.rgSet .mtrEntryFlags (BitVec.ofNat 64 m.flags)).rgSet .mtrLedgerTick (BitVec.ofNat 64 (m.closed.getD 0))
  { s with meter := { m with stale := false } }

/-- Time within the tick goes on to a Net cycle. MTR_LEDGER_TICK is all ones from cycle 1,600 while the mirrors change, which they
have done after cycle 1,615 (R443). -/
def State.passTo (s : State) (c : Nat) : State :=
  if c ≤ s.cycle then s else
  let s1 := if s.cycle < 1616 ∧ 1616 ≤ c then s.publish
    else if s.cycle < 1600 ∧ 1600 ≤ c ∧ s.meter.stale then s.rgSet .mtrLedgerTick (BitVec.allOnes 64) else s
  { s1 with cycle := c }

/-- One Net cycle of the tick passes; the last one before the boundary is 1,999 (R21). -/
def State.idle (s : State) : State := if s.cycle < 1999 then s.passTo (s.cycle + 1) else s

/-- The Net time: Net cycles since tick 0 began, 2,000 to a tick (R21). -/
def State.now (s : State) : Nat := 2000 * s.tick + s.cycle

/-- The slot that is running, by absolute number: slot j of a tick is its cycles 16j to 16j + 15 (R21). -/
def State.slotNow (s : State) : Nat := 125 * s.tick + s.cycle / 16

/-- A core's clock in 100 MHz: FREQ of its cluster (R458). -/
def State.coreFreq (s : State) (k : CoreId) : Nat := s.rf (.pwrPerf (clusterDom (clusterOf k))) 21 16

/-- Draw a free value (a value the specification leaves open). -/
def State.draw (s : State) : Word × State := (Config.freeWord s.free, { s with free := s.free + 1 })

/-- Draw a free choice. -/
def State.drawBool (s : State) : Bool × State := (Config.freeBool s.free, { s with free := s.free + 1 })

end Sys2Proof.Machine
end

