-- ==== Sys2Proof/Machine/Operands.lean ====
section
/-! DEFINITION. The operand forms: the registers of the three classes (R71–R74), the program counter, the immediates and
offsets of R98, the shapes of the short forms (R86–R90), and the system-register file (R78–R80). -/

namespace Sys2Proof.Machine

/-! ## Registers (R71–R74) -/

/-- D register: D0 reads as zero (R72). -/
def Core.rd (c : Core) (r : DReg) : Word := if r.val = 0 then 0 else c.d.get 0 r.val

/-- Write a D register: a write to D0 is discarded (R72). -/
def Core.wd (c : Core) (r : DReg) (v : Word) : Core := if r.val = 0 then c else { c with d := c.d.set 0 r.val v }

/-- A register: A15 is the copy of the current level (R74). -/
def Core.ra' (c : Core) (r : AReg) : Word := if r.val = 15 then c.sp.get 0 c.pl.val else c.a.get 0 r.val

/-- An A register has been written: no later load may be performed before the stores that have been performed so far through it, since its
value may come from a later load (R205). -/
def staleMark (r : Nat) (l : List Stale) : List Stale := l.map fun x => { x with regs := x.regs ||| BitVec.ofNat 16 (2 ^ r) }

/-- Write an A register. -/
def Core.wa (c : Core) (r : AReg) (v : Word) : Core :=
  if r.val = 15 then { c with sp := c.sp.set 0 c.pl.val v, stale := staleMark 15 c.stale }
  else { c with a := c.a.set 0 r.val v, stale := staleMark r.val c.stale }

/-- Q register. -/
def Core.rq (c : Core) (r : QReg) : Line := c.q.get 0 r.val

/-- Write a Q register. -/
def Core.wq (c : Core) (r : QReg) (v : Line) : Core := { c with q := c.q.set 0 r.val v }

/-- An instruction leaves the reorder window: what a younger load could have been performed before moves nearer its end (R142, R205). -/
def staleStep (l : List Stale) : List Stale := (l.filter fun x => decide (1 < x.left)).map fun x => { x with left := x.left - 1 }

/-- Go on at an address. -/
def Core.goto (c : Core) (pc : Word) : Core := { c with pc := pc, stale := staleStep c.stale }

/-- Move the program counter on by an instruction's length. -/
def Core.adv (c : Core) (n : Nat) : Core := c.goto (c.pc + BitVec.ofNat 64 n)

/-- The device-store queue takes a value; drained, it no longer holds back a handler's first instruction (R219). -/
def Core.setDq (c : Core) (q : List DqEnt) : Core := { c with dq := q, drain := c.drain && !q.isEmpty }

/-- The long register that a 4-bit field of a short form names: D0–D15 (R86). -/
def longD (r : SDReg) : DReg := ⟨r.val, by omega⟩
/-- The long register that a 3-bit field names: A0–A7 (R86). -/
def longA (r : SAReg) : AReg := ⟨r.val, by omega⟩

/-! ## Conditions (R77) -/

/-- Whether a condition holds between two words; codes 6 and 7 are illegal and give `none`. -/
def condHolds (cc : Fin 8) (a b : Word) : Option Bool :=
  match cc.val with
  | 0 => some (a == b)
  | 1 => some (a != b)
  | 2 => some (a.slt b)
  | 3 => some (!(a.slt b))
  | 4 => some (a.ult b)
  | 5 => some (!(a.ult b))
  | _ => none

/-! ## Immediates and offsets (R98) -/

/-- A branch offset: sign-extended, scale 2. -/
def branchOff {w : Nat} (o : BitVec w) : Word := sx o <<< 1
/-- The immediate of MOVU and ADDPC: sign-extended after the shift by 13. -/
def upperImm (i : BitVec 19) : Word := sx i <<< 13
/-- ADDA.S: scale 8. -/
def immX8 (i : BitVec 8) : Word := sx i <<< 3
/-- ADDSP.S: scale 16. -/
def immX16 (i : BitVec 11) : Word := sx i <<< 4
/-- LDSP.S and STSP.S: zero-extended, scale 8. -/
def offX8 (o : BitVec 7) : Word := zx o <<< 3

/-! ## The system-register file (R78–R80) -/

namespace Srn
abbrev pkey := 0x002
abbrev tp0 := 0x003
abbrev crcPoly := 0x004
abbrev fpcsr := 0x005
abbrev ptime := 0x200
abbrev tickNum := 0x201
abbrev status := 0x400
abbrev sp0 := 0x407
abbrev s1Root := 0x410
abbrev s1Ctl := 0x411
abbrev pmuCtl := 0x420
abbrev pmuUen := 0x421
abbrev pmc0 := 0x428
abbrev smplCtl := 0x440
abbrev coreId := 0x600
abbrev cycle := 0x601
abbrev hstatus := 0x800
abbrev sp1 := 0x807
abbrev s2Root := 0x810
abbrev s2Ctl := 0x811
abbrev mstatus := 0xC00
abbrev sp2 := 0xC07
abbrev wctl := 0xC08
end Srn

/-- The reset value of a system register (the Reset columns of chapters 04–07 and 19). -/
def sysReset (n : Nat) : Word :=
  if n = Srn.status ∨ n = Srn.hstatus ∨ n = Srn.mstatus then 0x3C0
  else if n = Srn.smplCtl then 0x400 <<< 8
  else 0

/-- The stored contents of a system register. -/
def Core.rsys (c : Core) (n : Nat) : Word := c.sys.get (sysReset n) n
/-- Store a system register. -/
def Core.wsys (c : Core) (n : Nat) (v : Word) : Core := { c with sys := c.sys.set (sysReset n) n v }

/-- The numbers that R80 lists. -/
def srnListed (n : Nat) : Bool :=
  n ∈ [0x002, 0x003, 0x004, 0x005, 0x200, 0x201, 0x400, 0x402, 0x403, 0x404, 0x405, 0x406, 0x407, 0x408, 0x410, 0x411, 0x420, 0x421,
       0x428, 0x429, 0x42A, 0x42B, 0x42C, 0x42D, 0x42E, 0x42F, 0x440, 0x600, 0x601, 0x800, 0x802, 0x803, 0x804, 0x805, 0x806,
       0x807, 0x810, 0x811, 0xC00, 0xC02, 0xC03, 0xC04, 0xC05, 0xC06, 0xC07, 0xC08]

/-- LVL of a system-register number (R78). -/
def srnLvl (n : Nat) : Nat := n / 1024 % 4
/-- RO of a system-register number (R78). -/
def srnRo (n : Nat) : Bool := n / 512 % 2 == 1

end Sys2Proof.Machine
end

