-- ==== Sys2Proof/Machine/Flags.lean ====
section
/-! DEFINITION. The status that instructions set and events count: SYS_FPCSR's sticky flags (R110), the event counters
(R509–R512), and the debug enables that gate them (R65). Kosal has no condition flags (chapter 04). -/

namespace Sys2Proof.Machine

/-! ## SYS_FPCSR (R110) -/

/-- The flags an operation signals, as SYS_FPCSR[4:0]: NX 1, UF 2, OF 4, DZ 8, NV 16. -/
abbrev FpFlags := BitVec 5

/-- Set the signalled flags; none is cleared (R110). -/
def Core.fpFlags (c : Core) (f : FpFlags) : Core := c.wsys Srn.fpcsr (c.rsys Srn.fpcsr ||| f.setWidth 64)

/-! ## Debug enables (R65) -/

/-- Invasive debug is enabled for a world of a partition. -/
def State.invasive (s : State) (p : Pid) (inner : Bool) : Bool :=
  s.rb (.pscDbgCtl p) 0 && s.rb (.pscDbgCtl p) (if inner then 4 else 2)

/-- Non-invasive debug is enabled for a world of a partition. -/
def State.nonInvasive (s : State) (p : Pid) (inner : Bool) : Bool :=
  s.rb (.pscDbgCtl p) 1 && (if inner then s.rb (.pscDbgCtl p) 5 || s.rb (.pscDbgCtl p) 4 else s.rb (.pscDbgCtl p) 3 || s.rb (.pscDbgCtl p) 2)

/-! ## Event counters (R509–R512) -/

/-- One counter's increment by `n`: the new contents and whether it overflowed (R509). -/
def pmcAdd (v : Word) (n : Nat) : Word × Bool :=
  let c := fld v 47 0 + n
  if 2 ^ 48 ≤ c then (setFld (setFld v 47 0 (c % 2 ^ 48)) 56 56 1, true) else (setFld v 47 0 c, false)

/-- Whether counter `v` counts event `ev` at a level (R509). -/
def pmcCounts (v : Word) (ev : Nat) (pl : Level) : Bool :=
  fld v 55 48 == ev && bit v 61 && bit v (57 + pl.val)

/-- A counter of core `k` has overflowed: SYS_PMU_CTL may freeze the counters and raise its interrupt (R510). -/
def State.pmcOverflow (s : State) (k : CoreId) : State :=
  let c := s.core k
  let p := s.pidOf k
  let ctl := c.rsys Srn.pmuCtl
  let s := if bit ctl 1 then s.setCore k (c.wsys Srn.pmuCtl (setFld ctl 0 0 0)) else s
  let id := fld ctl 26 16
  if bit ctl 2 && decide (16 ≤ id) then
    if s.rb (.irdRoute p (Fin.ofNat 2048 id)) 8 && !c.pmuInner then s.bb 0x8043 (some p) (0x40 + p.val) 0 else s.raiseInt p id
  else s

/-- Count `n` of event `ev` attributed to a level and world of core `k` (R509, R510, R512). -/
def State.count (s : State) (k : CoreId) (ev n : Nat) (pl : Level) (inner : Bool) : State :=
  let c := s.core k
  let p := s.pidOf k
  if !(bit (c.rsys Srn.pmuCtl) 0) || c.halted || (inner && !(s.nonInvasive p true)) then s
  else
    let step (acc : Core × Bool) (i : Nat) : Core × Bool :=
      let v := acc.1.rsys (Srn.pmc0 + i)
      if pmcCounts v ev pl then (acc.1.wsys (Srn.pmc0 + i) (pmcAdd v n).1, acc.2 || (pmcAdd v n).2) else acc
    let (c', ovf) := (List.range 8).foldl step (c, false)
    let s := s.setCore k c'
    if ovf then s.pmcOverflow k else s

/-- Count an event at the core's own level and world. -/
def State.countHere (s : State) (k : CoreId) (ev : Nat) : State := s.count k ev 1 (s.core k).pl (s.core k).inner

/-- The events of R512 that count cycles, slots, and what predictors, caches and walks do in them, wrong path included: this model holds
no cycles, so their counts are free. -/
def freeEvents : List Nat := [0x01, 0x03, 0x04, 0x05, 0x07, 0x0A, 0x0B, 0x10, 0x11, 0x12, 0x13, 0x14, 0x15, 0x16, 0x1A]

/-- Counter `i` of a core may have counted such events since it was last looked at: it is enabled at some level, and the counters are
enabled or an overflow may have frozen them (R509, R510). -/
def Core.pmcFree (c : Core) (i : Nat) : Bool :=
  let v := c.rsys (Srn.pmc0 + i)
  let ctl := c.rsys Srn.pmuCtl
  freeEvents.contains (fld v 55 48) && bit v 61 && decide (fld v 60 57 ≠ 0) && (bit ctl 0 || bit ctl 1)

/-- A look at counter `i` in CS0 finds the free events counted: a free number below 2^32, and an overflow that it makes acts (R509–R512). None
counts in the inner world without its non-invasive debug (R69). -/
def State.pmcLook (s : State) (k : CoreId) (i : Nat) : State :=
  let c := s.core k
  if c.cs ≠ 0 || c.halted || !(c.pmcFree i) || (c.inner && !(s.nonInvasive (s.pidOf k) true)) then s
  else
    let (d, s) := s.draw
    let (v, ovf) := pmcAdd (c.rsys (Srn.pmc0 + i)) (d.toNat % 2 ^ 32)
    let s := s.setCore k (c.wsys (Srn.pmc0 + i) v)
    if ovf then s.pmcOverflow k else s

/-- A look at the eight counters, before what they count changes (R69, R511). -/
def State.pmcSettle (s : State) (k : CoreId) : State := (List.range 8).foldl (fun (s : State) i => s.pmcLook k i) s

/-- A look at SYS_CYCLE: it counts core cycles, which this model does not hold, so each look at it in CS0 finds it advanced by a free
number; in CS1–CS3 it stands (R508). -/
def State.cycleCount (s : State) (k : CoreId) : Word × State :=
  let c := s.core k
  if c.cs ≠ 0 then (c.rsys Srn.cycle, s)
  else
    let (d, s) := s.draw
    let v := c.rsys Srn.cycle + BitVec.ofNat 64 (d.toNat % 2 ^ 32)
    (v, s.setCore k (c.wsys Srn.cycle v))

/-- A look at every counter of a core, SYS_CYCLE among them. -/
def State.look (s : State) (k : CoreId) : State := (s.cycleCount k).2.pmcSettle k

end Sys2Proof.Machine
end

