-- ==== Sys2Proof/Machine/Coherence.lean ====
section
/-! DEFINITION. The caches, the directory and the home of a line: the home copy, the recalls, and the whole coherence
transactions that an access of a core or of a non-caching agent performs (R224–R262).  The single protocol steps that
the message rows name are in Home.lean. -/

namespace Sys2Proof.Machine

/-! ## Bytes of a line -/

/-- `n` bytes of a line from byte `off`, little-endian. -/
def lineGet (l : Line) (off n : Nat) : Nat := l.toNat / 2 ^ (8 * off) % 2 ^ (8 * n)

/-- A line with `n` bytes from byte `off` replaced. -/
def linePut (l : Line) (off n v : Nat) : Line :=
  let m := BitVec.ofNat 512 ((2 ^ (8 * n) - 1) * 2 ^ (8 * off))
  (l &&& ~~~ m) ||| BitVec.ofNat 512 (v % 2 ^ (8 * n) * 2 ^ (8 * off))

/-- The bit mask of a byte mask. -/
def maskBits (m : BitVec 64) : Line :=
  (List.range 64).foldl (fun acc i => if m.getLsbD i then acc ||| BitVec.ofNat 512 (0xFF * 2 ^ (8 * i)) else acc) 0

/-- The byte mask of `n` bytes from byte `off`. -/
def byteMask (off n : Nat) : BitVec 64 := BitVec.ofNat 64 ((2 ^ n - 1) * 2 ^ off)

/-- A line with the bytes of `m` taken from `d`. -/
def lineMerge (base d : Line) (m : BitVec 64) : Line := (base &&& ~~~ maskBits m) ||| (d &&& maskBits m)

/-! ## Replacement (R164, R224, R228, R233) -/

/-- The way that a pseudo-LRU tree names among the eligible ones: the tree of `d` levels below a node, whose bit 1 points at the
upper half; a half without eligible ways is passed over (R224). -/
def plruPick (bits : Nat) (ok : Nat → Bool) : Nat → Nat → Nat → Nat
  | 0, _, base => base
  | d + 1, node, base =>
    let lo := (List.range (2 ^ d)).any fun i => ok (base + i)
    let hi := (List.range (2 ^ d)).any fun i => ok (base + 2 ^ d + i)
    if (if lo && hi then bits / 2 ^ node % 2 == 1 else hi) then plruPick bits ok d (2 * node + 1) (base + 2 ^ d)
    else plruPick bits ok d (2 * node) base

/-- The tree after a use of a way: every node on its path points away from it. -/
def plruUse (way : Nat) : Nat → Nat → Nat → Nat
  | 0, _, bits => bits
  | d + 1, node, bits =>
    let up := way / 2 ^ d % 2
    plruUse way d (2 * node + up) (bits - bits / 2 ^ node % 2 * 2 ^ node + (1 - up) * 2 ^ node)

/-- The sets of the caches and of the directory. The specification gives their numbers, not their index functions: the model's choice
(log 79). -/
def l1dSet (ln : Nat) : Nat := ln % 128
def l1iSet (ln : Nat) : Nat := ln % 256
def l2Set (ln : Nat) : Nat := ln % 4096
def l3Set (ln : Nat) : Nat := ln % 4 + ln / 32 % 1024 * 4
def dirSet (ln : Nat) : Nat := ln % 4 + ln / 32 % 512 * 4

/-- The first that was not recently used; where all were, the first, and the second result says so (R228, R233; the order among those not
recently used is the model's choice, log 79). -/
def nruPick (l : List (Nat × Bool)) : Option (Nat × Bool) :=
  match l.find? fun x => !x.2 with
  | some x => some (x.1, false)
  | none => l.head?.map fun x => (x.1, true)

/-! ## Where a line lives -/

/-- The stack, for a CXL line the slice group, of a device address (R226, R328). -/
def daGroup (da : Nat) : Nat :=
  let lo := da / 256 % 8
  if da / 2 ^ 51 % 2 = 1 then lo else lo ^^^ (da / 2 ^ 11 % 8)

/-- The home slice of a line: S(8m + h), h the XOR of the 3-bit fields DA[13:11] … DA[49:47] and of DA[51:50] (R226). -/
def homeOf (ln : Nat) : SliceId :=
  let da := 64 * ln
  let h := (List.range 13).foldl (fun acc i => acc ^^^ (da / 2 ^ (11 + 3 * i) % 8)) (da / 2 ^ 50 % 4)
  Fin.ofNat 64 (8 * daGroup da + h % 8)

/-- The agent ID of a slice (R264). -/
def sliceAgent (sl : SliceId) : BitVec 8 := BitVec.ofNat 8 (0x40 + sl.val)

def State.line (s : State) (ln : Nat) : LineSt := s.lines.get LineSt.empty ln
def State.setLine (s : State) (ln : Nat) (l : LineSt) : State := { s with lines := s.lines.set LineSt.empty ln l }

/-- The copy of a line that the L2 of cluster `g` holds. -/
def State.copy (s : State) (ln : Nat) (g : ClusterId) : Option L2Copy := (s.line ln).l2.get none g.val
def State.setCopy (s : State) (ln : Nat) (g : ClusterId) (c : Option L2Copy) : State :=
  s.setLine ln { s.line ln with l2 := (s.line ln).l2.set none g.val c }

/-- A write to a bank of a class is dropped: the bank is active, locked by a requested swap (R35), or the SLOT shadow bank before
slot 45 of a tick that begins with a SLOT swap (R288). -/
def State.bankLocked (s : State) (cls : Nat) (bankB : Bool) : Bool :=
  s.bank cls == bankB || s.rb .locSwapReq cls || (cls == 0 && s.net.slotHold)

/-- The drop of R35: LOC_SWAP_REQ.DROP and event 0x0012 with the class and the page of the register. -/
def State.bankDrop (s : State) (cls : Nat) (addr : Nat) : State :=
  (s.rfSet .locSwapReq 4 4 1).bb 0x0012 none 0 (cls + addr / 4096 * 16)

/-- The way mask in force of a partition (R57, R228). -/
def State.wayMask (s : State) (sl : SliceId) (p : Pid) : Nat :=
  if s.bank 2 then s.rf (.l3sWaymaskB sl p) 15 0 else s.rf (.l3sWaymaskA sl p) 15 0

/-! ## The home copy (R227–R229, R260) -/

/-- The line lies behind a CXL port whose device is lost (R47, R384, R386). -/
def State.cxlLost (s : State) (ln : Nat) : Bool :=
  ln / 2 ^ 45 % 2 == 1 && s.rf (.pciPortStatus (Fin.ofNat 8 (ln / 2 ^ 42)) (if ln / 2 ^ 41 % 2 = 0 then 0 else 2)) 2 0 == 6

/-- Memory's copy of a line and its poison mark; behind a lost CXL device every read returns poison (R342, R386). -/
def State.memCopy (s : State) (ln : Nat) : Line × Bool := if s.cxlLost ln then (0, true) else (s.memLine ln, (s.line ln).mpois)

/-- The bytes of a line at the home, and its poison mark: the merge-buffer entry over the recalled data, the L3 copy of
the partition, or memory (R227). -/
def State.homeData (s : State) (ln : Nat) (p : Pid) : Line × Bool :=
  let l := s.line ln
  let below : Line × Bool :=
    match l.l3 with
    | some c => if c.pid = p then (c.data, c.poison) else s.memCopy ln
    | none => s.memCopy ln
  match l.mb with
  | some e => (lineMerge (e.base.getD below.1) e.data e.mask, e.poison)
  | none => below

/-- Write a line of memory with its poison mark (R340, R342); a lost CXL device discards it (R386). -/
def State.memPut (s : State) (ln : Nat) (d : Line) (poison : Bool) : State :=
  if s.cxlLost ln then s else
  let s := s.setMemLine ln d
  s.setLine ln { s.line ln with mpois := poison }

/-- The error that stored data holds after a further one: the worse of the two. -/
def worseErr : LinkErr → LinkErr → LinkErr
  | .none, e => e
  | e, .none => e
  | .single, e => e
  | .double, _ => .double

/-- An error befalls the L3's stored data of a line; nothing notices it before the data is read (R260). -/
def State.upsetL3 (s : State) (ln : Nat) (e : LinkErr) : State :=
  match e, (s.line ln).l3 with
  | .none, _ | _, none => s
  | e, some c => s.setLine ln { s.line ln with l3 := some { c with err := worseErr c.err e } }

/-- A read of an L3 copy's stored data: a single error is corrected; an uncorrectable one poisons the line in place, a UCR of its partition with
event 0x6031 (R67, R260). -/
def State.l3Check (s : State) (ln : Nat) : State :=
  match (s.line ln).l3 with
  | some c =>
    let fixed (poison : Bool) : State := s.setLine ln { s.line ln with l3 := some { c with err := .none, poison := poison } }
    match c.err with
    | .none => s
    | .single => fixed c.poison
    | .double => ((fixed true).bb 0x6031 (some c.pid) (homeOf ln).val (ln / 64)).rasPush c.pid 0x6031 false (s.ppaOf c.pid (64 * ln)) 0xFFFF
  | none => s

/-- Write a dirty L3 copy to memory, leaving it clean. -/
def State.l3Clean (s : State) (ln : Nat) : State :=
  let s := s.l3Check ln
  match (s.line ln).l3 with
  | some c =>
    if c.dirty then (s.memPut ln c.data c.poison).setLine ln { (s.memPut ln c.data c.poison).line ln with l3 := some { c with dirty := false } }
    else s
  | none => s

/-- Drop the L3 copy. -/
def State.l3Drop (s : State) (ln : Nat) : State := s.setLine ln { s.line ln with l3 := none }

/-- The L3 copies of the other lines of a line's set (R224). -/
def State.l3Peers (s : State) (ln : Nat) : List (Nat × L3Copy) :=
  s.lines.filterMap fun e => if e.1 != ln && l3Set e.1 == l3Set ln && homeOf e.1 == homeOf ln then e.2.l3.map fun c => (e.1, c) else none

/-- Mark an L3 copy as recently used, or not. -/
def State.l3Ref (s : State) (ln : Nat) (b : Bool) : State :=
  match (s.line ln).l3 with
  | some c => s.setLine ln { s.line ln with l3 := some { c with ref := b } }
  | none => s

/-- A way of a mask for a new L3 copy: a free one, otherwise that of the line that was not recently used, whose dirty data goes to memory
(R228). None: the mask is empty. -/
def State.l3Room (s : State) (ln m : Nat) : Option (Fin 16) × State :=
  let peers := s.l3Peers ln
  match (List.range 16).find? fun w => m / 2 ^ w % 2 == 1 && !(peers.any fun e => e.2.way.val == w) with
  | some w => (some (Fin.ofNat 16 w), s)
  | none =>
    let mine := peers.filter fun e => m / 2 ^ e.2.way.val % 2 == 1
    match nruPick (mine.map fun e => (e.1, e.2.ref)) with
    | none => (none, s)
    | some (v, all) =>
      let s := if all then mine.foldl (fun (s : State) e => s.l3Ref e.1 false) s else s
      ((mine.find? fun e => e.1 == v).map fun e => e.2.way, (s.l3Clean v).l3Drop v)

/-- Update or allocate the L3 copy in a way of the partition's mask (R228); a partition without ways keeps the line in
memory. -/
def State.l3Put (s : State) (ln : Nat) (p : Pid) (d : Line) (dirty poison : Bool) : State :=
  match (s.line ln).l3 with
  | some c =>
    if c.pid = p then
      s.setLine ln { s.line ln with l3 := some { c with data := d, dirty := dirty || c.dirty, poison := poison, err := .none, ref := true } }
    else if dirty then s.memPut ln d poison else s
  | none =>
    match s.l3Room ln (s.wayMask (homeOf ln) p) with
    | (some w, s) =>
      s.setLine ln { s.line ln with l3 := some { data := d, dirty := dirty, poison := poison, err := .none, pid := p, way := w, ref := true } }
    | (none, s) => if dirty then s.memPut ln d poison else s

/-- The home reads its copy: stored errors are met, and an L3 hit was recently used (R227, R228, R260). -/
def State.homeRead (s : State) (ln : Nat) (p : Pid) : (Line × Bool) × State :=
  let s := (s.l3Check ln).l3Ref ln true
  (s.homeData ln p, s)

/-- Drain the merge-buffer entry of a line: unwritten bytes from the freshest of the recalled data, the L3 line and
memory; the line goes to the L3 dirty (R247). -/
def State.mbDrain (s : State) (ln : Nat) : State :=
  match (s.line ln).mb with
  | none => s
  | some e =>
    let s := s.l3Check ln
    let (d, _) := s.homeData ln e.pid
    let s := s.setLine ln { s.line ln with mb := none }
    s.l3Put ln e.pid d true e.poison

/-! ## Reservations (R129, R220, R251) -/

/-- Clear the reservations of cores that a predicate names, wherever they are held. -/
def State.clearResv (s : State) (f : Nat → Resv → Bool) : State :=
  let hit (k : Nat) : Bool := match (s.cores.get Core.reset k).resv with | some r => f k r | none => false
  { s with cores := s.cores.mapVals Core.reset fun k c => if hit k then { c with resv := none } else c,
           hresv := s.hresv.mapVals none fun k x => if hit k then none else x }

/-- A write to a line by any agent clears every reservation on it, at the cores and at the home (R129, R251). -/
def State.wrote (s : State) (ln : Nat) : State :=
  let s := s.clearResv fun _ r => r.ln == ln
  { s with hresv := s.hresv.mapVals none fun _ x => if x == some ln then none else x }

/-- The core's reservation at the home ends: an event of R129 applies to the core (R251). -/
def State.resvEnds (s : State) (k : CoreId) : State :=
  if (s.hresv.get none k.val : Option Nat).isSome then { s with hresv := s.hresv.set none k.val none } else s

/-- A core of cluster `g` whose reservation defers a snoop of the line (R220). -/
def State.defers (s : State) (ln : Nat) (g : ClusterId) : Bool :=
  (List.range 6).any fun i =>
    match (s.core (Fin.ofNat 216 (6 * g.val + i))).resv with
    | some r => r.ln == ln && r.defer
    | none => false

/-! ## What older loads let a younger one still read (R203, R205) -/

/-- A store replaces bytes of a line in the store order: the other cores of the partition may still read what the line held, for loads that
were performed before their older loads; the storing core may not (R205, R208). The window and the load queue bound how long (R142). -/
def State.aged (s : State) (ln : Nat) (p : Pid) (by_ : Option Nat) (old : Line) (m : BitVec 64) : State :=
  { s with cores := s.cores.mapVals Core.reset fun k c =>
      if by_ == some k then { c with stale := c.stale.map fun x => if x.ln = ln then { x with dead := x.dead ||| m } else x }
      else if c.held || c.cs != 0 || s.pidOf (Fin.ofNat 216 k) != p then c
      else { c with stale := { ln := ln, data := old, regs := 0, dead := 0, left := 640, loads := 192 } :: c.stale } }

/-! ## Losing a copy (R225, R254) -/

/-- Way `w` of an L2 is locked (R253). -/
def State.wayLocked (s : State) (g : ClusterId) (w : Fin 16) : Bool := s.rb (.cluL2Lock g) (4 * w.val + 3)

/-- Remove a line from the L1 caches and the victim cache of one core; data units that its miss buffers hold come again. -/
def Core.dropLine (c : Core) (ln : Nat) : Core :=
  { c with l1d := c.l1d.filter (·.ln != ln), l1i := c.l1i.filter (·.ln != ln),
           vc := c.vc.mapVals none fun _ e => match e with | some v => if v.line.ln = ln then none else some v | none => none,
           miss := c.miss.map fun b => if b.ln = ln then { b with got := 0 } else b }

/-- Apply a change to the six cores of a cluster. -/
def State.coresOf (s : State) (g : ClusterId) (f : Core → Core) : State :=
  { s with cores := s.cores.mapVals Core.reset fun k c => if k / 6 = g.val then f c else c }

/-- The L2 of `g` loses the line: every L1 and victim cache of the cluster first, the reservations that rest on it, and
a locked way counts the removal (R225, R129, R254). -/
def State.loseCopy (s : State) (ln : Nat) (g : ClusterId) : State :=
  match s.copy ln g with
  | none => s
  | some c =>
    let s := if c.way.any (s.wayLocked g) then s.rfInc (.cluL2Lockmiss g) 31 0 1 else s
    let s := s.coresOf g (·.dropLine ln)
    let s := s.clearResv fun k r => k / 6 == g.val && r.ln == ln && !r.atHome
    s.setCopy ln g none

/-- The clusters that the directory records. -/
def DirEnt.members (e : DirEnt) : List Nat :=
  (List.range 36).filter fun g => e.pres.getLsbD g || (e.st != .ds && e.owner == g)

/-- Remove every L2 copy of a line but one cluster's, and the directory's record of them. -/
def State.invOthers (s : State) (ln : Nat) (keep : Option Nat) : State :=
  match (s.line ln).dir with
  | none => s
  | some e => (e.members.filter fun g => some g != keep).foldl (fun s g => s.loseCopy ln (Fin.ofNat 36 g)) s

def State.setDir (s : State) (ln : Nat) (e : Option DirEnt) : State := s.setLine ln { s.line ln with dir := e }

/-- An error befalls an L2's stored data of a line; nothing notices it before the data is read (R260). -/
def State.upsetL2 (s : State) (ln : Nat) (g : ClusterId) (e : LinkErr) : State :=
  match e, s.copy ln g with
  | .none, _ | _, none => s
  | e, some c => s.setCopy ln g (some { c with err := worseErr c.err e })

/-- A read of an L2 line's stored data: a single error is corrected, after which a STCOND on the line fails (R221); an uncorrectable one poisons the
line in place, a UCR of its partition with event 0x7051 (R67, R260). -/
def State.l2Check (s : State) (ln : Nat) (g : ClusterId) : State :=
  match s.copy ln g with
  | some c =>
    let fixed (poison : Bool) : State := s.setCopy ln g (some { c with err := .none, poison := poison })
    match c.err with
    | .none => s
    | .single => (fixed c.poison).clearResv fun k r => k / 6 == g.val && r.ln == ln && !r.atHome
    | .double =>
      let p : Pid := match (s.line ln).dir with | some e => e.pid | none => 0
      ((fixed true).bb 0x7051 (some p) g.val (ln / 64)).rasPush p 0x7051 false (s.ppaOf p (64 * ln)) 0xFFFF
  | none => s

/-- The copy that the directory's owner holds, while it answers accesses. -/
def State.ownerCopy (s : State) (ln : Nat) : Option (ClusterId × L2Copy) :=
  match (s.line ln).dir with
  | some e =>
    if e.st = .ds then none
    else (s.copy ln (Fin.ofNat 36 e.owner)).map fun c => (Fin.ofNat 36 e.owner, c)
  | none => none

/-- An L2 state that answers core accesses and snoops as itself (R231). -/
def L2St.stable : L2St → Bool
  | .s | .e | .m | .o => true
  | _ => false

/-- Every copy of a line is in a stable state, no transaction on it is open and no request for it waits. -/
def State.lineQuiet (s : State) (ln : Nat) : Bool :=
  let l := s.line ln
  l.tr.isNone && l.queue.isEmpty && l.l2.all fun e => match e.2 with | some c => c.st.stable | none => true

/-- A snoop that removes the line or takes its ownership would be deferred somewhere outside cluster `g` (R220). -/
def State.snoopDeferred (s : State) (ln : Nat) (g : Option Nat) : Bool :=
  match (s.line ln).dir with
  | none => false
  | some e => (e.members.filter fun x => some x != g).any fun x => s.defers ln (Fin.ofNat 36 x)

/-- The newest data of a line and its poison mark: the owner's copy where the directory records one, otherwise the home
copy (R227, R246). -/
def State.newest (s : State) (ln : Nat) (p : Pid) : Line × Bool :=
  match s.ownerCopy ln with
  | some (_, c) => (c.data, c.poison)
  | none => s.homeData ln p

/-- RDO of a line without an open transaction: its merge-buffer entry drains, and the newest data is read with what stored errors made of it
(R246, R247, R260). -/
def State.rdo (s : State) (ln : Nat) (p : Pid) : (Line × Bool) × State :=
  let s := s.mbDrain ln
  match s.ownerCopy ln with
  | some (o, _) => let s := s.l2Check ln o; (s.newest ln p, s)
  | none => s.homeRead ln p

/-- Recall a line from every L2 (SNR to the owner, SNI to the others): the freshest data is the result (R242). -/
def State.recall (s : State) (ln : Nat) : State × Option (Line × Bool) :=
  let s := match s.ownerCopy ln with | some (o, _) => s.l2Check ln o | none => s
  let got := (s.ownerCopy ln).bind fun oc => if oc.2.st = .m ∨ oc.2.st = .o then some (oc.2.data, oc.2.poison) else none
  let s := s.invOthers ln none
  (s.setDir ln none, got)

/-! ## The directory's sets (R233) -/

/-- The share of a directory set that is a partition's own (R233). -/
def State.dirShare (s : State) (p : Nat) : Nat := 3 * (s.clustersOf (Fin.ofNat 16 p)).length / 4

/-- The entries of a line's directory set. -/
def State.dirPeers (s : State) (ln : Nat) : List (Nat × DirEnt) :=
  s.lines.filterMap fun e => if dirSet e.1 == dirSet ln && homeOf e.1 == homeOf ln then e.2.dir.map fun d => (e.1, d) else none

/-- The entries among which the victim of a full set is chosen (R233). -/
def State.dirChoice (s : State) (r : Pid) (set : List (Nat × DirEnt)) : List (Nat × DirEnt) :=
  let held (p : Pid) : Nat := (set.filter fun e => e.2.pid == p).length
  let upon := set.filter fun e => decide (s.dirShare e.2.pid.val < held e.2.pid)
  let mine := set.filter fun e => e.2.pid == r
  if held r < s.dirShare r.val then upon else if mine.isEmpty then upon else mine

/-- Recall a directory victim (R233): every cluster's copy is returned with SNR. `none`: a copy is in a transaction or under a
reservation's deferral, so the allocation waits. -/
def State.dirRecall (s : State) (v : Nat) : Option State :=
  if !(s.lineQuiet v) || s.snoopDeferred v none then none
  else
    let p : Pid := match (s.line v).dir with | some e => e.pid | none => 0
    let (s, got) := s.recall v
    some (match got with | some (d, poi) => s.l3Put v p d true poi | none => s)

/-- Room for a new entry of partition `r` in a line's set: in a full set a victim is recalled (R233). `none`: it waits. -/
def State.dirRoom (s : State) (r : Pid) (ln : Nat) : Option State :=
  let set := s.dirPeers ln
  if (s.line ln).dir.isSome || decide (set.length < 27) then some s
  else
    let l := s.dirChoice r set
    match nruPick (l.map fun e => (e.1, e.2.ref)) with
    | none => some s
    | some (v, all) =>
      let s := if all then l.foldl (fun (s : State) e => s.setDir e.1 (some { e.2 with ref := false })) s else s
      s.dirRecall v

/-! ## The ways of an L2 (R224, R241, R253) -/

/-- The ways that a fill on behalf of local core `i` may use: its locked ways while its LOCK_FILL bit is 1 and it has any, otherwise the
unlocked ways (R253). -/
def State.fillWays (s : State) (g : ClusterId) (i : Fin 6) : List Nat :=
  let lk := s.rg (.cluL2Lock g)
  let mine := (List.range 16).filter fun w => bit lk (4 * w + 3) && fld lk (4 * w + 2) (4 * w) == i.val
  if s.rb (.cluL2Ctl g) (8 + i.val) && !mine.isEmpty then mine else (List.range 16).filter fun w => !(bit lk (4 * w + 3))

/-- The key of a set's replacement tree. -/
def l2Key (ln : Nat) (g : ClusterId) : Nat := 4096 * g.val + l2Set ln

/-- A use of the way that a line occupies. -/
def State.l2Touch (s : State) (ln : Nat) (g : ClusterId) : State :=
  match (s.copy ln g).bind (·.way) with
  | some w => { s with l2Lru := s.l2Lru.set 0 (l2Key ln g) (plruUse w.val 4 1 (s.l2Lru.get 0 (l2Key ln g))) }
  | none => s

/-- The lines of an L2 set that occupy ways. -/
def State.l2Peers (s : State) (ln : Nat) (g : ClusterId) : List (Nat × L2Copy) :=
  s.lines.filterMap fun e => if l2Set e.1 == l2Set ln then (e.2.l2.get none g.val).bind fun c => if c.way.isSome then some (e.1, c) else none else none

/-- The lines of an L2 in EVP (R241). -/
def State.evpCount (s : State) (g : ClusterId) : Nat :=
  (s.lines.filter fun e => match e.2.l2.get none g.val with | some c => c.st == .evp | none => false).length

/-- An L2 replaces a line: EVC or WBD is sent and the line enters EVP (R225, R240, R241). `none`: sixteen lines are in EVP or
the line is in a transaction. -/
def State.replaceAt (s : State) (ln : Nat) (g : ClusterId) : Option State :=
  let s := s.l2Check ln g
  match s.copy ln g with
  | none => some s
  | some c =>
    if !c.st.stable || 16 ≤ s.evpCount g then none else
    let p : Pid := match (s.line ln).dir with | some e => e.pid | none => 0
    let s := s.coresOf g (·.dropLine ln)
    let s := s.clearResv fun k r => k / 6 == g.val && r.ln == ln && !r.atHome
    let dirty := c.st = .m ∨ c.st = .o
    let m : Msg := { Msg.zero with pid := p, inner := c.inner, src := BitVec.ofNat 8 g.val, dst := sliceAgent (homeOf ln), ln := ln }
    some ((s.setCopy ln g (some { c with st := .evp })).send (if dirty then .wbd else .evc)
      (if dirty then { m with data := c.data, poison := c.poison } else m))

/-- A filled line takes a free way that it may use. In a set without one, the line that the tree names among those that may be replaced
leaves, and the filled line waits in the miss buffers until a way is free (R224, R239, R241, R253). -/
def State.l2Place (s : State) (ln : Nat) (g : ClusterId) : State :=
  match s.copy ln g with
  | none => s
  | some c =>
    if c.way.isSome || !c.st.stable then s else
    let peers := s.l2Peers ln g
    let ways := s.fillWays g c.core
    let inWay (w : Nat) : Option (Nat × L2Copy) := peers.find? fun e => e.2.way == some (Fin.ofNat 16 w)
    match ways.find? fun w => (inWay w).isNone with
    | some w => (s.setCopy ln g (some { c with way := some (Fin.ofNat 16 w) })).l2Touch ln g
    | none =>
      if ways.any fun w => match inWay w with | some e => e.2.st == .evp | none => false then s
      else
        let ok (w : Nat) : Bool := ways.contains w && (match inWay w with | some e => e.2.st.stable | none => false)
        let w := plruPick (s.l2Lru.get 0 (l2Key ln g)) ok 4 1 0
        match inWay w with
        | some e => if ok w then (s.replaceAt e.1 g).getD s else s
        | none => s

/-- A way of an L2 has become free: lines of the set that wait for one take it. -/
def State.l2PlaceSet (s : State) (ln : Nat) (g : ClusterId) : State :=
  (s.lines.filterMap fun e => if l2Set e.1 == l2Set ln then (e.2.l2.get none g.val).bind fun c => if c.way.isNone then some e.1 else none else none).foldl
    (fun (s : State) x => s.l2Place x g) s

/-! ## Requests of a cluster (R29, R240) -/

/-- L2 STATE of a cluster: 0 ENABLED, 1 DRAINING, 2 DRAINED (R256). -/
def State.l2State (s : State) (g : ClusterId) : Nat := s.rf (.cluL2Ctl g) 2 1

/-- The Facet holds new requests of its clusters (R29). -/
def State.reqHold (s : State) (g : ClusterId) : Bool := s.rb (.fctTickStatus (facetOf g)) 3

/-- A request of a core to the home of a line (R234, R265). -/
def State.reqMsg (s : State) (k : CoreId) (inner : Bool) (ln arg : Nat) : Msg :=
  { Msg.zero with pid := s.pidOf k, inner := inner, src := BitVec.ofNat 8 (clusterOf k).val, score := Fin.ofNat 8 (k.val % 6),
                  dst := sliceAgent (homeOf ln), ln := ln, arg := BitVec.ofNat 64 arg }

/-- The requester's L2 waits: ISD, IMD or UPA with its prior state (R231, R240). -/
def State.awaits (s : State) (kind : MsgKind) (m : Msg) : State :=
  if m.src.toNat < 36 then
    let g : ClusterId := Fin.ofNat 36 m.src.toNat
    let blank (st : L2St) : L2Copy :=
      { st := st, prior := none, inner := s.lineInner m.ln, data := 0, poison := false, err := .none, way := none, core := Fin.ofNat 6 m.score.val, armed := s.tick }
    match kind, s.copy m.ln g with
    | .rds, none => s.setCopy m.ln g (some (blank .isd))
    | .rdu, none => s.setCopy m.ln g (some (blank .imd))
    | .upg, none => s.setCopy m.ln g (some (blank .upa))
    | .upg, some c => if c.st.stable then s.setCopy m.ln g (some { c with st := .upa, prior := some c.st, armed := s.tick }) else s
    | _, _ => s
  else s

/-- A line that another transaction holds is asked for with a message, which waits its turn at the home (R220, R237, R245). -/
def State.ask (s : State) (kind : MsgKind) (k : CoreId) (inner : Bool) (ln arg : Nat) : State :=
  let m := s.reqMsg k inner ln arg
  (s.awaits kind m).send kind m

/-- A line that a cluster has been granted, and that has still to take a way. -/
def State.granted (s : State) (ln : Nat) (k : CoreId) (st : L2St) (d : Line × Bool) : State :=
  let g := clusterOf k
  (s.setCopy ln g (some { st := st, prior := none, inner := s.lineInner ln, data := d.1, poison := d.2, err := .none, way := none,
                          core := Fin.ofNat 6 (k.val % 6), armed := s.tick })).l2Place ln g

/-- The directory records one owner (R242). -/
def State.own (s : State) (ln : Nat) (g : ClusterId) (p : Pid) : State :=
  s.setDir ln (some { st := .de, owner := g.val, pres := 0, pid := p, ref := true })

/-! ## Whole transactions of a core's access -/

/-- Bring a line into the L2 of a core's cluster for reading: RDS, which an idle line serves at once (R240, R242). The second result says
that the cluster holds the line. -/
def State.fetchShared (s : State) (k : CoreId) (ln : Nat) (p : Pid) (inner : Bool) : State × Bool :=
  let g := clusterOf k
  match s.copy ln g with
  | some c => if c.st.stable then (s.l2Touch ln g, true) else (s, false)
  | none =>
    if s.l2State g != 0 || s.reqHold g then (s, false) else
    let later : State × Bool := (s.ask .rds k inner ln 0, false)
    let stays : Bool := match s.ownerCopy ln with | some (o, c) => c.st == .e && s.defers ln o | none => false
    if !(s.lineQuiet ln) || stays then later else
    match (s.mbDrain ln).dirRoom p ln with
    | none => later
    | some s =>
      let pres (e : DirEnt) : BitVec 36 := e.pres ||| BitVec.ofNat 36 (2 ^ g.val)
      match (s.line ln).dir, s.ownerCopy ln with
      | some e, some (o, _) =>
        let s := s.l2Check ln o
        match s.copy ln o with
        | none => later
        | some c =>
          let s := s.setCopy ln o (some { c with st := if c.st = .e then .s else .o })
          let e := { e with st := if c.st = .e then .ds else .dx, pres := pres e ||| BitVec.ofNat 36 (2 ^ o.val), ref := true }
          ((s.setDir ln (some e)).granted ln k .s (c.data, c.poison), true)
      | dir, _ =>
        let (d, s) := s.homeRead ln p
        let s := if (s.line ln).l3.isNone then s.l3Put ln p d.1 false d.2 else s
        match dir with
        | none => ((s.own ln g p).granted ln k .e d, true)
        | some e => ((s.setDir ln (some { e with pres := pres e, ref := true })).granted ln k .s d, true)

/-- A cluster that holds a line takes its ownership: nothing for M and E, UPG from S and O (R240, R242). -/
def State.upgrade (s : State) (k : CoreId) (ln : Nat) (p : Pid) (inner : Bool) (c : L2Copy) : State × Bool :=
  let g := clusterOf k
  if c.st = .m then (s.l2Touch ln g, true)
  else if c.st = .e then ((s.setCopy ln g (some { c with st := .m })).l2Touch ln g, true)
  else if !c.st.stable || s.reqHold g then (s, false)
  else if !(s.lineQuiet ln) || s.snoopDeferred ln (some g.val) then (s.ask .upg k inner ln 0, false)
  else ((((s.mbDrain ln).invOthers ln (some g.val)).setCopy ln g (some { c with st := .m })).own ln g p, true)

/-- Bring a line into the L2 of a core's cluster with ownership, in M: RDU, or an upgrade (R240, R242). The second result says that the
cluster owns the line; otherwise the request waits at the home behind a transaction or a deferral (R220), or in the miss buffers. -/
def State.fetchOwned (s : State) (k : CoreId) (ln : Nat) (p : Pid) (inner : Bool) : State × Bool :=
  let g := clusterOf k
  match s.copy ln g with
  | some c => s.upgrade k ln p inner c
  | none =>
    if s.l2State g != 0 || s.reqHold g then (s, false) else
    let later : State × Bool := (s.ask .rdu k inner ln 0, false)
    if !(s.lineQuiet ln) || s.snoopDeferred ln none then later else
    match (s.mbDrain ln).dirRoom p ln with
    | none => later
    | some s =>
      let s := match s.ownerCopy ln with | some (o, _) => s.l2Check ln o | none => s
      match s.ownerCopy ln with
      | some (_, c) => ((((s.invOthers ln none).own ln g p).granted ln k .m (c.data, c.poison)), true)
      | none =>
        let (d, s) := s.homeRead ln p
        let s := s.invOthers ln none
        let s := if (s.line ln).l3.isNone then s.l3Put ln p d.1 false d.2 else s
        ((s.own ln g p).granted ln k .m d, true)

/-- Bring a line that DC.ZERO will write whole into the L2 in M: UPG with ZERO, which reads no data and allocates nothing at the home
(R240, R242, R252). -/
def State.fetchZero (s : State) (k : CoreId) (ln : Nat) (p : Pid) (inner : Bool) : State × Bool :=
  let g := clusterOf k
  match s.copy ln g with
  | some c => s.upgrade k ln p inner c
  | none =>
    if s.l2State g != 0 || s.reqHold g then (s, false) else
    let later : State × Bool := (s.ask .upg k inner ln 1, false)
    if !(s.lineQuiet ln) || s.snoopDeferred ln none then later else
    match (s.mbDrain ln).dirRoom p ln with
    | none => later
    | some s => (((s.invOthers ln none).own ln g p).granted ln k .m (0, false), true)

/-- Write bytes of a line that a core's cluster owns in M; a write of all 64 bytes clears the poison mark (R261). -/
def State.putOwned (s : State) (ln : Nat) (k : CoreId) (off n v : Nat) : State :=
  let g := clusterOf k
  match s.copy ln g with
  | none => s
  | some c =>
    let s := s.aged ln (s.pidOf k) (some k.val) c.data (byteMask off n)
    (s.setCopy ln g (some { c with data := linePut c.data off n v, poison := c.poison && n != 64 })).wrote ln

/-- The merge-buffer entries of a slice. -/
def State.mbEntries (s : State) (sl : SliceId) : List (Nat × MergeEnt) :=
  s.lines.filterMap fun e => if homeOf e.1 = sl then e.2.mb.map fun m => (e.1, m) else none

/-- The oldest of a slice's merge-buffer entries. -/
def oldestMb : List (Nat × MergeEnt) → Option Nat
  | [] => none
  | (l, e) :: t =>
    match t.foldl (fun (b : Nat × MergeEnt) x => if x.2.born < b.2.born then x else b) (l, e) with
    | (l, _) => some l

/-- WRH at the home: the bytes of `m` of a line from an agent that caches nothing, `by_` the core that wrote them (R247, R261). -/
def State.writeHome (s : State) (ln : Nat) (p : Pid) (by_ : Option Nat) (d : Line) (m : BitVec 64) (poison : Bool) : State :=
  let s := s.aged ln p by_ (s.newest ln p).1 m
  let all := m == BitVec.allOnes 64
  let s1 : State :=
    match (s.line ln).mb with
    | some e =>
      s.setLine ln { s.line ln with mb := some { e with
        data := lineMerge e.data d m, mask := e.mask ||| m, last := s.now, poison := (e.poison && !all) || poison } }
    | none =>
      if all then (((s.invOthers ln none).setDir ln none).l3Put ln p d true poison)
      else
        let s := if 16 ≤ (s.mbEntries (homeOf ln)).length then
            match oldestMb (s.mbEntries (homeOf ln)) with | some o => s.mbDrain o | none => s
          else s
        let (s, got) := s.recall ln
        let s := s.l3Check ln
        let basePois := match got with | some g => g.2 | none => (s.homeData ln p).2
        s.setLine ln { s.line ln with mb := some { data := d &&& maskBits m, mask := m, base := got.map (·.1), born := s.now, last := s.now,
                                                    poison := basePois || poison, pid := p } }
  let s2 := match (s1.line ln).mb with
    | some e => if e.mask = BitVec.allOnes 64 then s1.mbDrain ln else s1
    | none => s1
  s2.wrote ln

/-- WRI at the home: every copy is dropped, a merge-buffer entry is discarded, and memory is written (R248). -/
def State.writeWhole (s : State) (ln : Nat) (p : Pid) (d : Line) (poison : Bool) : State :=
  let s := s.aged ln p none (s.newest ln p).1 (BitVec.allOnes 64)
  let s := ((s.invOthers ln none).setDir ln none).l3Drop ln
  let s := s.setLine ln { s.line ln with mb := none }
  (s.memPut ln d poison).wrote ln

end Sys2Proof.Machine
end

