-- ==== Sys2Proof/Machine/Snoop.lean ====
section
/-! DEFINITION. How a cluster answers a snoop (R220, R225, R236, R240, R241, R244). -/

namespace Sys2Proof.Machine

/-- RESULT of SRSP (R236, R270). -/
def resultCode : Option L2St → Nat
  | some .s => 1
  | some .e => 2
  | some .m => 3
  | some .o => 4
  | _ => 0

/-- The snoop response of cluster `g` (R236). -/
def State.srsp (s : State) (m : Msg) (result : Nat) (fwd hdat wbif : Bool) : State :=
  s.send .srsp { m with src := m.dst, dst := m.src, score := 0, data := 0, poison := false,
                           arg := BitVec.ofNat 64 (result + b2n fwd * 8 + b2n hdat * 16 + b2n wbif * 32) }

/-- Data that a cluster forwards to the requester of the line's open transaction: DF with a granted state, or DRO. The
requester is the one whose request the home tracker holds. -/
def State.forward (s : State) (kind : MsgKind) (m : Msg) (granted : Nat) (c : L2Copy) : State :=
  match (s.line m.ln).tr with
  | none => s
  | some t => s.send kind { m with src := m.dst, dst := t.req.src, score := t.req.score, data := c.data, poison := c.poison,
                                   arg := BitVec.ofNat 64 granted }

/-- Dirty data returned to the home (SDH). -/
def State.returnHome (s : State) (m : Msg) (c : L2Copy) : State :=
  s.send .sdh { m with src := m.dst, dst := m.src, score := 0, data := c.data, poison := c.poison, arg := 0 }

/-- The state that answers: in UPA the remembered prior state (R241). -/
def L2Copy.answers (c : L2Copy) : Option L2St :=
  match c.st with
  | .s | .e | .m | .o => some c.st
  | .upa => c.prior
  | _ => none

/-- The copy after an answer: a stable copy changes or is dropped; in UPA the remembered state changes, and the line then
waits for DH or DF (R241). -/
def State.answered (s : State) (ln : Nat) (g : ClusterId) (c : L2Copy) (n : Option L2St) : State :=
  if c.st = .upa then
    match n with
    | some x => s.setCopy ln g (some { c with prior := some x })
    | none => (s.loseCopy ln g).setCopy ln g (some { c with prior := none })
  else match n with
    | some x => s.setCopy ln g (some { c with st := x })
    | none => s.loseCopy ln g

/-- The answer of a cluster to a snoop (R240). -/
def State.snoopAnswer (s : State) (kind : MsgKind) (m : Msg) : State :=
  let g : ClusterId := Fin.ofNat 36 m.dst.toNat
  match s.copy m.ln g with
  | none => s.srsp m 0 false false false
  | some c =>
    if c.st = .evp then s.srsp m 0 false false true
    else
      let st := c.answers
      let keep (n : L2St) : State := s.answered m.ln g c (some n)
      let drop : State := s.answered m.ln g c none
      match kind, st with
      | .snic, _ => (s.coresOf g fun c => { c with l1i := c.l1i.filter (·.ln != m.ln) }).srsp m (resultCode st) false false false
      | _, none => s.srsp m 0 false false false
      | .sns, some .e => ((keep .s).forward .df m 1 c).srsp m 1 true false false
      | .sns, some .m | .sns, some .o => ((keep .o).forward .df m 1 c).srsp m 4 true false false
      | .sno, some .s => s.srsp m 1 false false false
      | .sno, some _ => (s.forward .dro m 0 c).srsp m (resultCode st) true false false
      | .snu, some .e => (drop.forward .df m 2 c).srsp m 0 true false false
      | .snu, some .m | .snu, some .o => (drop.forward .df m 3 c).srsp m 0 true false false
      | .snr, some .m | .snr, some .o => (drop.returnHome m c).srsp m 0 false true false
      | .snc, some .m => ((keep .e).returnHome m c).srsp m 2 false true false
      | .snc, some .o => ((keep .s).returnHome m c).srsp m 1 false true false
      | .snc, some _ | .sns, some _ => s.srsp m (resultCode st) false false false
      | _, some _ => drop.srsp m 0 false false false

/-- A snoop that would remove the line or take its ownership (R220). -/
def takesLine (st : Option L2St) : MsgKind → Bool
  | .sni | .snr | .snu => true
  | .sns => st == some .e
  | _ => false

/-- The local core whose reservation defers snoops of the line. -/
def State.deferrer (s : State) (ln : Nat) (g : ClusterId) : Option CoreId :=
  ((List.range 6).map fun i => (Fin.ofNat 216 (6 * g.val + i) : CoreId)).find? fun k =>
    match (s.core k).resv with
    | some r => r.ln == ln && r.defer
    | none => false

/-- A snoop arrives at its cluster: answered with the stored data as a read finds it (R260), or deferred while a reservation's deferral
runs (R220). -/
def State.snoopIn (s : State) (kind : MsgKind) (m : Msg) : State :=
  let g : ClusterId := Fin.ofNat 36 m.dst.toNat
  match (if takesLine ((s.copy m.ln g).bind L2Copy.answers) kind then s.deferrer m.ln g else none) with
  | some k => s.setCore k { (s.core k) with deferred := (s.core k).deferred ++ [(kind, m)] }
  | none => (s.l2Check m.ln g).snoopAnswer kind m

/-- The core no longer defers a snoop. -/
def Core.released (c : Core) (m : Msg) : Bool :=
  match c.resv with
  | some r => !(r.defer && r.ln == m.ln)
  | none => true

/-- No deferred snoop of any core has seen its deferral end. -/
def State.settled (s : State) : Bool := s.cores.all fun e => e.2.deferred.all fun x => !(e.2.released x.2)

/-- Answer every deferred snoop whose deferral has ended (R220). -/
def State.settleSnoops (s : State) : State :=
  if s.settled then s
  else s.cores.foldl (fun s e =>
    let k : CoreId := Fin.ofNat 216 e.1
    let c := s.core k
    let s := s.setCore k { c with deferred := c.deferred.filter fun x => !(c.released x.2) }
    (c.deferred.filter fun x => c.released x.2).foldl (fun s x => s.snoopIn x.1 x.2) s) s

end Sys2Proof.Machine
end

