-- ==== Sys2Proof/Machine/Exceptions.lean ====
section
/-! DEFINITION. Taking an exception or an asynchronous event, and returning from one: the one shared entry (R155–R163)
and the one shared return (R136, R137, R160). -/

namespace Sys2Proof.Machine

/-- A synchronous exception (R162): cause, INFO, WALK, address, whether stage 2 raised it, the level a gate or BRK names
(R134), and the distance from the instruction's address to the saved pc. -/
structure Exc where
  cause : Nat
  info  : Nat
  walk  : Bool
  addr  : Word
  s2    : Bool
  tgt    : Option Level
  skip  : Nat
  deriving DecidableEq, Repr

/-- A plain exception of a cause. -/
def Exc.of (cause info : Nat) (addr : Word) : Exc :=
  { cause := cause, info := info, walk := false, addr := addr, s2 := false, tgt := none, skip := 0 }

def excIllegal : Exc := Exc.of 0x01 0 0
def excPrivilege : Exc := Exc.of 0x02 0 0

/-- SYS_STATUS of a level: 0x400, 0x800, 0xC00; the exception registers follow it (R80). -/
def statusOf (l : Level) : Nat := 0x400 * l.val

/-- The level at which a synchronous exception is taken (R155): PL2 for a stage-2 fault, otherwise PL1 from PL0 and the
current level from above; PL2 becomes PL3 in the inner world; never below the current level. -/
def Exc.level (e : Exc) (pl : Level) (inner : Bool) : Level :=
  let l : Level := match e.tgt with
    | some l => l
    | none => if e.s2 then 2 else if pl = 0 then 1 else pl
  let l := if l < pl then pl else l
  if l = 2 && inner then 3 else l

/-- Entry to level `l` as one step (R158): the saved pc, syndrome and address, IM and AM saved and set, PPL and PW
recorded, the level and world, and the pc at the vector base plus the offset of R161. -/
def Core.enter (c : Core) (l : Level) (epc syn addr : Word) (vec : Nat) : Core :=
  let st := c.rsys (statusOf l)
  let st' := setFld (setFld (setFld (setFld (setFld st 7 7 (fld st 6 6)) 9 9 (fld st 8 8)) 6 6 1) 8 8 1) 5 4 c.pl.val
  let st'' := if l = 3 then setFld st' 10 10 (b2n c.inner) else st'
  let base := c.rsys (statusOf l + 5)
  let off := vec * 0x200 + (if c.pl = l then 0 else 0x100)
  let c1 := (((c.wsys (statusOf l + 2) epc).wsys (statusOf l + 3) syn).wsys (statusOf l + 4) addr).wsys (statusOf l) st''
  let c2 := { c1 with pl := l, inner := c.inner || l == 3, pc := base + BitVec.ofNat 64 off, resv := none, trOld := none,
                      drain := !c.dq.isEmpty, stale := [], block := none }
  -- the branch history and return stack are cleared at every entry to PL3 (R146)
  if l = 3 then { c2 with hist := [], ras := [] } else c2

/-- The syndrome of R162. -/
def syndrome (cause info : Nat) (w32 imp walk : Bool) : Word :=
  BitVec.ofNat 64 (cause + b2n w32 * 64 + b2n imp * 128 + b2n walk * 256 + info * 65536)

/-- The record of a tagged instruction (R521). The cycle counts and cache flags of words 4 and 5 are timing that this
model does not hold: they are free values. -/
def State.smplRecord (s : State) (k : CoreId) (c : Core) (t : Tagged) (outcome : Nat) : State :=
  let (f4, s) := s.draw
  let (f5, s) := s.draw
  let sk := fld (c.rsys Srn.smplCtl) 63 32
  let w0 := k.val + c.pl.val * 2 ^ 8 + b2n c.inner * 2 ^ 10 + outcome * 2 ^ 11 + sk * 2 ^ 32
  let line : Line := BitVec.ofNat 512 (w0 + t.pc.toNat * 2 ^ 64 + t.va.toNat * 2 ^ 128 + s.tick % 2 ^ 48 * 2 ^ 192
    + f4.toNat * 2 ^ 256 + (fld f5 11 0 + fld f5 31 16 * 2 ^ 16) * 2 ^ 320 + t.enc.toNat * 2 ^ 384)
  let g := (clusterOf k).val
  let buf := s.smplBuf.get [] g
  let c := (s.core k).wsys Srn.smplCtl (setFld ((s.core k).rsys Srn.smplCtl) 63 32 0)
  let s := s.setCore k { c with tagged := none }
  let ctl : Reg := .cluSmplCtl (clusterOf k)
  let n := 2 ^ s.rf ctl 5 1
  let full := s.rb ctl 0 && (s.rf (.cluSmplPos (clusterOf k)) 15 0 + 1) % n == s.rf (.cluSmplHead (clusterOf k)) 15 0
  if 8 ≤ buf.length || full then s.rfInc (.cluSmplPos (clusterOf k)) 63 32 1
  else { s with smplBuf := s.smplBuf.set [] g (buf ++ [line]) }

/-- Sampling runs at the core's level and world, outside run-ahead (R520). -/
def State.sampling (s : State) (k : CoreId) : Bool :=
  let c := s.core k
  let ctl := c.rsys Srn.smplCtl
  bit ctl 0 && bit ctl (1 + c.pl.val) && c.ra.isNone && !(c.inner && !(s.nonInvasive (s.pidOf k) true))

/-- The countdown decreases by one for an instruction that was allocated (R520). -/
def State.smplDown (s : State) (k : CoreId) : State :=
  if s.sampling k then s.setCore k { s.core k with smplCount := (s.core k).smplCount - 1 } else s

/-- Close the record of a tagged instruction at `pc`, if the core holds one; an instruction that retires was allocated. -/
def State.smplClose (s : State) (k : CoreId) (pc : Word) (outcome : Nat) : State :=
  let s := if outcome = 0 then s.smplDown k else s
  match (s.core k).tagged with
  | some t => if t.pc = pc then s.smplRecord k (s.core k) t outcome else s
  | none => s

/-- An entry to a level leaves the outer world: the counters are looked at before it (R69, R158). -/
def State.worldEnds (s : State) (k : CoreId) (l : Level) : State := if l = 3 && !(s.core k).inner then s.pmcSettle k else s

/-- Take a synchronous exception of the instruction at the core's pc (R155, R158). -/
def State.takeExc (s : State) (k : CoreId) (e : Exc) (w32 : Bool) : State :=
  let c := s.core k
  let l := e.level c.pl c.inner
  let s := ((s.smplClose k c.pc 3).resvEnds k).worldEnds k l
  let c := s.core k
  let s := s.setCore k (c.enter l (c.pc + BitVec.ofNat 64 e.skip) (syndrome e.cause e.info w32 false e.walk) e.addr 0)
  s.count k 0x1B 1 c.pl c.inner

/-- The level to which an interrupt of a group is routed (R155). -/
def Core.intLevel (c : Core) (grp : Bool) : Level :=
  if grp then (if c.inner then 1 else 3)
  else if bit (c.rsys Srn.hstatus) 16 && !c.inner then 2 else 1

/-- The level to which an imprecise external abort is routed (R155). -/
def Core.abortLevel (c : Core) : Level := if bit (c.rsys Srn.hstatus) 17 && !c.inner then 2 else 1

/-- An asynchronous event routed to level `l` with mask bit `m` of that level's status may be taken (R156). -/
def Core.takeable (c : Core) (l : Level) (m : Nat) : Bool :=
  decide (c.pl < l) || (c.pl == l && !(bit (c.rsys (statusOf l)) m))

/-- The interrupt group that is taken first: the higher level, and the inner group within a level (R156). -/
def Core.intChoice (c : Core) : Option Bool :=
  let o := !c.pendO.isEmpty && c.takeable (c.intLevel false) 6
  let i := !c.pendI.isEmpty && c.takeable (c.intLevel true) 6
  if i && o then some (decide (c.intLevel false ≤ c.intLevel true)) else if i then some true else if o then some false else none

/-- A pending imprecise abort may be taken. -/
def Core.abortTakeable (c : Core) : Bool := c.abort.isSome && c.takeable c.abortLevel 8

/-- A halt request may be taken in the core's current world (R506). -/
def State.haltTakeable (s : State) (k : CoreId) : Bool :=
  (s.core k).haltReq && s.invasive (s.pidOf k) (s.core k).inner

/-- Some asynchronous event is pending and takeable (R156). -/
def State.asyncPending (s : State) (k : CoreId) : Bool :=
  s.haltTakeable k || (s.core k).abortTakeable || (s.core k).intChoice.isSome

/-- Leave run-ahead: the checkpoint is restored, everything else is discarded, and the core refetches from the blocking
load. A reservation that was lost meanwhile stays lost (R129). -/
def State.raExit (s : State) (k : CoreId) : State :=
  let c := s.core k
  match c.ra with
  | none => s
  | some r => s.setCore k { (c.wsys Srn.fpcsr r.fpcsr) with
      pc := r.pc, d := r.d, a := r.a, sp := r.sp, q := r.q, hist := r.hist, ras := r.ras, vpred := r.vpred,
      resv := if c.resv.isSome then r.resv else none, ra := none }

/-- The data units of a miss that have arrived hold the bytes that are needed (R165). -/
def MissBuf.covers (b : MissBuf) (low high : Bool) : Bool :=
  b.got == 2 || (b.got == 1 && (if b.upper then !low else !high))

/-- A core's miss buffer for a line. -/
def Core.missOf (c : Core) (ln : Nat) : Option MissBuf := c.miss.find? fun b => b.ln == ln && !b.instr

/-- The blocking load still waits for its data units (R149, R153). -/
def Core.blocked (c : Core) (b : Block) : Bool := match c.missOf b.ln with | some m => !(m.covers b.low b.high) | none => false

/-- An event of R153 has come: the blocking load's bytes, RA_EN cleared, or a pending event that is not masked. -/
def State.raOver (s : State) (k : CoreId) (r : RunAhead) : Bool :=
  !((s.core k).blocked r.block) || !(s.rb (.coreExecCtl k) 0) || s.asyncPending k

/-- Halt the core in its precise state (R135, R506). -/
def State.halt (s : State) (k : CoreId) : State :=
  let s := s.pmcSettle k
  let c := s.core k
  let s := s.setCore k { c with halted := true, haltReq := false, stepping := false, wfi := false }
  s.rgSet (.coreDbgCtl k) (setFld (setFld (setFld (s.rg (.coreDbgCtl k)) 8 8 1) 9 9 (b2n c.inner)) 0 0 0)

/-- What an instruction's own effect comes to: it completes, it raises an exception, or it does not proceed yet. -/
inductive Act where
  | done (s : State)
  | exc (e : Exc) (s : State)
  | stay (s : State)

/-- The core executes instructions: it is released, in CS0, neither halted nor waiting, its device stores of R219 are
drained, and the package has not stopped. -/
def State.runs (s : State) (k : CoreId) : Bool :=
  let c := s.core k
  !c.held && !c.halted && !c.wfi && c.cs == 0 && c.wait.isNone && !(c.drain && !c.dq.isEmpty) && !s.fatal

/-- A comparator whose WORLD, enable and address match (R507). -/
def State.bpMatches (s : State) (k : CoreId) (i : Nat) (lo len : Word) : Bool :=
  let ctl := s.rg (.coreBpCtl k (Fin.ofNat 16 i))
  let a := s.rg (.coreBpAddr k (Fin.ofNat 16 i))
  let m := fld ctl 7 3
  let c := s.core k
  bit ctl 0 && bit ctl 8 == c.inner && s.invasive (s.pidOf k) c.inner &&
    decide (lo.toNat / 2 ^ m ≤ a.toNat / 2 ^ m ∧ a.toNat / 2 ^ m ≤ (lo.toNat + len.toNat - 1) / 2 ^ m)

/-- The hardware instruction breakpoint that matches the instruction at the pc (R507, comparators 0–7). -/
def State.bpHit (s : State) (k : CoreId) : Option Nat :=
  if s.regs.isEmpty then none else (List.range 8).find? fun i => s.bpMatches k i (s.core k).pc 1

/-- The data watchpoint that matches an access (R507, comparators 8–15). -/
def State.wpHit (s : State) (k : CoreId) (va : Word) (n : Nat) (read write : Bool) : Option Nat :=
  if s.regs.isEmpty then none else
  (List.range 8).findSome? fun j =>
    let i := j + 8
    let acc := fld (s.rg (.coreBpCtl k (Fin.ofNat 16 i))) 2 1
    if ((read && acc % 2 == 1) || (write && decide (2 ≤ acc))) && s.bpMatches k i va (BitVec.ofNat 64 n) then some i else none

/-- What a breakpoint or watchpoint match comes to: a halt under HALT_ON_BP, otherwise CAUSE 0x10 (R507). -/
def State.bpAct (s : State) (k : CoreId) (i : Nat) (write : Bool) (va : Word) : Act :=
  if s.rb (.coreDbgCtl k) 3 then .stay (s.halt k) else .exc (Exc.of 0x10 (i + b2n write * 16) va) s

/-- The registers an instruction names, for the INV marks of run-ahead (R150, R151). -/
inductive RegName where
  | d (n : Nat)
  | a (n : Nat)
  | q (n : Nat)
  deriving DecidableEq, Repr

def RunAhead.isInv (r : RunAhead) : RegName → Bool
  | .d n => n != 0 && r.invD.contains n
  | .a n => r.invA.contains n
  | .q n => r.invQ.contains n

def RunAhead.mark (r : RunAhead) (inv : Bool) : RegName → RunAhead
  | .d n => { r with invD := if inv then insertNat n r.invD else r.invD.filter (· != n) }
  | .a n => { r with invA := if inv then insertNat n r.invA else r.invA.filter (· != n) }
  | .q n => { r with invQ := if inv then insertNat n r.invQ else r.invQ.filter (· != n) }

/-- How an instruction acts in run-ahead (R151): it computes from sources to destinations, makes
its destinations invalid, has no effect, or stops it. -/
inductive RaMode where
  | comp (srcs dsts : List RegName)
  | inv (dsts : List RegName)
  | nop
  | stop

/-- One pseudo-retired instruction (R150, R152). -/
def RunAhead.tickOne (r : RunAhead) : RunAhead := { r with count := r.count + 1, stop := r.stop || decide (2048 ≤ r.count + 1) }

/-- Run one instruction of core `k`, `len` bytes long: the readiness of the core, hardware breakpoints, the run-ahead
reading, and the effect `body` with its exceptions; an instruction that completes retires (R156–R158, R512). -/
def State.runBody (s : State) (k : CoreId) (len : Nat) (mode : RaMode) (body : State → Act) : State :=
  let c := s.core k
  if !(s.runs k) then s else
  match c.ra with
  | some r =>
    if s.asyncPending k then s.raExit k
    else if r.stop then s else
    match mode with
    | .stop => s.setCore k { c with ra := some { r with stop := true } }
    | .nop => s.setCore k { (c.adv len) with ra := some r.tickOne }
    | .inv dsts => s.setCore k { (c.adv len) with ra := some (dsts.foldl (fun r n => r.mark true n) r.tickOne) }
    | .comp srcs dsts =>
      if srcs.any r.isInv then
        s.setCore k { (c.adv len) with ra := some (dsts.foldl (fun r n => r.mark true n) r.tickOne) }
      else
        match body s with
        | .done s' => s'.setCore k { (s'.core k) with ra := some (dsts.foldl (fun r n => r.mark false n) r.tickOne) }
        | _ => s.setCore k { c with ra := some { r with stop := true } }
  | none =>
    let act := match s.bpHit k with
      | some i => s.bpAct k i false c.pc
      | none => body s
    match act with
    | .stay s' => s'
    | .exc e s' => if s.asyncPending k then s else s'.takeExc k e (len == 4)
    | .done s' =>
      let s' := (s'.count k 0x02 1 c.pl c.inner).smplClose k c.pc 0
      if c.stepping then s'.halt k else s'

/-- Run one instruction, and answer the snoops whose deferral it ended (R220). -/
def State.run (s : State) (k : CoreId) (len : Nat) (mode : RaMode) (body : State → Act) : State :=
  (s.runBody k len mode body).settleSnoops

/-- An encoding that raises illegal-instruction (R77, R85, R89, R91, R93, R95). -/
def State.illegal (s : State) (k : CoreId) (len : Nat) : State := s.run k len .stop fun s => .exc excIllegal s

/-- Run an instruction that only computes on the core's registers. -/
def State.compute (s : State) (k : CoreId) (len : Nat) (srcs dsts : List RegName) (f : Core → Core) : State :=
  s.run k len (.comp srcs dsts) fun s => .done (s.setCore k ((f (s.core k)).adv len))

end Sys2Proof.Machine
end

