-- ==== Sys2Proof/Machine/Translate.lean ====
section
/-! DEFINITION. Address translation and protection (R171–R195), and the granule map and firewall behind it (R49, R51). -/

namespace Sys2Proof.Machine

/-- How an access is checked (R180). -/
inductive Kind where
  | read | write | exec | rw
  deriving DecidableEq, Repr

def Kind.reads : Kind → Bool
  | .read | .rw => true
  | _ => false
def Kind.writes : Kind → Bool
  | .write | .rw => true
  | _ => false
/-- The write flag of R180 for a fault that is not found by a read check. -/
def Kind.flag (k : Kind) : Nat := b2n k.writes

/-! ## The granule map and the firewall (R49, R51, R6) -/

/-- A PPA in the MMIO window (R6). -/
def inMmio (ppa : Nat) : Bool := decide (0xFFF000000000 ≤ ppa ∧ ppa < 2 ^ 48)

/-- The bank of a Facet's copy (R42, R49). -/
def State.facetBank (s : State) (f : FacetId) (cls : Nat) : Bool :=
  (s.facets.get Facet.empty f.val).active.getLsbD cls

/-- External abort statuses (R163). -/
def stNoGranule := 0x01
def stWorld := 0x02
def stPidMismatch := 0x03
def stDeviceTimeout := 0x04
def stUnavailable := 0x05
def stPoison := 0x06
def stDeviceError := 0x07

/-- The Facet fabric's check of a PPA: the DA, or the refusal's status; the refusal of an access that is not
speculative is logged (R51, R52, R148). -/
def State.firewall (s : State) (k : CoreId) (ppa : Nat) (inner spec : Bool) : Nat ⊕ (Nat × State) :=
  let p := s.pidOf k
  match s.gmapPpa (s.facetBank (facetOf (clusterOf k)) 2) p (ppa / 2 ^ 30) with
  | none => .inr (stNoGranule, if spec then s else s.bbCoal 0x7030 p k.val (ppa / 4096))
  | some v =>
    if bit v 1 && !inner then .inr (stWorld, if spec then s else s.bbCoal 0x7031 p k.val (ppa / 4096))
    else .inl (fld v 51 30 * 2 ^ 30 + ppa % 2 ^ 30)

/-! ## Results -/

/-- The outcome of an operation on the way to memory: a value, an exception, or a wait for a transaction. -/
inductive Res (α : Type) where
  | ok (a : α) (s : State)
  | exc (e : Exc) (s : State)
  | wait (s : State)

/-- Go on with a value. -/
def Res.bind {α β : Type} (r : Res α) (f : α → State → Res β) : Res β :=
  match r with
  | .ok a s => f a s
  | .exc e s => .exc e s
  | .wait s => .wait s

/-- The context of an access: the core, its level and world, the translation registers in use, the address and kind,
whether it is a fetch, and whether it is speculative (run-ahead); `io`: the access is an IOT's, for that partition (R378). -/
structure Ctx where
  k     : CoreId
  pl    : Level
  inner : Bool
  tr    : TrRegs
  va    : Nat
  kind  : Kind
  spec  : Bool
  io    : Option Pid
  deriving DecidableEq, Repr

def Ctx.s1On (c : Ctx) : Bool := bit c.tr.s1Ctl 0
def Ctx.s2On (c : Ctx) : Bool := bit c.tr.s2Ctl 0 && !c.inner
def Ctx.flat (c : Ctx) : Bool := decide (2 ≤ c.pl.val)

/-- CAUSE of a translation or permission fault: 0x0A for a fetch, 0x0B for data (R162). -/
def Ctx.cause (c : Ctx) : Nat := if c.kind = .exec then 0x0A else 0x0B

/-- A stage-1, flat or untranslated fault (R188–R191). -/
def Ctx.fault1 (c : Ctx) (fsc lvl flag aux : Nat) : Exc :=
  Exc.of c.cause (fsc + flag * 2 ^ 8 + lvl * 2 ^ 9 + aux * 2 ^ 12) (BitVec.ofNat 64 c.va)

/-- A stage-2 fault, of a walk's read or of the final IPA (R188). -/
def Ctx.fault2 (c : Ctx) (fsc lvl flag aux ipa : Nat) (walk : Bool) : Exc :=
  { cause := c.cause, info := fsc + 2 ^ 6 + flag * 2 ^ 8 + lvl * 2 ^ 9 + aux * 2 ^ 12, walk := walk, addr := BitVec.ofNat 64 ipa,
    s2 := true, tgt := none, skip := 0 }

/-- A leaf reached by a walk: the entry and its level. -/
structure Leaf where
  e   : Word
  lvl : Nat
  deriving DecidableEq, Repr

/-- The low address bit of a level's index (R173). -/
def lvlLo (lvl : Nat) : Nat := 12 + 9 * (4 - lvl)

/-- Reserved encodings of a stage-1 entry (R175). -/
def reserved1 (e : Word) (lvl : Nat) : Bool :=
  if bit e 1 then decide (lvl = 4) || fld e 11 2 != 0
  else decide (lvl ≤ 1) || fld e 3 2 == 3 || bit e 7 || (lvl == 3 && fld e 20 12 != 0) || (lvl == 2 && fld e 29 12 != 0)

/-- Reserved encodings of a stage-2 entry (R175). -/
def reserved2 (e : Word) (lvl : Nat) : Bool :=
  if bit e 1 then decide (lvl = 4) || fld e 11 2 != 0
  else decide (lvl ≤ 1) || fld e 3 2 == 3 || bit e 7 || bit e 10 || fld e 56 48 != 0
    || (lvl == 3 && fld e 20 12 != 0) || (lvl == 2 && fld e 29 12 != 0)

/-- The page number that a leaf gives for an input page (the offset bits below the leaf size come from the input). -/
def leafOut (l : Leaf) (page : Nat) : Nat :=
  let n := 2 ^ (lvlLo l.lvl - 12)
  fld l.e 56 12 / n * n + page % n

/-- The stage-2 space of an access (R195). -/
def Ctx.space (c : Ctx) : Bool × Bool × BitVec 8 :=
  if c.inner then (true, false, 0) else (false, bit c.tr.s2Ctl 0, BitVec.ofNat 8 (fld c.tr.s2Ctl 23 16))

/-- RDO of 8 bytes of a line: it waits behind the line's open transaction (R237, R246). -/
def rdoRead (p : Pid) (da : Nat) (s : State) : Res (Nat ⊕ Word) :=
  if !(s.lineQuiet (da / 64)) then .wait s
  else match s.rdo (da / 64) p with
    | ((d, poi), s) => if poi then .ok (.inl stPoison) s else .ok (.inr (BitVec.ofNat 64 (lineGet d (da % 64) 8))) s

/-- A read of 8 bytes by an agent that caches nothing, in a world of a partition: the newest data, or the refusal's status
(R51, R246, R375). -/
def ioRead (p : Pid) (inner : Bool) (pa : Nat) (s : State) : Res (Nat ⊕ Word) :=
  match s.gmapPpa (s.bank 2) p (pa / 2 ^ 30) with
  | none => .ok (.inl stNoGranule) s
  | some v =>
    if bit v 1 && !inner then .ok (.inl stWorld) s
    else if s.refused.contains p.val then .ok (.inl stUnavailable) s
    else rdoRead p (fld v 51 30 * 2 ^ 30 + pa % 2 ^ 30) s

/-- A read by a core of bytes of a line as they now are: no later read of it gives anything older (R203). -/
def Core.saw (c : Core) (ln : Nat) (m : BitVec 64) : Core :=
  { c with stale := c.stale.map fun x => if x.ln = ln then { x with dead := x.dead ||| m } else x }

def State.saw (s : State) (k : CoreId) (ln : Nat) (m : BitVec 64) : State :=
  if (s.core k).stale.isEmpty then s else s.setCore k ((s.core k).saw ln m)

/-- One read of a table entry by the walker: a normal cacheable read through the cluster's L2 (R185), or by the IOT through the
home. -/
def walkRead (c : Ctx) (pa : Nat) (s : State) : Res (Nat ⊕ Word) :=
  match c.io with
  | some p => ioRead p c.inner pa s
  | none =>
  match s.firewall c.k pa c.inner c.spec with
  | .inr (st, s) => .ok (.inl st) s
  | .inl da =>
    let p := s.pidOf c.k
    let ln := da / 64
    if s.refused.contains p.val then .ok (.inl stUnavailable) s else
    let s := s.saw c.k ln (byteMask (da % 64) 8)
    if s.l2State (clusterOf c.k) = 2 then (if s.reqHold (clusterOf c.k) then .wait s else rdoRead p da s)
    else
      match s.fetchShared c.k ln p c.inner with
      | (s, false) => .wait s
      | (s, true) =>
        let s := s.l2Check ln (clusterOf c.k)
        match s.copy ln (clusterOf c.k) with
        | none => .wait s
        | some cp => if cp.poison then .ok (.inl stPoison) s else .ok (.inr (BitVec.ofNat 64 (lineGet cp.data (da % 64) 8))) s

/-- A walk-cache entry for a table entry at `ea` (R195). -/
def Ctx.wcKey (c : Ctx) (stage ea : Nat) (desc : Word) : WcEnt :=
  { stage := stage, space := c.space, inner := c.inner, root := if stage = 1 then c.tr.s1Root else 0, ea := ea, desc := desc }

/-- The cached descriptor, unless the walk is a fresh one (R183). -/
def State.wcFind (s : State) (c : Ctx) (fresh : Bool) (stage ea : Nat) : Option Word :=
  if fresh then none else ((s.core c.k).wc.find? fun w => w == c.wcKey stage ea w.desc).map (·.desc)

def State.wcAdd (s : State) (c : Ctx) (stage ea : Nat) (desc : Word) : State :=
  let w := c.wcKey stage ea desc
  let cr := s.core c.k
  if c.io.isSome || cr.wc.contains w then s
  else s.setCore c.k { cr with wc := w :: cr.wc.filter fun x => x != c.wcKey stage ea x.desc }

/-- The stage-2 walk of an IPA from `lvl` (R184): the leaf. `walk`: the IPA is a stage-1 table entry's. -/
def walk2 (c : Ctx) (fresh walk : Bool) (ipa : Nat) : Nat → Nat → Nat → State → Res Leaf
  | 0, _, _, s => .wait s
  | fuel + 1, lvl, tbl, s =>
    let flag := if walk then 0 else c.kind.flag
    let flt (fsc aux : Nat) : Exc := c.fault2 fsc lvl flag aux ipa walk
    let ea := tbl + 8 * (ipa / 2 ^ lvlLo lvl % 512)
    let go (e : Word) (cached : Bool) (s : State) : Res Leaf :=
      if !(bit e 0) then .exc (flt 0x04 0) s
      else if reserved2 e lvl then .exc (flt 0x05 0) s
      else if bit e 1 then
        if fld e 56 48 ≠ 0 then .exc (flt 0x09 0) s
        else walk2 c fresh walk ipa fuel (lvl + 1) (fld e 47 12 * 4096) (if cached then s else s.wcAdd c 2 ea e)
      else .ok ⟨e, lvl⟩ s
    match s.wcFind c fresh 2 ea with
    | some e => go e true s
    | none =>
      if inMmio ea then .exc (flt 0x18 0) s
      else (walkRead c ea s).bind fun r s =>
        match r with
        | .inl st => .exc (flt 0x19 st) s
        | .inr e => go e false s

/-- The start of a stage-2 walk: LEVELS 3 and the input width (R172, R176, R184). -/
def translate2 (c : Ctx) (fresh walk : Bool) (ipa : Nat) (s : State) : Res Leaf :=
  let w := fld c.tr.s2Ctl 2 1
  let flag := if walk then 0 else c.kind.flag
  if w = 3 then .exc (c.fault2 0x05 0 flag 0 ipa walk) s
  else if 2 ^ (39 + 9 * w) ≤ ipa then .exc (c.fault2 0x08 (2 - w) flag 0 ipa walk) s
  else walk2 c fresh walk ipa 6 (2 - w) (fld c.tr.s2Root 47 12 * 4096) s

/-- Stage-2 leaf checks: permission, accessed, dirty (R179, R182); `walkAcc`: a stage-1 walk's read. -/
def check2 (c : Ctx) (l : Leaf) (ipa : Nat) (walk dev : Bool) : Option Exc :=
  let flag := if walk then 0 else c.kind.flag
  let flt (fsc fl : Nat) : Option Exc := some (c.fault2 fsc l.lvl fl 0 ipa walk)
  let rd := walk || c.kind.reads
  let wr := !walk && c.kind.writes
  let ex := !walk && c.kind == .exec
  if rd && !(bit l.e 4) then flt 0x0C 0
  else if wr && !(bit l.e 5) then flt 0x0D flag
  else if ex && (!(bit l.e 6) || dev) then flt 0x0E 0
  else if !(bit l.e 8) then flt 0x14 flag
  else if wr && !(bit l.e 9) then flt 0x15 flag
  else none

/-- The output width of stage 1: the IPA width where stage 2 follows, otherwise 48 (R173). -/
def Ctx.out1 (c : Ctx) : Nat := if c.s2On then 39 + 9 * fld c.tr.s2Ctl 2 1 else 48

/-- The address of a stage-1 table entry after stage 2 (R184, R188). -/
def tableAddr (c : Ctx) (fresh : Bool) (ea : Nat) (s : State) : Res Nat :=
  if c.s2On then
    (translate2 c fresh true ea s).bind fun l s =>
      match check2 c l ea true false with
      | some e => .exc e s
      | none => .ok (leafOut l (ea / 4096) * 4096 + ea % 4096) s
  else .ok ea s

/-- The stage-1 walk of a VA from `lvl` (R184): the leaf. -/
def walk1 (c : Ctx) (fresh : Bool) : Nat → Nat → Nat → State → Res Leaf
  | 0, _, _, s => .wait s
  | fuel + 1, lvl, tbl, s =>
    let flt (fsc aux : Nat) : Exc := c.fault1 fsc lvl c.kind.flag aux
    let ea := tbl + 8 * (c.va / 2 ^ lvlLo lvl % 512)
    let go (e : Word) (cached : Bool) (s : State) : Res Leaf :=
      if !(bit e 0) then .exc (flt 0x04 0) s
      else if reserved1 e lvl then .exc (flt 0x05 0) s
      else if 2 ^ (c.out1 - 12) ≤ fld e 56 12 then .exc (flt 0x09 0) s
      else if bit e 1 then walk1 c fresh fuel (lvl + 1) (fld e 56 12 * 4096) (if cached then s else s.wcAdd c 1 ea e)
      else .ok ⟨e, lvl⟩ s
    match s.wcFind c fresh 1 ea with
    | some e => go e true s
    | none =>
      (tableAddr c fresh ea s).bind fun pa s =>
        if inMmio pa then .exc (flt 0x18 0) s
        else (walkRead c pa s).bind fun r s =>
          match r with
          | .inl st => .exc (flt 0x19 st) s
          | .inr e => go e false s

/-- The start of a stage-1 walk: LEVELS 3, the input width and the root (R172, R176, R184). -/
def translate1 (c : Ctx) (fresh : Bool) (s : State) : Res Leaf :=
  let w := fld c.tr.s1Ctl 2 1
  if w = 3 then .exc (c.fault1 0x05 0 c.kind.flag 0) s
  else if 2 ^ (39 + 9 * w) ≤ c.va then .exc (c.fault1 0x08 (2 - w) c.kind.flag 0) s
  else if 2 ^ (c.out1 - 12) ≤ fld c.tr.s1Root 56 12 then .exc (c.fault1 0x09 (2 - w) c.kind.flag 0) s
  else walk1 c fresh 6 (2 - w) (fld c.tr.s1Root 56 12 * 4096) s

/-- Stage-1 leaf checks: permission, protection key, accessed, dirty (R178, R181, R182). `lastDev`: a fetch whose type is
device where stage 1 is the last stage (R179). -/
def check1 (c : Ctx) (pkey : Word) (l : Leaf) (lastDev : Bool) : Option Exc :=
  let e := l.e
  let u := bit e 4
  let flt (fsc fl aux : Nat) : Option Exc := some (c.fault1 fsc l.lvl fl aux)
  let key := fld e 60 57
  let flag := c.kind.flag
  if c.kind.reads && c.pl == 0 && !u then flt 0x0C 0 0
  else if c.kind.writes && !(bit e 5 && (c.pl != 0 || u)) then flt 0x0D flag 0
  else if c.kind == .exec && (!(bit e 6 && (u == (c.pl == 0))) || lastDev) then flt 0x0E 0 0
  else if c.kind.reads && bit pkey (2 * key) then flt 0x10 0 key
  else if c.kind.writes && bit pkey (2 * key + 1) then flt 0x10 flag key
  else if !(bit e 8) then flt 0x14 flag 0
  else if c.kind.writes && !(bit e 9) then flt 0x15 flag 0
  else none

/-- The two leaves of an access, where their stages apply, and the PPA (R177, R184). -/
structure Leaves where
  l1  : Option Leaf
  l2  : Option Leaf
  ppa : Nat
  deriving DecidableEq, Repr

/-- The IPA after stage 1. -/
def Leaves.ipa (l : Leaves) (va : Nat) : Nat :=
  match l.l1 with
  | some x => leafOut x (va / 4096) * 4096 + va % 4096
  | none => va

/-- Device type (R177 rule 1). -/
def Leaves.dev (l : Leaves) : Bool := inMmio l.ppa

/-- Normal cacheable (R177 rules 2 and 3). -/
def Leaves.cacheable (l : Leaves) : Bool :=
  let ok (x : Option Leaf) : Bool := match x with | some y => fld y.e 3 2 == 0 | none => true
  ok l.l1 && ok l.l2

/-- Walk both stages to their leaves. A structural fault of stage 2 on the final IPA gives way to the leaf checks of
stage 1, which come before it (R190). -/
def walkBoth (c : Ctx) (fresh : Bool) (pkey : Word) (s : State) : Res Leaves :=
  let stage2 (l1 : Option Leaf) (ipa : Nat) (s : State) : Res Leaves :=
    if c.s2On then
      match translate2 c fresh false ipa s with
      | .ok l s => .ok ⟨l1, some l, leafOut l (ipa / 4096) * 4096 + ipa % 4096⟩ s
      | .wait s => .wait s
      | .exc e s =>
        match l1.bind fun l => check1 c pkey l false with
        | some e1 => .exc e1 s
        | none => .exc e s
    else if 2 ^ 48 ≤ ipa then .exc (c.fault1 0x08 0 c.kind.flag 0) s
    else .ok ⟨l1, none, ipa⟩ s
  if c.flat then (if 2 ^ 48 ≤ c.va then .exc (c.fault1 0x08 0 c.kind.flag 0) s else .ok ⟨none, none, c.va⟩ s)
  else if c.s1On then
    (translate1 c fresh s).bind fun l s => stage2 (some l) (leafOut l (c.va / 4096) * 4096 + c.va % 4096) s
  else stage2 none c.va s

/-- The checks at the leaves (R190 items 2 and 3). -/
def checkLeaves (c : Ctx) (pkey : Word) (l : Leaves) : Option Exc :=
  let devX := c.kind == .exec && l.dev
  match l.l1, l.l2 with
  | some a, some b => (check1 c pkey a false).or (check2 c b (l.ipa c.va) false devX)
  | some a, none => check1 c pkey a devX
  | none, some b => check2 c b (l.ipa c.va) false devX
  | none, none => if devX then some (c.fault1 0x0E 0 0 0) else none

/-! ## The TLB (R169, R183, R193–R195) -/

/-- The pages of a leaf; of its contiguous block where C is 1. -/
def Leaf.pages (l : Leaf) : Nat := 2 ^ (lvlLo l.lvl - 12)
def Leaf.block (l : Leaf) : Nat := if bit l.e 11 then 16 * l.pages else l.pages

/-- The output page of an input page inside the leaf's block (R194). -/
def Leaf.blockOut (l : Leaf) (page : Nat) : Nat := fld l.e 56 12 / l.block * l.block + page % l.block

/-- The entry that a walk gives (R193, R194, R69: a stage-1 block shares a slot only under one stage-2 leaf or block). -/
def tlbMake (c : Ctx) (l : Leaves) : TlbEnt :=
  let page := c.va / 4096
  let n : Nat := match l.l1, l.l2 with
    | some a, some b => if a.block ≤ b.block then a.block else min a.pages b.block
    | some a, none => a.block
    | none, some b => b.block
    | none, none => 1
  let base := page / n * n
  let mid := match l.l1 with | some a => (if a.block = n then a.blockOut base else leafOut a base) | none => base
  let out := match l.l2 with | some b => b.blockOut mid | none => mid
  { stage := (if l.l1.isSome then 1 else 0) + (if l.l2.isSome then 2 else 0),
    asid := match l.l1 with
      | some a => if bit a.e 10 then none else some (BitVec.ofNat 16 (fld c.tr.s1Ctl 31 16))
      | none => none
    space := c.space, inner := c.inner, root := if l.l1.isSome && l.l2.isSome then c.tr.s1Root else 0,
    base := base, pages := n, out := out, leaf1 := l.l1.map (·.e), lvl1 := (l.l1.map (·.lvl)).getD 0,
    leaf2 := l.l2.map (·.e), lvl2 := (l.l2.map (·.lvl)).getD 0 }

/-- An entry that an access may use (R169, R195). -/
def Ctx.uses (c : Ctx) (t : TlbEnt) : Bool :=
  t.inner == c.inner && t.space == c.space && t.stage == (if c.s1On then 1 else 0) + (if c.s2On then 2 else 0) &&
  (t.asid.isNone || t.asid == some (BitVec.ofNat 16 (fld c.tr.s1Ctl 31 16))) &&
  (t.stage != 3 || t.root == c.tr.s1Root) && decide (t.base ≤ c.va / 4096 ∧ c.va / 4096 < t.base + t.pages)

/-- The leaves an entry stands for, at an address. -/
def TlbEnt.leaves (t : TlbEnt) (va : Nat) : Leaves :=
  { l1 := t.leaf1.map fun e => ⟨e, t.lvl1⟩, l2 := t.leaf2.map fun e => ⟨e, t.lvl2⟩,
    ppa := (t.out + (va / 4096 - t.base)) * 4096 + va % 4096 }

/-- The first `n` entries of a list that a test accepts, and all others. -/
def keepFirst {α : Type} (f : α → Bool) : Nat → List α → List α
  | _, [] => []
  | n, x :: t => if f x then (match n with | 0 => keepFirst f 0 t | n + 1 => x :: keepFirst f n t) else x :: keepFirst f n t

/-- The set of the L2 TLB that an entry occupies: 256 sets of 12 ways (R169; the index is the model's choice, log 80). -/
def TlbEnt.set_ (t : TlbEnt) : Nat := t.base / t.pages % 256

/-- The L1 TLB of an access: the ITLB for a fetch, otherwise the DTLB (R169). -/
def Core.l1Tlb (c : Core) (x : Ctx) : List TlbEnt := if x.kind = .exec then c.itlb else c.dtlb

/-- An entry enters the L1 TLB of its access, which holds 64; the oldest leaves (R169; the order is the model's choice, log 80). -/
def Core.l1TlbPut (c : Core) (x : Ctx) (t : TlbEnt) : Core :=
  let l := (t :: (c.l1Tlb x).filter fun y => !(x.uses y)).take 64
  if x.kind = .exec then { c with itlb := l } else { c with dtlb := l }

/-- The entry of a walk enters the L1 TLB of its access and the L2 TLB, in place of what the access could have used (R169, R193). -/
def Core.tlbEnter (c : Core) (x : Ctx) (t : TlbEnt) : Core :=
  let c := c.l1TlbPut x t
  { c with tlb := keepFirst (fun y => y.set_ == t.set_) 12 (t :: c.tlb.filter fun y => !(x.uses y)) }

/-- The entry that an access finds in its L1 TLB, otherwise in the L2 TLB (R169). -/
def Core.tlbFind (c : Core) (x : Ctx) : Option TlbEnt := ((c.l1Tlb x).find? x.uses).or (c.tlb.find? x.uses)

/-- A hit in the L2 TLB enters the L1 TLB. -/
def State.tlbHit (s : State) (x : Ctx) (t : TlbEnt) : State :=
  if ((s.core x.k).l1Tlb x).any x.uses then s else s.setCore x.k ((s.core x.k).l1TlbPut x t)

/-- A stage that is on has the reserved encoding of LEVELS: every translation faults (R172). -/
def Ctx.badLevels (c : Ctx) : Bool := (c.s1On && fld c.tr.s1Ctl 2 1 == 3) || (c.s2On && fld c.tr.s2Ctl 2 1 == 3)

/-- Whether a type-dependent check refuses the access once the leaves are known (R107, R117, R125, R128): given the type,
the exception. -/
abbrev TypeCheck := Leaves → Option Exc

/-- The leaves of an access and its checks, in the order of R157 and R190, through the TLB with the fresh walk of R183. -/
def translate (c : Ctx) (pkey : Word) (tc : TypeCheck) (s : State) : Res Leaves :=
  let verdict (l : Leaves) : Option Exc := (tc l).or (checkLeaves c pkey l)
  let slow (fresh : Bool) (s : State) : Res Leaves :=
    match walkBoth c fresh pkey s with
    | .wait s => .wait s
    | .exc e s => .exc e s
    | .ok l s =>
      match verdict l with
      | some e => .exc e s
      | none =>
        if c.flat || (l.l1.isNone && l.l2.isNone) then .ok l s
        else .ok l (s.setCore c.k ((s.core c.k).tlbEnter c (tlbMake c l)))
  if c.flat || c.badLevels then slow false s
  else match (s.core c.k).tlbFind c with
    | some t =>
      -- the IPA of the entry's page is only needed for a fault, which the fresh walk raises
      match verdict (t.leaves c.va) with
      | none => .ok (t.leaves c.va) (s.tlbHit c t)
      | some _ => slow true s
    | none => slow false s

/-- The translation registers in use: while an MTS is not yet in effect, the old four or the new four (R172). -/
def State.trRegs (s : State) (k : CoreId) : TrRegs × State :=
  let c := s.core k
  let new : TrRegs := { s1Root := c.rsys Srn.s1Root, s1Ctl := c.rsys Srn.s1Ctl, s2Root := c.rsys Srn.s2Root, s2Ctl := c.rsys Srn.s2Ctl }
  match c.trOld with
  | none => (new, s)
  | some old => let (b, s) := s.drawBool; (if b then new else old, s)

end Sys2Proof.Machine
end

