-- ==== Sys2Proof/Machine/Access.lean ====
section
/-! DEFINITION. The accesses of a core to memory and to devices (R106–R109, R117, R164–R168, R203–R209, R225, R257, R258):
loads with forwarding, stores into the queues, and the run-ahead readings of both. -/

namespace Sys2Proof.Machine

/-! ## Imprecise aborts (R217) -/

/-- An imprecise external abort for a core (R217): one is kept pending; further ones are recorded only by their event. In
CS1, CS2 and CS3 it is held in the Locus and wakes the core; of a core that is held in reset, or that has been reset since the access was
issued (`since`), it is reported as a UCR. -/
def State.abortArrives (s : State) (k : CoreId) (ab : Abort) (since : Bool) : State :=
  let c := s.core k
  if c.held || since then
    (s.bb 0x7041 (some (s.pidOf k)) k.val (ab.ppa / 4096 + ab.status.toNat * 2 ^ 40)).rasPush (s.pidOf k) 0x7041 false ab.ppa k.val
  else if c.abort.isSome || (s.wakeAb.get none k.val).isSome then s
  else if 1 ≤ c.cs.val then { s with wakeAb := s.wakeAb.set none k.val (some ab) }
  else s.setCore k { c with abort := some ab }

/-! ## Acknowledging a TLBI (R197) -/

/-- The acknowledgements that wait for nothing any more are sent. -/
def State.tlbAck (s : State) : State :=
  if s.tlbOwed.isEmpty then s else
  (s.tlbOwed.filter fun x => x.sq.isEmpty && x.dq.isEmpty).foldl (fun (s : State) x => s.send .tlba x.ack)
    { s with tlbOwed := s.tlbOwed.filter fun x => !(x.sq.isEmpty && x.dq.isEmpty) }

/-- One entry of a core's store queue, or one of its device accesses, has been performed. -/
def State.tlbPop (s : State) (k : CoreId) (dev : Bool) : State :=
  if s.tlbOwed.isEmpty then s else
  let less (t : Tbl Nat) : Tbl Nat := t.set 0 k.val (t.get 0 k.val - 1)
  let l := s.tlbOwed.map fun x => ({ x with sq := if dev then x.sq else less x.sq, dq := if dev then less x.dq else x.dq } : TlbOwed)
  State.tlbAck { s with tlbOwed := l }

/-- A core's queues are discarded. -/
def State.tlbDrop (s : State) (k : CoreId) : State :=
  if s.tlbOwed.isEmpty then s else
  let l := s.tlbOwed.map fun x => ({ x with sq := x.sq.set 0 k.val 0, dq := x.dq.set 0 k.val 0 } : TlbOwed)
  State.tlbAck { s with tlbOwed := l }

/-! ## Parts of an access -/

/-- A part of an access inside one page: VA, PPA, bytes, leaves. -/
structure Part where
  va  : Nat
  ppa : Nat
  n   : Nat
  dev : Bool
  cacheable : Bool
  deriving DecidableEq, Repr

/-- The context of a core's access (R171). -/
def mkCtx (c : Core) (k : CoreId) (tr : TrRegs) (va : Nat) (kind : Kind) (spec : Bool) : Ctx :=
  { k := k, pl := c.pl, inner := c.inner, tr := tr, va := va, kind := kind, spec := spec, io := none }

/-- CAUSE 0x04, data-alignment, and 0x05, unsupported-access (R162, R180). -/
def excAlign (va : Nat) (kind : Kind) : Exc := Exc.of 0x04 (kind.flag * 2 ^ 8) (BitVec.ofNat 64 va)
def excUnsupported (va : Nat) (kind : Kind) : Exc := Exc.of 0x05 (kind.flag * 2 ^ 8) (BitVec.ofNat 64 va)
/-- CAUSE 0x0D, a precise external abort on data (R162, R163). -/
def excAbort (va st wr : Nat) : Exc := Exc.of 0x0D (st + wr * 2 ^ 8) (BitVec.ofNat 64 va)

/-- Translate one part. -/
def xlatePart (c : Core) (k : CoreId) (tr : TrRegs) (kind : Kind) (spec : Bool) (tc : TypeCheck) (va n : Nat) (s : State) : Res Part :=
  (translate (mkCtx c k tr va kind spec) (c.rsys Srn.pkey) tc s).bind fun l s =>
    .ok { va := va, ppa := l.ppa, n := n, dev := l.dev, cacheable := l.cacheable } s

/-- Translate and check an access on each page it touches, the lower page first (R108). A check that depends on the type of a page is made
with that page, so a walk fault of the lower page comes before it and one of the upper page after: R190 gives no order between two
pages, and this is the model's choice (log 80). -/
def xlate (k : CoreId) (kind : Kind) (spec : Bool) (tc : TypeCheck) (va : Word) (n : Nat) (s : State) : Res (List Part) :=
  let c := s.core k
  let (tr, s) := s.trRegs k
  let a := va.toNat
  let n1 := min n (4096 - a % 4096)
  (xlatePart c k tr kind spec tc a n1 s).bind fun p s =>
    if n1 = n then .ok [p] s
    else (xlatePart c k tr kind spec tc ((a + n1) % 2 ^ 64) (n - n1) s).bind fun q s => .ok [p, q] s

/-- A device access must be aligned (R107). -/
def tcDevAligned (va n : Nat) (kind : Kind) : TypeCheck := fun l => if l.dev && va % n != 0 then some (excAlign va kind) else none
/-- A device access is not supported (R117, R125). -/
def tcNoDev (va : Nat) (kind : Kind) : TypeCheck := fun l => if l.dev then some (excUnsupported va kind) else none
/-- Only normal cacheable memory is supported (R128). -/
def tcCacheable (va : Nat) (kind : Kind) : TypeCheck := fun l => if l.dev || !l.cacheable then some (excUnsupported va kind) else none

/-- The firewall on every part that is not device (R51); device parts pass to the I/O bridge. -/
def fwParts (k : CoreId) (inner spec : Bool) : List Part → State → Res (List (Part × Nat))
  | [], s => .ok [] s
  | p :: t, s =>
    if p.dev then (fwParts k inner spec t s).bind fun r s => .ok ((p, 0) :: r) s
    else match s.firewall k p.ppa inner spec with
      | .inr (st, s) => .exc (excAbort p.va st 0) s
      | .inl da => (fwParts k inner spec t s).bind fun r s => .ok ((p, da) :: r) s

/-! ## The L1 caches and the victim cache (R164–R168) -/

/-- An access of a world may hit a line of a world: an outer one never hits an inner line (R164). -/
def L1Line.seenBy (l : L1Line) (ln : Nat) (inner : Bool) : Bool := l.ln == ln && (inner || !l.inner)

/-- The victim-cache entry that holds a line. -/
def Core.vcOf (c : Core) (ln : Nat) (inner : Bool) : Option (Nat × VcEnt) :=
  c.vc.findSome? fun e => match e.2 with | some v => if v.line.seenBy ln inner then some (e.1, v) else none | none => none

/-- The line is in the core's L1 data cache or victim cache. -/
def Core.holds (c : Core) (ln : Nat) (inner : Bool) : Bool := c.l1d.any (·.seenBy ln inner) || (c.vcOf ln inner).isSome

/-- The way that a line takes in its set of an L1 cache, and the line that leaves it: a free way, otherwise the one that the tree names. The
rule gives the policy of the data cache; the instruction cache takes the same one where a command names no line (log 79). -/
def l1Way (l : List L1Line) (set : Nat → Nat) (depth bits ln : Nat) : Nat × Option L1Line :=
  let peers := l.filter fun x => set x.ln == set ln
  match (List.range (2 ^ depth)).find? fun w => !(peers.any fun x => x.way == w) with
  | some w => (w, none)
  | none => let w := plruPick bits (fun _ => true) depth 1 0; (w, peers.find? fun x => x.way == w)

/-- A use of a way of the L1 data cache. -/
def Core.l1Touch (c : Core) (ln way : Nat) : Core :=
  { c with l1dLru := c.l1dLru.set 0 (l1dSet ln) (plruUse way 3 1 (c.l1dLru.get 0 (l1dSet ln))) }

/-- A line enters the L1 data cache; the line that it displaces is the second result. -/
def Core.l1Put (c : Core) (l : L1Line) : Core × Option L1Line :=
  let (w, out) := l1Way c.l1d l1dSet 3 (c.l1dLru.get 0 (l1dSet l.ln)) l.ln
  let rest := match out with | some o => c.l1d.filter (· != o) | none => c.l1d
  ({ c with l1d := { l with way := w } :: rest }.l1Touch l.ln w, out)

/-- The entry that a line inserted into the victim cache takes, and the ages after the search (R167): the lowest free one,
otherwise the lowest of age 3, the ages of all rising by one until there is one. -/
def vcSlot (vc : Tbl (Option VcEnt)) : Nat → Nat × Tbl (Option VcEnt)
  | 0 => (0, vc)
  | n + 1 =>
    match (List.range 48).find? fun i => (vc.get none i).isNone with
    | some i => (i, vc)
    | none =>
      match (List.range 48).find? fun i => match vc.get none i with | some v => v.age == 3 | none => false with
      | some i => (i, vc)
      | none => vcSlot (vc.mapVals none fun _ e => e.map fun v => { v with age := if v.age = 3 then 3 else v.age + 1 }) n

/-- The reservation rests on a line that has left the L1 data cache and the victim cache (R129). -/
def Core.resvLost (c : Core) (ln : Nat) : Core :=
  match c.resv with
  | some r => if r.ln = ln && !r.atHome && !(c.holds ln true) then { c with resv := none } else c
  | none => c

/-- Insert an evicted line into the victim cache (R167). A dirty line that leaves is in the L2 already, which holds the data; a reservation
on the line that leaves ends (R129). -/
def Core.vcInsert (c : Core) (l : L1Line) : Core :=
  let (i, vc) := vcSlot c.vc 4
  let out : Option VcEnt := vc.get none i
  let c := { c with vc := vc.set none i (some { line := l, age := if l.stream then 3 else 0 }) }
  match out with | some v => c.resvLost v.line.ln | none => c

/-- A line fills the L1 data cache, and the line that it displaces enters the victim cache (R164, R167). -/
def Core.l1Enter (c : Core) (l : L1Line) : Core :=
  match c.l1Put l with
  | (c, some o) => c.vcInsert o
  | (c, none) => c

/-- A demand access hits the L1 data cache or the victim cache: the streaming tag is kept only by QLOAD and by QACC with P = 1; in the
victim cache a read gets age 0 and stays, a write moves the line to the L1 data cache, whose displaced line takes the freed entry with age 0
(R166, R168); `dirty`: the line is written. -/
def Core.l1Use (c : Core) (ln : Nat) (inner stream write dirty : Bool) : Core :=
  match c.l1d.find? (·.seenBy ln inner) with
  | some l =>
    ({ c with l1d := c.l1d.map fun x => if x = l then { x with stream := x.stream && stream, dirty := x.dirty || dirty } else x }).l1Touch ln l.way
  | none =>
    match c.vcOf ln inner with
    | none => c
    | some (i, v) =>
      if write then
        match { c with vc := c.vc.set none i none }.l1Put { v.line with dirty := v.line.dirty || dirty, stream := v.line.stream && stream } with
        | (c, some o) => { c with vc := c.vc.set none i (some { line := o, age := 0 }) }
        | (c, none) => c
      else { c with vc := c.vc.set none i (some { v with age := 0, line := { v.line with stream := v.line.stream && stream } }) }

/-- Use a line of the L1. -/
def State.l1Use (s : State) (k : CoreId) (ln : Nat) (inner stream write dirty : Bool) : State :=
  s.setCore k ((s.core k).l1Use ln inner stream write dirty)

/-! ## Misses (R142, R148, R149, R152, R165) -/

/-- What an access that may miss needs beyond its bytes: its world, whether it is a QLOAD or a QACC with P = 1, and the destination and
length of the instruction. -/
structure Want where
  inner  : Bool
  stream : Bool
  dst    : RaDest
  len    : Nat

/-- A new miss buffer for bytes of a line: the responder sends first the half that holds the lowest of them (R165). -/
def missBuf (ln off : Nat) (w : Want) (write ra : Bool) (tick : Nat) : MissBuf :=
  { ln := ln, upper := decide (32 ≤ off), got := 0, write := write, instr := false, stream := w.stream, ra := ra, inner := w.inner, armed := tick }

/-- A demand miss takes one of the 48 miss buffers, if none holds its line yet, and trains the stream prefetcher on its page (R142, R148). -/
def State.demandMiss (s : State) (k : CoreId) (ln off : Nat) (w : Want) (write : Bool) : State :=
  let c := s.core k
  if (c.missOf ln).isSome || decide (48 ≤ c.miss.length) then s
  else s.setCore k { c with miss := c.miss ++ [missBuf ln off w write false s.tick],
                            spf := if s.rb (.coreExecCtl k) 2 then (ln / 64, w.inner) :: c.spf.filter (· != (ln / 64, w.inner)) else c.spf }

/-- A load at the pc waits for bytes of a line; where the lookup of the L2 has missed too, it is what run-ahead can begin behind (R149). -/
def State.loadMiss (s : State) (k : CoreId) (ln off n : Nat) (w : Want) : State :=
  let s := s.demandMiss k ln off w false
  let c := s.core k
  if (s.copy ln (clusterOf k)).isSome then s
  else s.setCore k { c with block := some { pc := c.pc, ln := ln, low := decide (off < 32), high := decide (32 < off + n), dst := w.dst, len := w.len } }

/-- A run-ahead prefetch takes a miss buffer of the 32 that run-ahead may use (R151, R152); a draining or drained L2 drops it (R257). -/
def State.raMiss (s : State) (k : CoreId) (ln off : Nat) (w : Want) : State :=
  let c := s.core k
  if c.holds ln w.inner || (c.missOf ln).isSome || s.l2State (clusterOf k) != 0 || decide (48 ≤ c.miss.length) ||
      decide (32 ≤ (c.miss.filter (·.ra)).length) then s
  else (s.setCore k { c with miss := c.miss ++ [missBuf ln off w false true s.tick] }).count k 0x08 1 c.pl c.inner

/-! ## Reading normal memory -/

/-- The lines and byte spans of `n` bytes from a device address. -/
def spans (da n : Nat) : List (Nat × Nat × Nat) :=
  let off := da % 64
  if off + n ≤ 64 then [(da / 64, off, n)] else [(da / 64, off, 64 - off), (da / 64 + 1, 0, off + n - 64)]

/-- Poison consumed by a core: event 0x7053 and one RAS record for the page (R484). -/
def State.poisonUsed (s : State) (k : CoreId) (ppa : Nat) : State :=
  let p := s.pidOf k
  (s.bbCoal 0x7053 p k.val (ppa / 4096)).rasPush p 0x7053 false ppa k.val

/-- The bytes of a span are there for a core: in its L1 data cache, in its victim cache, or in the data units of a miss (R165). -/
def Core.hasBytes (c : Core) (ln off n : Nat) (inner : Bool) : Bool :=
  c.holds ln inner || (match c.missOf ln with | some b => b.covers (decide (off < 32)) (decide (32 < off + n)) | none => false)

/-- Bytes of a line by RDO, for an access that caches nothing: it waits behind the line's open transaction and while the Facet holds new
requests (R29, R246, R258). -/
def rdoSpan (k : CoreId) (ln off n : Nat) (s : State) : Res (Nat × Bool) :=
  if !(s.lineQuiet ln) || s.reqHold (clusterOf k) then .wait s
  else match s.rdo ln (s.pidOf k) with
    | (d, s) => .ok (lineGet d.1 off n, d.2) (s.saw k ln (byteMask off n))

/-- Read `n` bytes inside one line for a core (R164–R166, R225, R227, R246, R257, R258): by RDO for non-cacheable memory and from a drained
cluster; otherwise from the L1, the victim cache or the data units of a miss, whose data the L2 holds; a draining L2 serves its hits
itself. -/
def readSpan (k : CoreId) (w : Want) (cacheable : Bool) (ln off n : Nat) (s : State) : Res (Nat × Bool) :=
  let g := clusterOf k
  if !cacheable || s.l2State g = 2 then rdoSpan k ln off n s
  else
    let s1 := s.l2Check ln g
    match s1.copy ln g with
    | some cp =>
      if cp.st.stable && ((s.core k).hasBytes ln off n w.inner || s.l2State g != 0) then
        .ok (lineGet cp.data off n, cp.poison) (((s1.l2Touch ln g).l1Use k ln w.inner w.stream false false).saw k ln (byteMask off n))
      else .wait (s.loadMiss k ln off n w)
    | none => .wait (s.loadMiss k ln off n w)

/-- Read the spans of a part, in address order; poison is a precise abort (R484). -/
def readSpans (k : CoreId) (w : Want) (p : Part) : List (Nat × Nat × Nat) → State → Res Nat
  | [], s => .ok 0 s
  | (ln, off, n) :: t, s =>
    (readSpan k w p.cacheable ln off n s).bind fun v s =>
      if v.2 then .exc (excAbort p.va stPoison 0) (s.poisonUsed k p.ppa)
      else (readSpans k w p t s).bind fun x s => .ok (v.1 + x * 2 ^ (8 * n)) s

/-- Read the parts of an access. -/
def readParts (k : CoreId) (w : Want) : List (Part × Nat) → State → Res Nat
  | [], s => .ok 0 s
  | (p, da) :: t, s =>
    (readSpans k w p (spans da p.n) s).bind fun v s =>
      (readParts k w t s).bind fun x s => .ok (v + x * 2 ^ (8 * p.n)) s

/-! ## Forwarding from the store queue (R208) -/

/-- Two byte ranges overlap. -/
def overlap (a n b m : Nat) : Bool := decide (a < b + m ∧ b < a + n)

/-- The bytes of a load that an entry holds. -/
def SqEnt.bytes (e : SqEnt) (ppa n : Nat) : Nat := if e.zero then 0 else e.data.toNat / 2 ^ (8 * (ppa - e.ppa)) % 2 ^ (8 * n)

/-- What a store buffer says to a load of `n` bytes at a PPA: nothing overlaps, the youngest overlapping entry, which holds all its bytes, or
that the load waits. -/
def sqFind {α : Type} (ent : α → SqEnt) (q : List α) (ppa n : Nat) : Option (Option α) :=
  match (q.reverse.find? fun e => overlap (ent e).ppa (ent e).size ppa n) with
  | none => some none
  | some e => if (ent e).ppa ≤ ppa ∧ ppa + n ≤ (ent e).ppa + (ent e).size then some (some e) else none

/-- The store queue's answer to a load (R208). -/
def sqForward (q : List SqEnt) (ppa n : Nat) : Option (Option Nat) := (sqFind id q ppa n).map fun e => e.map fun e => e.bytes ppa n

/-- Some queued store overlaps a part. -/
def sqTouches (q : List SqEnt) (ps : List Part) : Bool := ps.any fun p => q.any fun e => overlap e.ppa e.size p.ppa p.n

/-! ## Loads -/

/-- The device read of a core: DRD to the I/O bridge (R209, R266, R270). -/
def drdMsg (s : State) (k : CoreId) (inner : Bool) (ppa n : Nat) : Msg :=
  { Msg.zero with pid := s.pidOf k, inner := inner, src := BitVec.ofNat 8 (clusterOf k).val, score := Fin.ofNat 8 (k.val % 6), dst := 0x2C,
                  ln := ppa / 64, arg := BitVec.ofNat 64 (ppa % 64 + Nat.log2 n * 2 ^ 6) }

/-- What a load needs to know: bytes, sign extension, destination, forwarding, streaming, base register and its update, instruction length. -/
structure LoadOp where
  n      : Nat
  sign   : Bool
  dst    : RaDest
  fwd    : Bool
  stream : Bool
  base   : AReg
  upd    : Option (AReg × Word)
  len    : Nat

/-- The miss of a load. -/
def LoadOp.want (o : LoadOp) (inner : Bool) : Want := { inner := inner, stream := o.stream, dst := o.dst, len := o.len }

/-- The word that a load delivers. -/
def LoadOp.word (o : LoadOp) (v : Nat) : Word := if o.sign then (BitVec.ofNat (8 * o.n) v).signExtend 64 else BitVec.ofNat 64 v

/-- The registers after a load: the base, then the destination (R93, R106). -/
def Core.loaded (c : Core) (o : LoadOp) (v : Nat) : Core :=
  let c := match o.upd with | some (r, x) => c.wa r x | none => c
  match o.dst with
  | .none => c
  | .d r => c.wd r (o.word v)
  | .a r => c.wa r (o.word v)
  | .q r => c.wq r (BitVec.ofNat 512 v)

/-- What the bytes of a line held before stores of other agents that a load may still be performed before: its address comes from none of the
core's later loads, the core has neither read nor written a newer value of the bytes, and the window and the load queue reach so far
(R142, R203, R205). -/
def Core.early (c : Core) (base : AReg) (ln : Nat) (m : BitVec 64) : List Stale :=
  c.stale.filter fun x => x.ln == ln && (x.dead &&& m) == 0 && !(x.regs.getLsbD base.val) && decide (0 < x.loads)

/-- A load reads what one of those stores replaced: nothing older is read afterwards (R203). -/
def Core.sawEarly (c : Core) (x : Stale) (m : BitVec 64) : Core :=
  { c with stale := c.stale.takeWhile (· != x) ++ ((c.stale.dropWhile (· != x)).take 1 ++
      ((c.stale.dropWhile (· != x)).drop 1).map fun y => if y.ln = x.ln then { y with dead := y.dead ||| m } else y) }

/-- A load leaves the load queue. -/
def staleLoad (l : List Stale) : List Stale := l.map fun x => { x with loads := x.loads - 1 }

/-- A load is performed in program order or before older ones: a free choice among the values that R205 leaves, where there are any. -/
def State.earlyLoad (s : State) (k : CoreId) (base : AReg) (ln off n : Nat) : Option Nat × State :=
  let c := s.core k
  match c.early base ln (byteMask off n) with
  | [] => (none, s)
  | l =>
    let (d, s) := s.draw
    match (if d.toNat % (l.length + 1) = 0 then none else l[d.toNat % (l.length + 1) - 1]?) with
    | none => (none, s)
    | some x => (some (lineGet x.data off n), s.setCore k ((s.core k).sawEarly x (byteMask off n)))

/-- The value of a load of normal memory behind the firewall: performed early, or read. -/
def loadMemory (k : CoreId) (o : LoadOp) (inner : Bool) (pd : List (Part × Nat)) (s : State) : Res Nat :=
  match pd with
  | [(p, da)] =>
    if da % 64 + p.n ≤ 64 then
      match s.earlyLoad k o.base (da / 64) (da % 64) p.n with
      | (some v, s) => .ok v s
      | (none, s) => readParts k (o.want inner) pd s
    else readParts k (o.want inner) pd s
  | _ => readParts k (o.want inner) pd s

/-- What the store queue says to a load of the parts: forwarding takes one part whose bytes one entry holds (R208). -/
def Core.forwards (c : Core) (fwd : Bool) (ps : List Part) : Option (Option Nat) :=
  match fwd, ps with
  | true, [p] => sqForward c.sq p.ppa p.n
  | _, _ => if sqTouches c.sq ps then none else some none

/-- The value of a load of normal memory: forwarded or read. -/
def loadNormal (k : CoreId) (o : LoadOp) (ps : List Part) (s : State) : Res Nat :=
  let c := s.core k
  match c.forwards o.fwd ps with
  | none => .wait s
  | some (some v) => .ok v s
  | some none =>
    (fwParts k c.inner false ps s).bind fun pd s =>
      if s.refused.contains (s.pidOf k).val then .exc (excAbort (ps.headD ⟨0, 0, 0, false, false⟩).va stUnavailable 0) s
      else loadMemory k o c.inner pd s

/-- A retired load of normal memory trains the value predictor, where it is enabled and the memory cacheable, and the memory-dependence
predictor, where the load met an older store (R144, R146). What the specification leaves open, when they train, is the model's choice
(log 81). -/
def Core.trained (c : Core) (vp : Bool) (ps : List Part) (v : Nat) : Core :=
  let t : Train := { pc := c.pc, val := BitVec.ofNat 64 v, taken := false, inner := c.inner }
  { c with vpred := if vp && ps.all (·.cacheable) then t :: c.vpred else c.vpred,
           mdep := if sqTouches c.sq ps then t :: c.mdep else c.mdep }

/-- The core after a load of normal memory that completes. -/
def Core.loadDone (c : Core) (o : LoadOp) (vp : Bool) (ps : List Part) (v : Nat) : Core :=
  let c := (((c.trained vp ps v).loaded o v).adv o.len)
  { c with block := none, stale := staleLoad c.stale }

/-- A load of `o.n` bytes at an address (R106–R108). -/
def State.load (s : State) (k : CoreId) (va : Word) (tc : TypeCheck) (o : LoadOp) : Act :=
  let c := s.core k
  match xlate k .read false tc va o.n s with
  | .wait s => .stay s
  | .exc e s => .exc e s
  | .ok ps s1 =>
    match s1.wpHit k va o.n true false with
    | some i => s1.bpAct k i false va
    | none =>
      match ps with
      | [] => .stay s
      | p :: _ =>
        if ps.any (·.dev) then
          if !c.dq.isEmpty then .stay s1
          else
            let s2 := s1.send .drd (drdMsg s1 k c.inner p.ppa o.n)
            .stay (s2.setCore k { (s2.core k) with wait := some { va := va, ppa := p.ppa, size := o.n, sign := o.sign, dst := o.dst, upd := o.upd, len := o.len } })
        else match loadNormal k o ps s1 with
          | .wait s => .stay s
          | .exc e s => .exc e s
          | .ok v s => .done (s.setCore k ((s.core k).loadDone o (s.rb (.coreExecCtl k) 1) ps v))

/-! ## Loads in run-ahead (R148, R151) -/

/-- A core in run-ahead that runs goes on with it, unless an event has ended or something has stopped it (R151–R153). -/
def State.raGo (s : State) (k : CoreId) (r : RunAhead) (f : State) : State :=
  if !(s.runs k) then s else if s.asyncPending k then s.raExit k else if r.stop then s else f

/-- Run-ahead stops until its exit. -/
def State.raStop (s : State) (k : CoreId) (r : RunAhead) : State := s.setCore k { (s.core k) with ra := some { r with stop := true } }

/-- One pseudo-retired instruction whose destinations are INV or not. -/
def State.raNext (s : State) (k : CoreId) (r : RunAhead) (inv : Bool) (dst : List RegName) (len : Nat) (upd : Core → Core) : State :=
  s.setCore k { ((upd (s.core k)).adv len) with ra := some (dst.foldl (fun r n => r.mark inv n) r.tickOne) }

/-- What a run-ahead access to an address comes to: a device access, nothing that may be read (a fault, a refusal or a walk that
waits, all silent), or its parts with their device addresses. -/
inductive RaSeen where
  | dev
  | inv (s : State)
  | parts (pd : List (Part × Nat)) (s : State)

/-- Translate and check a run-ahead access (R148, R151) whose address must be a multiple of `align`. -/
def State.raSee (s : State) (k : CoreId) (kind : Kind) (va : Word) (n align : Nat) : RaSeen :=
  if va.toNat % align ≠ 0 then .inv s else
  match xlate k kind true (fun _ => none) va n s with
  | .wait s => .inv s
  | .exc _ s => .inv s
  | .ok ps s1 =>
    if ps.any (·.dev) then .dev else
    match fwParts k (s.core k).inner true ps s1 with
    | .ok pd s2 => .parts pd s2
    | _ => .inv s1

/-- Prefetch the spans of a run-ahead read that are not there, where the memory is cacheable. -/
def State.raFetch (s : State) (k : CoreId) (w : Want) (pd : List (Part × Nat)) : State :=
  pd.foldl (fun (s : State) x =>
    if x.1.cacheable then (spans x.2 x.1.n).foldl (fun (s : State) y => s.raMiss k y.1 y.2.1 w) s else s) s

/-- Every byte of a run-ahead read is in the L1 data cache, the victim cache or a miss buffer. -/
def Core.raHit (c : Core) (inner : Bool) (pd : List (Part × Nat)) : Bool :=
  pd.all fun x => x.1.cacheable && (spans x.2 x.1.n).all fun y => c.hasBytes y.1 y.2.1 y.2.2 inner

/-- A run-ahead load of a part list behind the firewall (R151): the run-ahead store buffer forwards, INV data as INV; then the store queue; a
hit gives the value; a miss prefetches. `none`: INV. -/
def State.raRead (s : State) (k : CoreId) (r : RunAhead) (o : LoadOp) (pd : List (Part × Nat)) : Option Nat × State :=
  let c := s.core k
  let ps := pd.map (·.1)
  let own : Option (Option (SqEnt × Bool)) :=
    match ps with
    | [p] => sqFind (·.1) r.sb p.ppa p.n
    | _ => if sqTouches (r.sb.map (·.1)) ps then none else some none
  match own with
  | none => (none, s)
  | some (some e) => (if e.2 then none else (ps.head?.map fun p => e.1.bytes p.ppa p.n), s)
  | some none =>
    match c.forwards o.fwd ps with
    | none => (none, s)
    | some (some v) => (some v, s)
    | some none =>
      if c.raHit c.inner pd then
        match readParts k (o.want c.inner) pd s with
        | .ok v s => (some v, s)
        | _ => (none, s)
      else (none, s.raFetch k (o.want c.inner) pd)

/-- The name of a destination register. -/
def raNames : RaDest → List RegName
  | .none => []
  | .d r => [.d r.val]
  | .a r => [.a r.val]
  | .q r => [.q r.val]

/-- A load in run-ahead (R151): an INV base issues no access. -/
def State.loadRa (s : State) (k : CoreId) (r : RunAhead) (va : Word) (o : LoadOp) : State :=
  let dst := raNames o.dst
  let bump (c : Core) : Core := match o.upd with | some (b, x) => c.wa b x | none => c
  if r.isInv (.a o.base.val) then s.raNext k r true (if o.upd.isSome then .a o.base.val :: dst else dst) o.len id
  else match s.raSee k .read va o.n (if o.n = 64 then 64 else 1) with
    | .dev => s.raStop k r
    | .inv s => s.raNext k r true dst o.len bump
    | .parts pd s =>
      match s.raRead k r o pd with
      | (some v, s) => s.raNext k r false dst o.len fun c => c.loaded o v
      | (none, s) => s.raNext k r true dst o.len bump

/-- A load instruction: the base address, its alignment class and its base update. -/
def opLoad (k : CoreId) (ab : AReg) (off : Word) (post : Bool) (tcOf : Nat → TypeCheck) (aligned : Bool) (o : LoadOp) (s : State) : State :=
  let c := s.core k
  let b := c.ra' ab
  let va := if post then b else b + off
  let o := { o with base := ab, upd := if post then some (ab, b + off) else none }
  match c.ra with
  | some r => s.raGo k r (s.loadRa k r va o)
  | none => s.run k o.len .stop fun s =>
      if aligned && va.toNat % o.n != 0 then .exc (excAlign va.toNat .read) s else s.load k va (tcOf va.toNat) o

/-- The prefetch of a run-ahead read whose result is INV whatever it finds (R151); `none`: a device access. -/
def State.raPrefetch (s : State) (k : CoreId) (r : RunAhead) (base : AReg) (va : Word) (n : Nat) (w : Want) : Option State :=
  if r.isInv (.a base.val) then some s
  else match s.raSee k .read va n n with
    | .dev => none
    | .inv s => some s
    | .parts pd s => some (s.raFetch k w pd)

/-- A run-ahead instruction that reads memory and gives INV. -/
def State.readRa (s : State) (k : CoreId) (r : RunAhead) (reads : List (AReg × Word)) (n : Nat) (stream : Bool) (dst : List RegName)
    (upd : Core → Core) (len : Nat) : State :=
  let w : Want := { inner := (s.core k).inner, stream := stream, dst := .none, len := len }
  match reads.foldl (fun (acc : Option State) x => acc.bind fun s => s.raPrefetch k r x.1 x.2 n w) (some s) with
  | none => s.raStop k r
  | some s' => s'.raNext k r true dst len upd

/-! ## Stores -/

/-- The entries in use: one for each 8 bytes or part of them (R208). -/
def sqUsed (q : List SqEnt) : Nat := (q.map fun e => (e.size + 7) / 8).sum

/-- The store-queue entries of a store: one for each part. The 64 bytes of a QSAVE count as 8 entries and leave together, since QSAVE is
single-copy atomic (R107, R208). -/
def sqEntries (inner : Bool) : List Part → Nat → List SqEnt
  | [], _ => []
  | p :: t, v =>
    { ppa := p.ppa, size := p.n, data := BitVec.ofNat 512 (v % 2 ^ (8 * p.n)), cacheable := p.cacheable, zero := false, inner := inner } ::
      sqEntries inner t (v / 2 ^ (8 * p.n))

/-- A store of `n` bytes (R106–R108): translated and checked on every page, then committed to the store queue or to the
device-store queue (R208). -/
def State.store (s : State) (k : CoreId) (va : Word) (n v len : Nat) (upd : Option (AReg × Word)) : Act :=
  let c := s.core k
  match xlate k .write false (tcDevAligned va.toNat n .write) va n s with
  | .wait s => .stay s
  | .exc e s => .exc e s
  | .ok ps s1 =>
    match s1.wpHit k va n false true with
    | some i => s1.bpAct k i true va
    | none =>
      let fin (c : Core) : Core := (match upd with | some (r, x) => c.wa r x | none => c).adv len
      match ps with
      | [] => .stay s
      | p :: _ =>
        if ps.any (·.dev) then
          if 16 ≤ c.dq.length then .stay s1
          else .done ((s1.setCore k (fin { (s1.core k) with
            dq := c.dq ++ [{ ppa := p.ppa, size := n, data := BitVec.ofNat 512 v, issued := false, inner := c.inner }] })).countHere k 0x19)
        else
          let es := sqEntries c.inner ps v
          if 128 < sqUsed c.sq + sqUsed es then .stay s1
          else .done (s1.setCore k (fin { (s1.core k) with sq := c.sq ++ es }))

/-- A store in run-ahead (R151): into the run-ahead store buffer of 64 entries, with INV data as INV; discarded when the buffer is full, its
address is INV or it would fault; a device store stops run-ahead. -/
def State.storeRa (s : State) (k : CoreId) (r : RunAhead) (src : RegName) (base : AReg) (va : Word) (n v len : Nat)
    (upd : Option (AReg × Word)) : State :=
  let bump (c : Core) : Core := match upd with | some (b, x) => c.wa b x | none => c
  if r.isInv (.a base.val) then s.raNext k r true (if upd.isSome then [.a base.val] else []) len id
  else match s.raSee k .write va n (if n = 64 then 64 else 1) with
    | .dev => s.raStop k r
    | .inv s => s.raNext k r false [] len bump
    | .parts pd s =>
      let es := sqEntries (s.core k).inner (pd.map (·.1)) v
      let r := if 64 < sqUsed (r.sb.map (·.1)) + sqUsed es then r else { r with sb := r.sb ++ es.map fun e => (e, r.isInv src) }
      s.raNext k r false [] len bump

/-- A store instruction: the base address, the stored value and the base update (R93, R109). -/
def opStore (k : CoreId) (ab : AReg) (off : Word) (post : Bool) (n len : Nat) (aligned : Bool) (src : RegName) (val : Core → Nat) (s : State) : State :=
  let c := s.core k
  let b := c.ra' ab
  let va := if post then b else b + off
  let upd := if post then some (ab, b + off) else none
  match c.ra with
  | some r => s.raGo k r (s.storeRa k r src ab va n (val c) len upd)
  | none => s.run k len .stop fun s =>
      if aligned && va.toNat % n != 0 then .exc (excAlign va.toNat .write) s else s.store k va n (val c % 2 ^ (8 * n)) len upd

end Sys2Proof.Machine
end

