-- ==== Sys2Proof/Machine/Digest.lean ====
section
/-! DEFINITION. SHA-384, the digest of boot images and measurements (R497, R500). The specification names the algorithm; its
definition is that of FIPS 180-4 (PRESUMED). -/

namespace Sys2Proof.Machine

/-- A number below 410 is prime: the eightieth prime is 409. -/
def shaPrime (n : Nat) : Bool := decide (2 ≤ n) && (List.range 21).all fun d => decide (d < 2) || decide (n ≤ d) || n % d != 0

/-- The first 80 primes. -/
def shaPrimes : List Nat := (List.range 410).filter shaPrime

/-- The largest number whose `k`-th power is at most `x`, found bit by bit below 2^n from the bits already found. -/
def shaRoot (k x : Nat) : Nat → Nat → Nat
  | 0, r => r
  | n + 1, r => shaRoot k x n (if (r + 2 ^ n) ^ k ≤ x then r + 2 ^ n else r)

/-- The first 64 bits of the fractional part of the `k`-th root of a number below 2^12. -/
def shaFrac (k p : Nat) : Word := BitVec.ofNat 64 (shaRoot k (p * 2 ^ (64 * k)) 70 0)

/-- The round constants: of the cube roots of the first 80 primes. -/
def shaK : List Word := shaPrimes.map (shaFrac 3)

/-- The initial value: of the square roots of the ninth to the sixteenth prime. -/
def shaH : List Word := ((shaPrimes.drop 8).take 8).map (shaFrac 2)

/-- Message padding to whole 1,024-bit blocks, big-endian length. -/
def shaPad (bs : List Byte) : List Byte :=
  let z := (128 - (bs.length + 17) % 128) % 128
  bs ++ [0x80#8] ++ List.replicate z 0#8 ++ ((List.range 16).map fun i => BitVec.ofNat 8 (8 * bs.length / 256 ^ (15 - i)))

/-- A word of eight bytes, big-endian. -/
def shaWord (bs : List Byte) (i : Nat) : Word :=
  (List.range 8).foldl (fun w j => (w <<< 8) ||| (bs.getD (8 * i + j) 0).setWidth 64) 0#64

/-- The next word of the message schedule from the last sixteen, the newest first. -/
def shaNext (w : List Word) : Word :=
  let a := w.getD 1 0
  let b := w.getD 14 0
  let s1 := a.rotateRight 19 ^^^ a.rotateRight 61 ^^^ (a >>> 6)
  let s0 := b.rotateRight 1 ^^^ b.rotateRight 8 ^^^ (b >>> 7)
  s1 + w.getD 6 0 + s0 + w.getD 15 0

/-- One round on the eight working variables. -/
def shaRound (v : List Word) (k w : Word) : List Word :=
  match v with
  | [a, b, c, d, e, f, g, h] =>
    let t1 := h + (e.rotateRight 14 ^^^ e.rotateRight 18 ^^^ e.rotateRight 41) + ((e &&& f) ^^^ (~~~e &&& g)) + k + w
    let t2 := (a.rotateRight 28 ^^^ a.rotateRight 34 ^^^ a.rotateRight 39) + ((a &&& b) ^^^ (a &&& c) ^^^ (b &&& c))
    [t1 + t2, a, b, c, d + t1, e, f, g]
  | _ => v

/-- The schedule of a block, extended to `n` further words, the newest first. -/
def shaSched : Nat → List Word → List Word
  | 0, w => w
  | n + 1, w => shaSched n (shaNext w :: w)

/-- One block. -/
def shaBlock (h : List Word) (blk : List Byte) : List Word :=
  let w := (shaSched 64 ((List.range 16).map fun i => shaWord blk (15 - i))).reverse
  let v := (shaK.zip w).foldl (fun v x => shaRound v x.1 x.2) h
  List.zipWith (· + ·) h v

/-- The blocks of a padded message. -/
def shaBlocks : Nat → List Byte → List Word → List Word
  | 0, _, h => h
  | n + 1, bs, h => shaBlocks n (bs.drop 128) (shaBlock h (bs.take 128))

/-- The 384-bit digest as a number, its first byte the most significant. -/
def sha384 (bs : List Byte) : Nat :=
  let p := shaPad bs
  ((shaBlocks (p.length / 128) p shaH).take 6).foldl (fun v w => v * 2 ^ 64 + w.toNat) 0

end Sys2Proof.Machine
end

