-- ==== Sys2Proof/Machine/Arbiter.lean ====
section
/-! DEFINITION. The shared arbiter model (R290–R293), and the class and configuration registers that its users read (R292, R294). -/

namespace Sys2Proof.Machine

/-- The rings after a change of classes: a requester that is ready in another class joins the tail of its new one (R293). -/
def Arb.join (a : Arb) (ready : List (Nat × Nat)) : Arb :=
  ready.foldl (fun (a : Arb) x =>
    let ring : List Nat := a.rings.get [] x.2
    if ring.contains x.1 then a
    else
      let cleared : Tbl (List Nat) := a.rings.mapVals [] fun c l => if c < 4 then l.filter (· != x.1) else l
      { a with rings := cleared.set [] x.2 (cleared.get [] x.2 ++ [x.1]) }) a

/-- Rotate a ring so that the winner stands last. -/
def rotateTo (x : Nat) (l : List Nat) : List Nat := (l.dropWhile (· != x)).drop 1 ++ l.takeWhile (· != x) ++ (if l.contains x then [x] else [])

/-- Choose a winner among the ready requesters, each with its class (R290). -/
def Arb.pick (a : Arb) (age : Nat) (ready : List (Nat × Nat)) : Option (Nat × Arb) :=
  let a := a.join ready
  let w (r : Nat) : Nat := a.wait.get 0 r
  let aged := ready.filter fun x => decide (max 1 age ≤ w x.1)
  let win : Option (Nat × Nat) :=
    if !aged.isEmpty then
      let top := aged.foldl (fun m x => max m (w x.1)) 0
      let tied := (aged.filter fun x => w x.1 == top).map (·.1)
      let ring : List Nat := a.rings.get [] 4
      match (ring.find? fun r => tied.contains r && !(tied.any fun t => !(ring.contains t))) with
      | some r => some (r, 4)
      | none => (tied.find? fun t => !(ring.contains t)).map fun t => (t, 4)
    else
      let top := ready.foldl (fun m x => max m x.2) 0
      let ring : List Nat := a.rings.get [] top
      (ring.find? fun r => ready.contains (r, top)).map fun r => (r, top)
  win.map fun x =>
    let wait := ready.foldl (fun (t : Tbl Nat) r => if r.1 = x.1 then t.set 0 r.1 0 else t.set 0 r.1 (satAdd 1023 (t.get 0 r.1) 1)) a.wait
    let ring : List Nat := a.rings.get [] x.2
    let ring := if ring.contains x.1 then rotateTo x.1 ring else ring ++ [x.1]
    (x.1, { wait := wait, rings := a.rings.set [] x.2 ring })

end Sys2Proof.Machine
end

