-- ==== Sys2Proof/Machine/Route.lean ====
section
/-! DEFINITION. Where agents attach to the Net, header units, and source routes (R263–R275). -/

namespace Sys2Proof.Machine

/-! ## Attachment (R264, R265) -/

/-- The router and local port at which an agent ID attaches on a plane: column, row, port. -/
def agentAt (p id : Nat) : Option (Nat × Nat × Nat) :=
  if id < 36 then
    let f := id / 3
    some (if f < 6 then (0, 2 * f + p % 2, 0) else (11, 2 * (f - 6) + p % 2, 0))
  else if 0x24 ≤ id ∧ id ≤ 0x27 then some (1 + 3 * (id - 0x24), 5, 0)
  else if 0x28 ≤ id ∧ id ≤ 0x2B then some (1 + 3 * (id - 0x28), 6, 0)
  else if id = 0x2C then some (5, 5, 0)
  else if id = 0x2D then some (6, 5, 0)
  else if id = 0x2E then some (5, 6, 0)
  else if id = 0x2F then some (6, 6, 0)
  else if id < 0x40 then some (3, 5, 0)
  else if id < 0x80 then
    let m := (id - 0x40) / 8
    let j := (id - 0x40) % 8
    let xb := [1, 4, 6, 9].getD (m % 4) 0
    some (xb + j % 2, if m < 4 then 1 + j / 2 else 10 - j / 2, 0)
  else if id < 0x100 then
    let m := (id - 0x80) / 16
    let n := (id - 0x80) % 16
    some (3 * (m % 4) + (if n < 8 then 0 else 2), if m < 4 then 0 else 11, 1)
  else none

/-- The plane of a message that carries a line address (R266). -/
def planeOfLine (ln : Nat) : Nat := 3 * (ln % 4) + ln / 4 % 3

/-! ## The header unit (R268) -/

/-- Bits [hi:lo] of a header unit. -/
def hfld (h : BitVec 256) (hi lo : Nat) : Nat := h.toNat / 2 ^ lo % 2 ^ (hi + 1 - lo)

/-- A header with its bits [hi:lo] set. -/
def hset (h : BitVec 256) (hi lo x : Nat) : BitVec 256 :=
  (h &&& ~~~ BitVec.ofNat 256 ((2 ^ (hi + 1 - lo) - 1) * 2 ^ lo)) ||| BitVec.ofNat 256 (x % 2 ^ (hi + 1 - lo) * 2 ^ lo)

abbrev hVn (h : BitVec 256) := hfld h 2 0
abbrev hMsg (h : BitVec 256) := hfld h 8 3
abbrev hPid (h : BitVec 256) : Pid := Fin.ofNat 16 (hfld h 12 9)
abbrev hSb (h : BitVec 256) := hfld h 14 14
abbrev hRb (h : BitVec 256) := hfld h 15 15
abbrev hDu (h : BitVec 256) := hfld h 17 16
abbrev hRlen (h : BitVec 256) := hfld h 22 18
/-- PRIV, set only by the wipe, migration and service-ring engines. -/
abbrev hPriv (h : BitVec 256) : Bool := hfld h 30 30 == 1
abbrev hHop (h : BitVec 256) := hfld h 27 23
abbrev hLport (h : BitVec 256) := hfld h 29 28
abbrev hRoute (h : BitVec 256) := hfld h 75 32
abbrev hSrc (h : BitVec 256) := hfld h 83 76
abbrev hDst (h : BitVec 256) := hfld h 95 88
abbrev hTrk (h : BitVec 256) := hfld h 103 96
abbrev hAddr (h : BitVec 256) := hfld h 149 104

/-- One byte into a CRC-16, most significant bit first. -/
def crc16Byte (poly : Nat) (crc b : Nat) : Nat :=
  (List.range 8).foldl (fun c i =>
    let t := (c / 2 ^ 15 + b / 2 ^ (7 - i)) % 2
    let c' := c * 2 % 2 ^ 16
    if t = 1 then c' ^^^ poly else c') crc

/-- CRC-16 over the bytes of a number, the lowest byte first. -/
def crc16 (poly crc v : Nat) : Nat → Nat
  | 0 => crc
  | n + 1 => crc16 poly (crc16Byte poly crc (v % 256)) (v / 256) n

/-- HCHK: CRC-16 with polynomial 0x1021 and initial value 0xFFFF over bits [239:0] with HOP taken as zero (R268). -/
def hchk (h : BitVec 256) : Nat := crc16 0x1021 0xFFFF ((hset h 27 23 0).toNat % 2 ^ 240) 30

/-- The header passes its check. -/
def hchkOk (h : BitVec 256) : Bool := hfld h 255 240 == hchk h

/-- A header with its check computed. -/
def hSeal (h : BitVec 256) : BitVec 256 := hset h 255 240 (hchk h)

/-- The virtual network of a message type (R269): 0 REQ, 1 SNP, 2 RSP, 3 DAT, 5 MGT. -/
def vnOfMsg (msg : Nat) : Nat :=
  let c := msg / 8
  if c < 2 then 0 else if c < 4 then 1 else if c < 6 then 2 else if c = 6 then 3 else 5

/-- The MSG value of a message type (R269). -/
def msgCode : MsgKind → Nat
  | .rds => 0x00 | .rdu => 0x01 | .upg => 0x02 | .rdo => 0x03 | .wrh => 0x04 | .wri => 0x05 | .atf => 0x06 | .cln => 0x07
  | .inv => 0x08 | .cli => 0x09 | .iiv => 0x0A | .rsv => 0x0B | .stc => 0x0C | .drd => 0x0D | .dwr => 0x0E
  | .sns => 0x10 | .snu => 0x11 | .sno => 0x12 | .sni => 0x13 | .snr => 0x14 | .snc => 0x15 | .snic => 0x16 | .tlbd => 0x17
  | .intd => 0x18
  | .srsp => 0x20 | .evc => 0x21 | .cack => 0x22 | .cmp => 0x23 | .eva => 0x24 | .err => 0x25 | .dcmp => 0x26 | .tlba => 0x27
  | .dh => 0x30 | .df => 0x31 | .dro => 0x32 | .wbd => 0x33 | .sdh => 0x34 | .atr => 0x35 | .drr => 0x36
  | .markMsg => 0x38 | .echoMsg => 0x39 | .lcr => 0x3A | .mrd => 0x3B | .mwr => 0x3C | .mcmp => 0x3D

/-- The plane of a message (R266): 3 × DA[7:6] + (DA[51:8] mod 3) for a line; g mod 12 for a device access, a TLBI delivery and their
answers (g: the issuing core's cluster) and for an interrupt delivery (g: the target's). LCR names its plane. The other MGT messages
have no rule for a single plane: plane 0. -/
def planeOf (kind : MsgKind) (m : Msg) : Nat :=
  match kind with
  | .drd | .dwr | .tlbd => m.src.toNat % 12
  | .dcmp | .drr | .tlba => m.dst.toNat % 12
  | .intd => fld m.arg 22 15 / 6 % 12
  | .err => if m.src = 0x2C then m.dst.toNat % 12 else planeOfLine m.ln
  | .lcr => fld m.arg 11 8 % 12
  | .markMsg => m.trk.toNat % 12
  | .echoMsg | .mrd | .mwr | .mcmp => 0
  | _ => planeOfLine m.ln

/-- The data units of a message (R235, R270, R271): none, one of 32 bytes, or two; WRH and the device data carry one where the bytes lie in
the lower half. -/
def msgUnits (kind : MsgKind) (m : Msg) : List (BitVec 256 × Bool) :=
  let lo := (m.data.extractLsb' 0 256, m.poison)
  let two := [lo, (m.data.extractLsb' 256 256, m.poison)]
  match kind with
  | .wrh => if m.arg.toNat < 2 ^ 32 then [lo] else two
  | .wri | .dh | .df | .dro | .wbd | .sdh => two
  | .atf | .stc | .atr => [lo]
  | .dwr | .drr => if fld m.arg 8 6 = 6 then two else [lo]
  | .mwr | .mcmp => [lo]
  | _ => []

/-! ## Routes (R272–R275) -/

/-- The minimal X-then-Y route between two routers: links, and turn codes, code `i` in bits [2i + 1 : 2i] (R272, R273). -/
def xyRoute (x0 y0 x1 y1 : Nat) : Nat × Nat :=
  let dx := if x0 ≤ x1 then x1 - x0 else x0 - x1
  let dy := if y0 ≤ y1 then y1 - y0 else y0 - y1
  let xd := if x0 ≤ x1 then 1 else 3
  let yd := if y0 ≤ y1 then 2 else 0
  if dx = 0 then (dy, if dy = 0 then 0 else yd)
  else
    let turn := if dy = 0 then 0 else (if (xd + 3) % 4 = yd then 1 else 2) * 4 ^ dx
    (dx + dy, xd + turn)

/-- The table that holds an agent's routes on a plane: node 0–143 for a router, 144 + f for a Facet fabric, and the local port
(R274). -/
def injNode (p id : Nat) : Nat × Nat :=
  if id < 36 then (144 + id / 3, 0)
  else match agentAt p id with
    | some (x, y, l) => (12 * y + x, l)
    | none => (0, 0)

/-- The router at which the packets of an injection node enter a plane. -/
def nodeXY (p node : Nat) : Nat × Nat :=
  if node < 144 then (node % 12, node / 12)
  else match agentAt p (3 * (node - 144)) with
    | some (x, y, _) => (x, y)
    | none => (0, 0)

/-- The entry that names the minimal route from a node to an agent on a plane, in the layout of R274; 0 for an ID that the table
of R264 does not assign. -/
def xyEntry (p node dst : Nat) : Word :=
  match agentAt p dst with
  | none => 0
  | some (x1, y1, l) =>
    let (x0, y0) := nodeXY p node
    let (n, r) := xyRoute x0 y0 x1 y1
    BitVec.ofNat 64 (1 + n * 2 + l * 2 ^ 6 + r * 2 ^ 8)

/-- The key of a route or slot injection entry. -/
def rteKey (bankB : Bool) (p node lport idx : Nat) : Nat := b2n bankB + 2 * (idx + 256 * (lport + 4 * (node + 256 * p)))

/-- A route entry (R274): what was written, otherwise the route that the PSC wrote at boot. -/
def State.routeEntry (s : State) (bankB : Bool) (p node lport dst : Nat) : Word :=
  s.net.routes.get (if s.net.routesOn then xyEntry p node dst else 0) (rteKey bankB p node lport dst)

/-- Write a route entry. -/
def State.setRoute (s : State) (bankB : Bool) (p node lport dst : Nat) (v : Word) : State :=
  let d := if s.net.routesOn then xyEntry p node dst else 0
  { s with net := { s.net with routes := s.net.routes.set d (rteKey bankB p node lport dst) v } }

/-- The entry that an agent's injection point holds for a destination on a plane, and the ROUTE bank it reads (R274). -/
def State.routeOf (s : State) (p src dst : Nat) : Word × Bool :=
  let (node, l) := injNode p src
  let b := if node < 144 then s.bank 1 else s.facetBank (Fin.ofNat 12 (node - 144)) 1
  (s.routeEntry b p node l dst, b)

/-- An agent's injection point has a valid route to a destination on a plane (R275). -/
def State.routed (s : State) (p src dst : Nat) : Bool := bit (s.routeOf p src dst).1 0

/-- The SLOT bank in force where an agent injects (R288). -/
def State.slotBank (s : State) (src : Nat) : Bool := if src < 36 then s.facetBank (Fin.ofNat 12 (src / 3)) 0 else s.bank 0

/-- The header unit of a message as its injection point builds it on a plane (R268–R270, R274, R288): the route and its bank, HOP 0, and for
GTD the SLOT bank. -/
def State.header (s : State) (p : Nat) (kind : MsgKind) (m : Msg) (gtd : Bool) : BitVec 256 :=
  let (e, rb) := s.routeOf p m.src.toNat m.dst.toNat
  let code := msgCode kind
  let h : BitVec 256 := hset 0 2 0 (if gtd then 4 else vnOfMsg code)
  let h := hset (hset (hset h 8 3 code) 12 9 m.pid.val) 13 13 (b2n m.inner)
  let h := hset (hset h 14 14 (b2n (gtd && s.slotBank m.src.toNat))) 15 15 (b2n rb)
  let h := hset (hset h 17 16 (msgUnits kind m).length) 22 18 (fld e 5 1)
  let h := hset (hset (hset h 29 28 (fld e 7 6)) 30 30 (b2n m.priv)) 75 32 (fld e 51 8)
  let h := hset (hset (hset h 83 76 m.src.toNat) 86 84 m.score.val) 95 88 m.dst.toNat
  let h := hset (hset (hset h 103 96 m.trk.toNat) 149 104 m.ln) 215 152 m.arg.toNat
  hSeal h

/-- A message without a route is answered at its injection point with ERR TARGET_UNAVAILABLE and event 0x3027 with the plane and
the destination (R275). -/
def State.noRoute (s : State) (p : Nat) (m : Msg) : State :=
  (s.bb 0x3027 (some m.pid) p m.dst.toNat).send .err
    { m with src := m.dst, dst := m.src, data := 0, poison := false, arg := BitVec.ofNat 64 stUnavailable }

/-! ## Guaranteed traffic (R285, R287) -/

/-- A message of device traffic, which never travels on GTD (R267, R285). -/
def deviceMsg (kind : MsgKind) : Bool :=
  kind == .drd || kind == .dwr || kind == .dcmp || kind == .drr

/-- The partition of a message holds a token for its path, and it may travel on GTD (R285). -/
def State.tokenFor (s : State) (kind : MsgKind) (m : Msg) : Bool :=
  !(deviceMsg kind) && vnOfMsg (msgCode kind) != 5 &&
    s.net.tokens.any fun t => t.pid == m.pid && t.plane == planeOf kind m && t.src == m.src.toNat && t.dst == m.dst.toNat

/-! ## The arrival of a message (R267, R275, R287) -/

/-- Two messages travel on one virtual network between the same ports of one plane, and neither may go on GTD, where no order with its own
class holds (R267, R285). -/
def State.sameFlow (s : State) (x y : MsgKind × Msg) : Bool :=
  let p := planeOf x.1 x.2
  planeOf y.1 y.2 == p && vnOfMsg (msgCode x.1) == vnOfMsg (msgCode y.1) &&
    agentAt p x.2.src.toNat == agentAt p y.2.src.toNat && agentAt p x.2.dst.toNat == agentAt p y.2.dst.toNat &&
    !(s.tokenFor x.1 x.2) && !(s.tokenFor y.1 y.2)

/-- A request in a landing buffer of the destination goes before an ordinary one (R287). -/
def State.landFirst (s : State) (kind : MsgKind) (m : Msg) : Bool :=
  vnOfMsg (msgCode kind) == 0 && !(s.net.landQ.any fun x => x.kind == kind && x.msg == m) &&
    s.net.landQ.any fun x => x.landed && x.msg.dst == m.dst

/-- A message may arrive: nothing sent before it on its way is still in flight (R267), it is not inside a router, and no landed request
goes before it (R287). -/
def State.turn (s : State) (kind : MsgKind) (m : Msg) : Bool :=
  !((s.msgs.takeWhile (· != (kind, m))).any fun y => s.sameFlow (kind, m) y) && !(s.net.flying.contains (kind, m)) && !(s.landFirst kind m)

/-- The injection point had a route for the message; ERR is also the injection point's own answer, which needs none (R275). -/
def State.hasRoute (s : State) (kind : MsgKind) (m : Msg) : Bool :=
  kind == .err || s.routed (planeOf kind m) m.src.toNat m.dst.toNat

/-- The message is delivered. -/
def State.delivers (s : State) (kind : MsgKind) (m : Msg) : Bool := s.turn kind m && s.hasRoute kind m

/-- A request leaves its landing buffer: the destination returns the credits with LCR on the same plane (R270, R287). -/
def State.landTake (s : State) (kind : MsgKind) (m : Msg) : State :=
  match s.net.landQ.find? fun x => x.kind == kind && x.msg == m with
  | none => s
  | some x =>
    ({ s with net := { s.net with landQ := s.net.landQ.erase x } }).send .lcr { Msg.zero with
      pid := m.pid, src := m.dst, dst := m.src, arg := BitVec.ofNat 64 (m.src.toNat + x.plane * 2 ^ 8 + x.units * 2 ^ 12) }

/-- A message arrives and its receiver acts on it: nothing happens before its turn (R267); without a route it was never injected, and its
sender gets ERR (R275). -/
def State.onArrival (s : State) (kind : MsgKind) (m : Msg) (act : State → State) : State :=
  if !(s.turn kind m) then s
  else if !(s.hasRoute kind m) then (s.arrived kind m).noRoute (planeOf kind m) m
  else act ((s.arrived kind m).landTake kind m)

end Sys2Proof.Machine
end

