-- ==== Sys2Proof/Machine/Integer.lean ====
section
/-! DEFINITION. The integer, condition, bit-manipulation and address-arithmetic instructions (R101–R104, R114–R116) and
their short forms (R87–R90). -/

namespace Sys2Proof.Machine

/-! ## Results (R101, R102) -/

/-- The sign-extension of a 32-bit result (R73). -/
def w32 (v : BitVec 32) : Word := sx v

/-- Rotation right by 0–63. -/
def ror64 (v : Word) (n : Nat) : Word := (v >>> (n % 64)) ||| (v <<< ((64 - n % 64) % 64))

/-- Signed division that truncates toward zero, with the fixed corners of R102. -/
def divS {w : Nat} (a b : BitVec w) : BitVec w := if b = 0 then BitVec.allOnes w else BitVec.ofInt w (Int.tdiv a.toInt b.toInt)
/-- Unsigned division with the fixed corner of R102. -/
def divU {w : Nat} (a b : BitVec w) : BitVec w := if b = 0 then BitVec.allOnes w else BitVec.ofNat w (a.toNat / b.toNat)
/-- Signed remainder, with the sign of the dividend. -/
def remS {w : Nat} (a b : BitVec w) : BitVec w := if b = 0 then a else BitVec.ofInt w (Int.tmod a.toInt b.toInt)
/-- Unsigned remainder. -/
def remU {w : Nat} (a b : BitVec w) : BitVec w := if b = 0 then a else BitVec.ofNat w (a.toNat % b.toNat)

/-- The shift kinds of SHI (R97). -/
def shiftKind (kind : Fin 4) (v : Word) (n : Nat) : Word :=
  match kind.val with
  | 0 => v <<< n
  | 1 => v >>> n
  | 2 => v.sshiftRight n
  | _ => ror64 v n

/-! ## Bit manipulation (R114–R116) -/

/-- The index of the most significant one plus one; 0 for zero. -/
def bitLen (n : Nat) : Nat := if n = 0 then 0 else Nat.log2 n + 1

/-- Leading zero bits. -/
def clz64 (v : Word) : Word := BitVec.ofNat 64 (64 - bitLen v.toNat)
/-- The lowest `n` bits, counted while zero. -/
def ctzFrom (v : Nat) : Nat → Nat
  | 0 => 0
  | n + 1 => if v % 2 = 1 then 0 else 1 + ctzFrom (v / 2) n
/-- The one bits among the lowest `n`. -/
def popFrom (v : Nat) : Nat → Nat
  | 0 => 0
  | n + 1 => v % 2 + popFrom (v / 2) n
/-- `n` units of `w` bits in the opposite order. -/
def revUnits (w : Nat) (v : Nat) : Nat → Nat
  | 0 => 0
  | n + 1 => (v % 2 ^ w) * 2 ^ (w * n) + revUnits w (v / 2 ^ w) n
/-- The parities of `n` units of `w` bits, unit i in bit i. -/
def parUnits (w : Nat) (v : Nat) : Nat → Nat
  | 0 => 0
  | n + 1 => popFrom v w % 2 + 2 * parUnits w (v / 2 ^ w) n

/-- A CRC step over `n` data bits, least significant first (R115). -/
def crcBits (p : Word) (crc : Word) (data : Nat) : Nat → Word
  | 0 => crc
  | n + 1 =>
    let b := crc.getLsbD 0 != decide (data % 2 = 1)
    let c := crc >>> 1
    crcBits p (if b then c ^^^ p else c) (data / 2) n

/-- The data bits of a CRC step's width: 8, 16, 32, 64 (R95). -/
def crcWidth (wd : Fin 4) : Nat := 8 * 2 ^ wd.val

/-! ## The shared shapes -/

/-- Dd from Ds and Dt. -/
def opRRR (k : CoreId) (len : Nat) (rd rs rt : DReg) (f : Word → Word → Word) (s : State) : State :=
  s.compute k len [.d rs.val, .d rt.val] [.d rd.val] fun c => c.wd rd (f (c.rd rs) (c.rd rt))
/-- Dd from Ds. -/
def opRR (k : CoreId) (len : Nat) (rd rs : DReg) (f : Word → Word) (s : State) : State :=
  s.compute k len [.d rs.val] [.d rd.val] fun c => c.wd rd (f (c.rd rs))
/-- Dd from a condition between Ds and a second value (R76, R77). -/
def opCond (k : CoreId) (len : Nat) (rd rs : DReg) (srcs : List RegName) (cc : Fin 8) (b : Core → Word) (s : State) : State :=
  if cc.val < 6 then s.compute k len (.d rs.val :: srcs) [.d rd.val] fun c => c.wd rd (boolWord ((condHolds cc (c.rd rs) (b c)).getD false))
  else s.illegal k len
/-- Ad from As and Dt (R103). -/
def opAAD (k : CoreId) (len : Nat) (rd rs : AReg) (rt : DReg) (f : Word → Word → Word) (s : State) : State :=
  s.compute k len [.a rs.val, .d rt.val] [.a rd.val] fun c => c.wa rd (f (c.ra' rs) (c.rd rt))
/-- Ad from As. -/
def opAA (k : CoreId) (len : Nat) (rd rs : AReg) (f : Word → Word) (s : State) : State :=
  s.compute k len [.a rs.val] [.a rd.val] fun c => c.wa rd (f (c.ra' rs))

/-- ADD: d[s] + d[t] modulo 2^64 (R101). -/
def execAdd (k : CoreId) (rd rs rt : DReg) (s : State) : Host.Outcome State Fault Refusal :=
  .next (opRRR k 4 rd rs rt (· + ·) s)

/-- SUB: d[s] − d[t] (R101). -/
def execSub (k : CoreId) (rd rs rt : DReg) (s : State) : Host.Outcome State Fault Refusal :=
  .next (opRRR k 4 rd rs rt (· - ·) s)

/-- AND (R101). -/
def execAndD (k : CoreId) (rd rs rt : DReg) (s : State) : Host.Outcome State Fault Refusal :=
  .next (opRRR k 4 rd rs rt (· &&& ·) s)

/-- OR (R101). -/
def execOrD (k : CoreId) (rd rs rt : DReg) (s : State) : Host.Outcome State Fault Refusal :=
  .next (opRRR k 4 rd rs rt (· ||| ·) s)

/-- XOR (R101). -/
def execXorD (k : CoreId) (rd rs rt : DReg) (s : State) : Host.Outcome State Fault Refusal :=
  .next (opRRR k 4 rd rs rt (· ^^^ ·) s)

/-- ANDN: d[s] and not d[t] (R101). -/
def execAndn (k : CoreId) (rd rs rt : DReg) (s : State) : Host.Outcome State Fault Refusal :=
  .next (opRRR k 4 rd rs rt (fun a b => a &&& ~~~ b) s)

/-- SLL by d[t][5:0] (R101). -/
def execSll (k : CoreId) (rd rs rt : DReg) (s : State) : Host.Outcome State Fault Refusal :=
  .next (opRRR k 4 rd rs rt (fun a b => a <<< (b.toNat % 64)) s)

/-- SRL by d[t][5:0] (R101). -/
def execSrl (k : CoreId) (rd rs rt : DReg) (s : State) : Host.Outcome State Fault Refusal :=
  .next (opRRR k 4 rd rs rt (fun a b => a >>> (b.toNat % 64)) s)

/-- SRA by d[t][5:0] (R101). -/
def execSra (k : CoreId) (rd rs rt : DReg) (s : State) : Host.Outcome State Fault Refusal :=
  .next (opRRR k 4 rd rs rt (fun a b => a.sshiftRight (b.toNat % 64)) s)

/-- ROR by d[t][5:0] (R101). -/
def execRor (k : CoreId) (rd rs rt : DReg) (s : State) : Host.Outcome State Fault Refusal :=
  .next (opRRR k 4 rd rs rt (fun a b => ror64 a (b.toNat % 64)) s)

/-- ADD.W: sext(low32(d[s] + d[t])) (R101). -/
def execAddW (k : CoreId) (rd rs rt : DReg) (s : State) : Host.Outcome State Fault Refusal :=
  .next (opRRR k 4 rd rs rt (fun a b => w32 (low32 (a + b))) s)

/-- SUB.W (R101). -/
def execSubW (k : CoreId) (rd rs rt : DReg) (s : State) : Host.Outcome State Fault Refusal :=
  .next (opRRR k 4 rd rs rt (fun a b => w32 (low32 (a - b))) s)

/-- SLL.W: low32(d[s]) by d[t][4:0] (R101). -/
def execSllW (k : CoreId) (rd rs rt : DReg) (s : State) : Host.Outcome State Fault Refusal :=
  .next (opRRR k 4 rd rs rt (fun a b => w32 (low32 a <<< (b.toNat % 32))) s)

/-- SRL.W fills with zeros (R101). -/
def execSrlW (k : CoreId) (rd rs rt : DReg) (s : State) : Host.Outcome State Fault Refusal :=
  .next (opRRR k 4 rd rs rt (fun a b => w32 (low32 a >>> (b.toNat % 32))) s)

/-- SRA.W fills with bit 31 (R101). -/
def execSraW (k : CoreId) (rd rs rt : DReg) (s : State) : Host.Outcome State Fault Refusal :=
  .next (opRRR k 4 rd rs rt (fun a b => w32 ((low32 a).sshiftRight (b.toNat % 32))) s)

/-- MIN, signed (R101). -/
def execMin (k : CoreId) (rd rs rt : DReg) (s : State) : Host.Outcome State Fault Refusal :=
  .next (opRRR k 4 rd rs rt (fun a b => if a.slt b then a else b) s)

/-- MAX, signed (R101). -/
def execMax (k : CoreId) (rd rs rt : DReg) (s : State) : Host.Outcome State Fault Refusal :=
  .next (opRRR k 4 rd rs rt (fun a b => if a.slt b then b else a) s)

/-- MINU (R101). -/
def execMinu (k : CoreId) (rd rs rt : DReg) (s : State) : Host.Outcome State Fault Refusal :=
  .next (opRRR k 4 rd rs rt (fun a b => if a.ult b then a else b) s)

/-- MAXU (R101). -/
def execMaxu (k : CoreId) (rd rs rt : DReg) (s : State) : Host.Outcome State Fault Refusal :=
  .next (opRRR k 4 rd rs rt (fun a b => if a.ult b then b else a) s)

/-- ADDI: d[s] + sext(imm14) (R101). -/
def execAddi (k : CoreId) (rd rs : DReg) (imm : BitVec 14) (s : State) : Host.Outcome State Fault Refusal :=
  .next (opRR k 4 rd rs (· + sx imm) s)

/-- ANDI: zext(imm14) (R101). -/
def execAndi (k : CoreId) (rd rs : DReg) (imm : BitVec 14) (s : State) : Host.Outcome State Fault Refusal :=
  .next (opRR k 4 rd rs (· &&& zx imm) s)

/-- ORI (R101). -/
def execOri (k : CoreId) (rd rs : DReg) (imm : BitVec 14) (s : State) : Host.Outcome State Fault Refusal :=
  .next (opRR k 4 rd rs (· ||| zx imm) s)

/-- XORI (R101). -/
def execXori (k : CoreId) (rd rs : DReg) (imm : BitVec 14) (s : State) : Host.Outcome State Fault Refusal :=
  .next (opRR k 4 rd rs (· ^^^ zx imm) s)

/-- SHI: the kind and amount of R97. -/
def execShi (k : CoreId) (rd rs : DReg) (kind : Fin 4) (sh : Fin 64) (s : State) : Host.Outcome State Fault Refusal :=
  .next (opRR k 4 rd rs (shiftKind kind · sh.val) s)

/-- CSETI: 1 if d[s] cc sext(imm11) holds, else 0; cc 6 and 7 are illegal (R77, R97, R101). -/
def execCseti (k : CoreId) (rd rs : DReg) (cc : Fin 8) (imm : BitVec 11) (s : State) : Host.Outcome State Fault Refusal :=
  .next (opCond k 4 rd rs [] cc (fun _ => sx imm) s)

/-- MOVU: sext64(imm19 << 13) (R101). -/
def execMovu (k : CoreId) (rd : DReg) (imm : BitVec 19) (s : State) : Host.Outcome State Fault Refusal :=
  .next (s.compute k 4 [] [.d rd.val] fun c => c.wd rd (upperImm imm))

/-- ADDPC: pc + sext64(imm19 << 13) (R104). -/
def execAddpc (k : CoreId) (rd : AReg) (imm : BitVec 19) (s : State) : Host.Outcome State Fault Refusal :=
  .next (s.compute k 4 [] [.a rd.val] fun c => c.wa rd (c.pc + upperImm imm))

/-- CSET.cc: 1 if d[s] cc d[t] holds, else 0 (R77, R101). -/
def execCset (k : CoreId) (rd rs rt : DReg) (cc : Fin 8) (s : State) : Host.Outcome State Fault Refusal :=
  .next (opCond k 4 rd rs [.d rt.val] cc (fun c => c.rd rt) s)

/-- MUL: the low 64 bits (R102). -/
def execMul (k : CoreId) (rd rs rt : DReg) (s : State) : Host.Outcome State Fault Refusal :=
  .next (opRRR k 4 rd rs rt (· * ·) s)

/-- MULH: the high 64 bits of the signed product (R102). -/
def execMulh (k : CoreId) (rd rs rt : DReg) (s : State) : Host.Outcome State Fault Refusal :=
  .next (opRRR k 4 rd rs rt (fun a b => BitVec.ofInt 64 (a.toInt * b.toInt / 2 ^ 64)) s)

/-- MULHU: the high 64 bits of the unsigned product (R102). -/
def execMulhu (k : CoreId) (rd rs rt : DReg) (s : State) : Host.Outcome State Fault Refusal :=
  .next (opRRR k 4 rd rs rt (fun a b => BitVec.ofNat 64 (a.toNat * b.toNat / 2 ^ 64)) s)

/-- DIV with the fixed corners of R102. -/
def execDiv (k : CoreId) (rd rs rt : DReg) (s : State) : Host.Outcome State Fault Refusal :=
  .next (opRRR k 4 rd rs rt divS s)

/-- DIV.W on low32 of both operands, sign-extended (R102). -/
def execDivW (k : CoreId) (rd rs rt : DReg) (s : State) : Host.Outcome State Fault Refusal :=
  .next (opRRR k 4 rd rs rt (fun a b => w32 (divS (low32 a) (low32 b))) s)

/-- DIVU with the fixed corners of R102. -/
def execDivu (k : CoreId) (rd rs rt : DReg) (s : State) : Host.Outcome State Fault Refusal :=
  .next (opRRR k 4 rd rs rt divU s)

/-- DIVU.W on low32 of both operands, sign-extended (R102). -/
def execDivuW (k : CoreId) (rd rs rt : DReg) (s : State) : Host.Outcome State Fault Refusal :=
  .next (opRRR k 4 rd rs rt (fun a b => w32 (divU (low32 a) (low32 b))) s)

/-- REM with the fixed corners of R102. -/
def execRem (k : CoreId) (rd rs rt : DReg) (s : State) : Host.Outcome State Fault Refusal :=
  .next (opRRR k 4 rd rs rt remS s)

/-- REM.W on low32 of both operands, sign-extended (R102). -/
def execRemW (k : CoreId) (rd rs rt : DReg) (s : State) : Host.Outcome State Fault Refusal :=
  .next (opRRR k 4 rd rs rt (fun a b => w32 (remS (low32 a) (low32 b))) s)

/-- REMU with the fixed corners of R102. -/
def execRemu (k : CoreId) (rd rs rt : DReg) (s : State) : Host.Outcome State Fault Refusal :=
  .next (opRRR k 4 rd rs rt remU s)

/-- REMU.W on low32 of both operands, sign-extended (R102). -/
def execRemuW (k : CoreId) (rd rs rt : DReg) (s : State) : Host.Outcome State Fault Refusal :=
  .next (opRRR k 4 rd rs rt (fun a b => w32 (remU (low32 a) (low32 b))) s)

/-- MUL.W: sext(low32(d[s] × d[t])) (R102). -/
def execMulW (k : CoreId) (rd rs rt : DReg) (s : State) : Host.Outcome State Fault Refusal :=
  .next (opRRR k 4 rd rs rt (fun a b => w32 (low32 (a * b))) s)

/-- CLZ: 64 when d[s] = 0 (R114). -/
def execClz (k : CoreId) (rd rs : DReg) (s : State) : Host.Outcome State Fault Refusal :=
  .next (opRR k 4 rd rs clz64 s)

/-- CTZ: 64 when d[s] = 0 (R114). -/
def execCtz (k : CoreId) (rd rs : DReg) (s : State) : Host.Outcome State Fault Refusal :=
  .next (opRR k 4 rd rs (fun v => BitVec.ofNat 64 (ctzFrom v.toNat 64)) s)

/-- POPC (R114). -/
def execPopc (k : CoreId) (rd rs : DReg) (s : State) : Host.Outcome State Fault Refusal :=
  .next (opRR k 4 rd rs (fun v => BitVec.ofNat 64 (popFrom v.toNat 64)) s)

/-- BREV: bit i is bit 63 − i (R114). -/
def execBrev (k : CoreId) (rd rs : DReg) (s : State) : Host.Outcome State Fault Refusal :=
  .next (opRR k 4 rd rs (fun v => BitVec.ofNat 64 (revUnits 1 v.toNat 64)) s)

/-- BSWAP: byte i is byte 7 − i (R114). -/
def execBswap (k : CoreId) (rd rs : DReg) (s : State) : Host.Outcome State Fault Refusal :=
  .next (opRR k 4 rd rs (fun v => BitVec.ofNat 64 (revUnits 8 v.toNat 8)) s)

/-- HSWAP: halfword i is halfword 3 − i (R114). -/
def execHswap (k : CoreId) (rd rs : DReg) (s : State) : Host.Outcome State Fault Refusal :=
  .next (opRR k 4 rd rs (fun v => BitVec.ofNat 64 (revUnits 16 v.toNat 4)) s)

/-- PARB: per-byte parity (R114). -/
def execParb (k : CoreId) (rd rs : DReg) (s : State) : Host.Outcome State Fault Refusal :=
  .next (opRR k 4 rd rs (fun v => BitVec.ofNat 64 (parUnits 8 v.toNat 8)) s)

/-- PARW: per-word parity (R114). -/
def execParw (k : CoreId) (rd rs : DReg) (s : State) : Host.Outcome State Fault Refusal :=
  .next (opRR k 4 rd rs (fun v => BitVec.ofNat 64 (parUnits 32 v.toNat 2)) s)

/-- CRC32C.x: poly 0, on low32 of d[s] (R115). -/
def execCrc32c (k : CoreId) (rd rs rt : DReg) (wd : Fin 4) (s : State) : Host.Outcome State Fault Refusal :=
  .next (opRRR k 4 rd rs rt (fun a b => crcBits 0x82F63B78 (zx (low32 a)) b.toNat (crcWidth wd)) s)

/-- CRC64.x: poly 1 (R115). -/
def execCrc64 (k : CoreId) (rd rs rt : DReg) (wd : Fin 4) (s : State) : Host.Outcome State Fault Refusal :=
  .next (opRRR k 4 rd rs rt (fun a b => crcBits 0xC96C5795D7870F42 a b.toNat (crcWidth wd)) s)

/-- CRCP.x: the polynomial of SYS_CRC_POLY; with 0 it shifts without feedback (R115, R116). -/
def execCrcp (k : CoreId) (rd rs rt : DReg) (wd : Fin 4) (s : State) : Host.Outcome State Fault Refusal :=
  .next (s.compute k 4 [.d rs.val, .d rt.val] [.d rd.val] fun c => c.wd rd (crcBits (c.rsys Srn.crcPoly) (c.rd rs) (c.rd rt).toNat (crcWidth wd)))

/-- ADDA: As + Dt (R103). -/
def execAdda (k : CoreId) (rd rs : AReg) (rt : DReg) (s : State) : Host.Outcome State Fault Refusal :=
  .next (opAAD k 4 rd rs rt (· + ·) s)

/-- SUBA: As − Dt (R103). -/
def execSuba (k : CoreId) (rd rs : AReg) (rt : DReg) (s : State) : Host.Outcome State Fault Refusal :=
  .next (opAAD k 4 rd rs rt (· - ·) s)

/-- SADDA: As + (Dt << n), n = 1 to 3 (R95, R103); the operand holds n − 1. -/
def execSadda (k : CoreId) (rd rs : AReg) (rt : DReg) (n : Fin 3) (s : State) : Host.Outcome State Fault Refusal :=
  .next (opAAD k 4 rd rs rt (fun a b => a + (b <<< (n.val + 1))) s)

/-- MOVAD: Ad ← Ds (R103). -/
def execMovad (k : CoreId) (rd : AReg) (rs : DReg) (s : State) : Host.Outcome State Fault Refusal :=
  .next (s.compute k 4 [.d rs.val] [.a rd.val] fun c => c.wa rd (c.rd rs))

/-- MOVDA: Dd ← As (R103). -/
def execMovda (k : CoreId) (rd : DReg) (rs : AReg) (s : State) : Host.Outcome State Fault Refusal :=
  .next (s.compute k 4 [.a rs.val] [.d rd.val] fun c => c.wd rd (c.ra' rs))

/-- CMPA.cc: 1 to Dd if a[s] cc a[t] holds, 0 otherwise (R104); cc 6 and 7 are not assigned. -/
def execCmpa (k : CoreId) (rd : DReg) (rs rt : AReg) (cc : Fin 8) (s : State) : Host.Outcome State Fault Refusal :=
  .next (if cc.val < 6 then
      s.compute k 4 [.a rs.val, .a rt.val] [.d rd.val] fun c => c.wd rd (boolWord ((condHolds cc (c.ra' rs) (c.ra' rt)).getD false))
    else s.illegal k 4)

/-- ADDAI: As + sext(imm14) (R103). -/
def execAddai (k : CoreId) (rd rs : AReg) (imm : BitVec 14) (s : State) : Host.Outcome State Fault Refusal :=
  .next (opAA k 4 rd rs (· + sx imm) s)

/-! ## Short forms (R87–R90) -/

/-- ALU.S: 0 MOV, 1 ADD, 2 SUB, 3 AND, 4 OR, 5 XOR, 6 SLL, 7 SRA, each on Dd and Ds (R87). The halfword 0x0000 (MOV D0, D0)
is illegal (R85). -/
def execAluS (k : CoreId) (fn : Fin 8) (rd rs : SDReg) (s : State) : Host.Outcome State Fault Refusal :=
  let x := longD rd
  let y := longD rs
  .next (match fn.val with
    | 0 => if rd.val = 0 ∧ rs.val = 0 then s.illegal k 2 else opRR k 2 x y (fun v => v) s
    | 1 => opRRR k 2 x x y (· + ·) s
    | 2 => opRRR k 2 x x y (· - ·) s
    | 3 => opRRR k 2 x x y (· &&& ·) s
    | 4 => opRRR k 2 x x y (· ||| ·) s
    | 5 => opRRR k 2 x x y (· ^^^ ·) s
    | 6 => opRRR k 2 x x y (fun a b => a <<< (b.toNat % 64)) s
    | _ => opRRR k 2 x x y (fun a b => a.sshiftRight (b.toNat % 64)) s)

/-- ADDI.S: Dd + sext(imm7); ADDI.S D0, 0 is the no-operation and every other form with Dd = 0 is reserved (R87, R89). -/
def execAddiS (k : CoreId) (rd : SDReg) (imm : BitVec 7) (s : State) : Host.Outcome State Fault Refusal :=
  .next (if rd.val = 0 ∧ imm ≠ 0 then s.illegal k 2 else opRR k 2 (longD rd) (longD rd) (· + sx imm) s)

/-- MOVI.S: sext(imm7); a form with Dd = 0 is reserved (R87, R89). -/
def execMoviS (k : CoreId) (rd : SDReg) (imm : BitVec 7) (s : State) : Host.Outcome State Fault Refusal :=
  .next (if rd.val = 0 then s.illegal k 2 else s.compute k 2 [] [.d rd.val] fun c => c.wd (longD rd) (sx imm))

/-- CSET.S: Dd ← (Dd cc Ds), with cc in fn (R87). -/
def execCsetS (k : CoreId) (cc : Fin 8) (rd rs : SDReg) (s : State) : Host.Outcome State Fault Refusal :=
  .next (opCond k 2 (longD rd) (longD rd) [.d rs.val] cc (fun c => c.rd (longD rs)) s)

/-- ADDA.S: Ad + sext(imm8) × 8 (R87). -/
def execAddaS (k : CoreId) (rd : SAReg) (imm : BitVec 8) (s : State) : Host.Outcome State Fault Refusal :=
  .next (opAA k 2 (longA rd) (longA rd) (· + immX8 imm) s)

/-- ADDSP.S: A15 + sext(imm11) × 16 (R87). -/
def execAddspS (k : CoreId) (imm : BitVec 11) (s : State) : Host.Outcome State Fault Refusal :=
  .next (opAA k 2 15 15 (· + immX16 imm) s)

/-- AD.S: 0 ADDA, 1–3 SADDA, 4 SUBA, 5 MOVAD Ad ← Ds, 6 MOVDA Ds ← Ad; 7–15 reserved (R87). -/
def execAdS (k : CoreId) (fn : Fin 16) (rd : SAReg) (rs : SDReg) (s : State) : Host.Outcome State Fault Refusal :=
  let x := longA rd
  let y := longD rs
  .next (match fn.val with
    | 0 => opAAD k 2 x x y (· + ·) s
    | 1 => opAAD k 2 x x y (fun a b => a + (b <<< 1)) s
    | 2 => opAAD k 2 x x y (fun a b => a + (b <<< 2)) s
    | 3 => opAAD k 2 x x y (fun a b => a + (b <<< 3)) s
    | 4 => opAAD k 2 x x y (· - ·) s
    | 5 => s.compute k 2 [.d y.val] [.a x.val] fun c => c.wa x (c.rd y)
    | 6 => s.compute k 2 [.a x.val] [.d y.val] fun c => c.wd y (c.ra' x)
    | _ => s.illegal k 2)

/-- MOVA.S: Ad ← As (R87, R88). -/
def execMovaS (k : CoreId) (rd rs : SAReg) (s : State) : Host.Outcome State Fault Refusal :=
  .next (opAA k 2 (longA rd) (longA rs) (fun v => v) s)

/-- SHI.S: dir 0 left, dir 1 logical right, by sh6 (R87). -/
def execShiS (k : CoreId) (rd : SDReg) (dir : Bool) (sh : Fin 64) (s : State) : Host.Outcome State Fault Refusal :=
  .next (opRR k 2 (longD rd) (longD rd) (fun v => if dir then v >>> sh.val else v <<< sh.val) s)

end Sys2Proof.Machine
end

