-- ==== Sys2Proof/Machine/Float.lean ====
section
/-! DEFINITION. The floating-point instructions (R110–R113): exact values as a sign, an integer significand and an exponent of
two, and one rounding to binary32 or binary64 as IEEE 754-2019 gives it. -/

namespace Sys2Proof.Machine

/-- A binary format: precision in bits and bias; the width is that of the register view. -/
structure FpFmt where
  prec : Nat
  bias : Nat
  deriving DecidableEq, Repr

def fp32 : FpFmt := ⟨24, 127⟩
def fp64 : FpFmt := ⟨53, 1023⟩
def fmtOf (dp : Bool) : FpFmt := if dp then fp64 else fp32

/-- The exponent bits of a format. -/
def FpFmt.ebits (f : FpFmt) : Nat := bitLen f.bias + 1

/-- A datum: a NaN (signalling or quiet), an infinity, or ±m × 2^e. -/
inductive FpVal where
  | nan (signalling : Bool)
  | inf (neg : Bool)
  | fin (neg : Bool) (m : Nat) (e : Int)
  deriving DecidableEq, Repr

/-- The sign bit of an encoding. -/
def FpFmt.neg (f : FpFmt) (b : Nat) : Bool := b / 2 ^ (f.prec - 1 + f.ebits) % 2 == 1

/-- The datum an encoding stands for. -/
def FpFmt.decode (f : FpFmt) (b : Nat) : FpVal :=
  let frac := b % 2 ^ (f.prec - 1)
  let ex := b / 2 ^ (f.prec - 1) % 2 ^ f.ebits
  let ng := f.neg b
  if ex = 2 ^ f.ebits - 1 then (if frac = 0 then .inf ng else .nan (frac / 2 ^ (f.prec - 2) % 2 == 0))
  else if ex = 0 then .fin ng frac (2 - (f.bias : Int) - f.prec)
  else .fin ng (frac + 2 ^ (f.prec - 1)) ((ex : Int) + 1 - f.bias - f.prec)

def FpFmt.signBit (f : FpFmt) (ng : Bool) : Nat := if ng then 2 ^ (f.prec - 1 + f.ebits) else 0
def FpFmt.encInf (f : FpFmt) (ng : Bool) : Nat := f.signBit ng + (2 ^ f.ebits - 1) * 2 ^ (f.prec - 1)
/-- The largest finite magnitude. -/
def FpFmt.encMax (f : FpFmt) (ng : Bool) : Nat := f.signBit ng + (2 ^ f.ebits - 1) * 2 ^ (f.prec - 1) - 1
/-- The canonical quiet NaN (R112). -/
def FpFmt.encNan (f : FpFmt) : Nat := (2 ^ f.ebits - 1) * 2 ^ (f.prec - 1) + 2 ^ (f.prec - 2)

/-- The rounding modes (R95). -/
inductive FpRm where
  | rne | rtz | rdn | rup | rmm
  deriving DecidableEq, Repr

def fxNX : FpFlags := 1
def fxUF : FpFlags := 2
def fxOF : FpFlags := 4
def fxDZ : FpFlags := 8
def fxNV : FpFlags := 16

/-- Whether a significand is rounded away from zero: `rem` of `2^sh` and a sticky remainder below it. -/
def roundUp (rm : FpRm) (ng : Bool) (sig rem sh : Nat) (sticky : Bool) : Bool :=
  let twice := 2 * rem
  let whole := if sh = 0 then 1 else 2 ^ sh
  match rm with
  | .rne => decide (twice > whole) || (twice == whole && (sticky || sig % 2 == 1))
  | .rtz => false
  | .rdn => ng && (rem != 0 || sticky)
  | .rup => !ng && (rem != 0 || sticky)
  | .rmm => decide (twice ≥ whole)

/-- Round ±m × 2^e (with a sticky remainder below it) to units of 2^q: the significand and whether it is inexact. -/
def roundAt (rm : FpRm) (ng : Bool) (m : Nat) (e q : Int) (sticky : Bool) : Nat × Bool :=
  if q ≤ e then (m * 2 ^ (e - q).toNat, sticky)
  else
    let sh := (q - e).toNat
    let sig := m / 2 ^ sh
    let rem := m % 2 ^ sh
    (if roundUp rm ng sig rem sh sticky then sig + 1 else sig, rem != 0 || sticky)

/-- One rounding of ±m × 2^e to a format: the encoding and the flags; tininess is detected after rounding (R110). -/
def FpFmt.round (f : FpFmt) (rm : FpRm) (ng : Bool) (m : Nat) (e : Int) (sticky : Bool) : Nat × FpFlags :=
  if m = 0 && !sticky then (f.signBit ng, 0) else
  let emin : Int := 1 - f.bias
  let top : Int := e + bitLen m - 1
  let qu : Int := top - (f.prec - 1)
  let q : Int := max qu (emin - (f.prec - 1))
  let (sig, inexact) := roundAt rm ng m e q sticky
  let (sigU, _) := roundAt rm ng m e qu sticky
  let tiny := decide (qu + bitLen sigU - 1 < emin)
  let (sig, q) := if sig = 2 ^ f.prec then (2 ^ (f.prec - 1), q + 1) else (sig, q)
  if (f.bias : Int) < q + bitLen sig - 1 then
    let toInf := match rm with | .rne => true | .rmm => true | .rtz => false | .rdn => ng | .rup => !ng
    (if toInf then f.encInf ng else f.encMax ng, fxOF ||| fxNX)
  else
    let enc := if sig < 2 ^ (f.prec - 1) then sig else sig - 2 ^ (f.prec - 1) + (q + f.prec - 1 + f.bias).toNat * 2 ^ (f.prec - 1)
    (f.signBit ng + enc, (if inexact then fxNX else 0) ||| (if inexact && tiny then fxUF else 0))

/-- NV for a signalling NaN operand. -/
def snan : FpVal → FpFlags
  | .nan true => fxNV
  | _ => 0

def FpVal.isNan : FpVal → Bool
  | .nan _ => true
  | _ => false

/-- The sign of an exact zero sum: that of equal signs, otherwise plus, minus under RDN. -/
def zeroSign (rm : FpRm) (a b : Bool) : Bool := if a == b then a else rm == .rdn

/-- ±m as an integer scaled to exponent `e0`. -/
def scaled (ng : Bool) (m : Nat) (e e0 : Int) : Int :=
  let v : Int := m * 2 ^ (e - e0).toNat
  if ng then -v else v

/-- The rounded sum of two finite values. -/
def FpFmt.addFin (f : FpFmt) (rm : FpRm) (n1 : Bool) (m1 : Nat) (e1 : Int) (n2 : Bool) (m2 : Nat) (e2 : Int) : Nat × FpFlags :=
  let e0 := min e1 e2
  let v := scaled n1 m1 e1 e0 + scaled n2 m2 e2 e0
  if v = 0 then (f.signBit (zeroSign rm n1 n2), 0) else f.round rm (decide (v < 0)) v.natAbs e0 false

/-- Addition (R113). -/
def FpFmt.add (f : FpFmt) (rm : FpRm) (a b : FpVal) : Nat × FpFlags :=
  match a, b with
  | .nan _, _ => (f.encNan, snan a ||| snan b)
  | _, .nan _ => (f.encNan, snan b)
  | .inf x, .inf y => if x = y then (f.encInf x, 0) else (f.encNan, fxNV)
  | .inf x, .fin .. => (f.encInf x, 0)
  | .fin .., .inf y => (f.encInf y, 0)
  | .fin n1 m1 e1, .fin n2 m2 e2 => f.addFin rm n1 m1 e1 n2 m2 e2

/-- The opposite sign; a NaN stays a NaN. -/
def FpVal.negate : FpVal → FpVal
  | .nan s => .nan s
  | .inf n => .inf !n
  | .fin n m e => .fin (!n) m e

/-- Multiplication (R113). -/
def FpFmt.mul (f : FpFmt) (rm : FpRm) (a b : FpVal) : Nat × FpFlags :=
  match a, b with
  | .nan _, _ => (f.encNan, snan a ||| snan b)
  | _, .nan _ => (f.encNan, snan b)
  | .inf x, .inf y => (f.encInf (x != y), 0)
  | .inf x, .fin n m _ => if m = 0 then (f.encNan, fxNV) else (f.encInf (x != n), 0)
  | .fin n m _, .inf y => if m = 0 then (f.encNan, fxNV) else (f.encInf (n != y), 0)
  | .fin n1 m1 e1, .fin n2 m2 e2 => f.round rm (n1 != n2) (m1 * m2) (e1 + e2) false

/-- Division; a finite non-zero value by zero gives a signed infinity and DZ (R113). -/
def FpFmt.div (f : FpFmt) (rm : FpRm) (a b : FpVal) : Nat × FpFlags :=
  match a, b with
  | .nan _, _ => (f.encNan, snan a ||| snan b)
  | _, .nan _ => (f.encNan, snan b)
  | .inf _, .inf _ => (f.encNan, fxNV)
  | .inf x, .fin n _ _ => (f.encInf (x != n), 0)
  | .fin n _ _, .inf y => (f.signBit (n != y), 0)
  | .fin n1 m1 e1, .fin n2 m2 e2 =>
    if m2 = 0 then (if m1 = 0 then (f.encNan, fxNV) else (f.encInf (n1 != n2), fxDZ))
    else
      let k := f.prec + 3 + bitLen m2
      f.round rm (n1 != n2) (m1 * 2 ^ k / m2) (e1 - e2 - k) (m1 * 2 ^ k % m2 != 0)

/-- The integer square root, bit by bit from bit `n − 1`. -/
def isqrt (v r : Nat) : Nat → Nat
  | 0 => r
  | n + 1 => isqrt v (if (r + 2 ^ n) * (r + 2 ^ n) ≤ v then r + 2 ^ n else r) n

/-- Square root; −0 gives −0, a value below zero gives NaN and NV (R113). -/
def FpFmt.sqrt (f : FpFmt) (rm : FpRm) (a : FpVal) : Nat × FpFlags :=
  match a with
  | .nan _ => (f.encNan, snan a)
  | .inf n => if n then (f.encNan, fxNV) else (f.encInf false, 0)
  | .fin n m e =>
    if m = 0 then (f.signBit n, 0)
    else if n then (f.encNan, fxNV)
    else
      let e0 : Int := e - (e % 2) - 2 * (f.prec + 2)
      let v := m * 2 ^ (e - e0).toNat
      let r := isqrt v 0 (bitLen v / 2 + 1)
      f.round rm false r (e0 / 2) (r * r != v)

/-- a × b + c with one rounding; ∞ × 0 is invalid even beside a quiet NaN (R113). -/
def FpFmt.fma (f : FpFmt) (rm : FpRm) (a b c : FpVal) : Nat × FpFlags :=
  let inv : Bool := match a, b with
    | .inf _, .fin _ m _ => m == 0
    | .fin _ m _, .inf _ => m == 0
    | _, _ => false
  if inv then (f.encNan, fxNV ||| snan c) else
  if a.isNan || b.isNan || c.isNan then (f.encNan, snan a ||| snan b ||| snan c) else
  let neg : FpVal → Bool := fun v => match v with | .nan _ => false | .inf n => n | .fin n _ _ => n
  let pn := neg a != neg b
  match a, b, c with
  | .fin _ m1 e1, .fin _ m2 e2, .fin n3 m3 e3 => f.addFin rm pn (m1 * m2) (e1 + e2) n3 m3 e3
  | .fin .., .fin .., .inf n => (f.encInf n, 0)
  | _, _, .inf n => if n = pn then (f.encInf n, 0) else (f.encNan, fxNV)
  | _, _, _ => (f.encInf pn, 0)

/-- Order of two values that are not NaN: −1, 0, 1. −0 equals +0. -/
def fpCmp (a b : FpVal) : Int :=
  match a, b with
  | .inf x, .inf y => if x = y then 0 else if x then -1 else 1
  | .inf x, _ => if x then -1 else 1
  | _, .inf y => if y then 1 else -1
  | .fin n1 m1 e1, .fin n2 m2 e2 =>
    let e0 := min e1 e2
    (scaled n1 m1 e1 e0 - scaled n2 m2 e2 e0).sign
  | _, _ => 0

/-- Less for FMIN and FMAX, with −0 below +0 (R113). -/
def fpLess (f : FpFmt) (x y : Nat) : Bool :=
  let c := fpCmp (f.decode x) (f.decode y)
  decide (c < 0) || (c == 0 && f.neg x && !(f.neg y))

/-- FMIN and FMAX: a NaN operand yields the other operand, two NaNs the canonical NaN (R113). -/
def FpFmt.minMax (f : FpFmt) (mx : Bool) (x y : Nat) : Nat × FpFlags :=
  let a := f.decode x
  let b := f.decode y
  let fl := snan a ||| snan b
  if a.isNan && b.isNan then (f.encNan, fl)
  else if a.isNan then (y, fl)
  else if b.isNan then (x, fl)
  else if mx then (if fpLess f x y then y else x, fl) else (if fpLess f y x then y else x, fl)

/-- A finite value rounded to an integer, with the inexact mark. -/
def fpToInt (rm : FpRm) (n : Bool) (m : Nat) (e : Int) : Int × Bool :=
  let (v, x) := roundAt rm n m e 0 false
  (if n then -(v : Int) else v, x)

/-- FCVT.I: to a signed 64-bit integer, saturating with NV (R113). -/
def fcvtI (rm : FpRm) (a : FpVal) : Word × FpFlags :=
  match a with
  | .nan _ => (0x7FFFFFFFFFFFFFFF, fxNV)
  | .inf n => (if n then 0x8000000000000000 else 0x7FFFFFFFFFFFFFFF, fxNV)
  | .fin n m e =>
    let (v, x) := fpToInt rm n m e
    if v < -(2 ^ 63) then (0x8000000000000000, fxNV) else if 2 ^ 63 ≤ v then (0x7FFFFFFFFFFFFFFF, fxNV)
    else (BitVec.ofInt 64 v, if x then fxNX else 0)

/-- FCVT.U: to an unsigned 64-bit integer, saturating with NV; a negative value that rounds to 0 is only inexact (R113). -/
def fcvtU (rm : FpRm) (a : FpVal) : Word × FpFlags :=
  match a with
  | .nan _ => (0xFFFFFFFFFFFFFFFF, fxNV)
  | .inf n => (if n then 0 else 0xFFFFFFFFFFFFFFFF, fxNV)
  | .fin n m e =>
    let (v, x) := fpToInt rm n m e
    if v < 0 then (0, fxNV) else if 2 ^ 64 ≤ v then (0xFFFFFFFFFFFFFFFF, fxNV)
    else (BitVec.ofInt 64 v, if x then fxNX else 0)

/-- FCVT.P: a value of one format to the other with one rounding (R113). -/
def FpFmt.fromVal (f : FpFmt) (rm : FpRm) (a : FpVal) : Nat × FpFlags :=
  match a with
  | .nan _ => (f.encNan, snan a)
  | .inf n => (f.encInf n, 0)
  | .fin n m e => f.round rm n m e false

/-- FKIND's code: KIND [2:0], SIGN [3], FINITE [4], INT [5] (R113). -/
def FpFmt.kind (f : FpFmt) (b : Nat) : Nat :=
  let sg := b2n (f.neg b) * 8
  match f.decode b with
  | .nan s => (if s then 5 else 4) + sg
  | .inf _ => 3 + sg
  | .fin n m e =>
    let k := if m = 0 then 0 else if m < 2 ^ (f.prec - 1) then 1 else 2
    let isInt := !(fpToInt .rtz n m e).2
    k + sg + 16 + b2n isInt * 32

/-! ## Operand views (R73, R111) -/

/-- The operand bits of a precision: FP32 is bits [31:0] (R73). -/
def fpArg (dp : Bool) (v : Word) : Nat := if dp then v.toNat else v.toNat % 2 ^ 32

/-- The rounding mode a field selects; 7 takes SYS_FPCSR.RM; `none` is illegal (R95, R111). -/
def Core.fpRm (c : Core) (rm : Fin 8) : Option FpRm :=
  let m := if rm.val = 7 then fld (c.rsys Srn.fpcsr) 7 5 else rm.val
  if m = 0 then some .rne else if m = 1 then some .rtz else if m = 2 then some .rdn else if m = 3 then some .rup
  else if m = 4 then some .rmm else none

/-- Write an FP result, bits [63:32] zero for FP32, and set its flags. -/
def Core.fpPut (c : Core) (rd : DReg) (r : Nat × FpFlags) : Core := (c.wd rd (BitVec.ofNat 64 r.1)).fpFlags r.2

/-- An instruction that rounds: an invalid mode is illegal and sets no flag (R111). -/
def opFpRm (k : CoreId) (rd : DReg) (srcs : List RegName) (rm : Fin 8) (f : FpRm → Core → Nat × FpFlags) (s : State) : State :=
  match (s.core k).fpRm rm with
  | some m => s.compute k 4 srcs [.d rd.val] fun c => c.fpPut rd (f m c)
  | none => s.illegal k 4

/-- Two operands, one rounding. -/
def opFp2 (k : CoreId) (rd rs rt : DReg) (dp : Bool) (rm : Fin 8) (f : FpRm → FpVal → FpVal → Nat × FpFlags) (s : State) : State :=
  opFpRm k rd [.d rs.val, .d rt.val] rm (fun m c => f m ((fmtOf dp).decode (fpArg dp (c.rd rs))) ((fmtOf dp).decode (fpArg dp (c.rd rt)))) s

/-- Two operands, no rounding. -/
def opFpRaw (k : CoreId) (rd rs rt : DReg) (dp : Bool) (f : Nat → Nat → Nat × FpFlags) (s : State) : State :=
  s.compute k 4 [.d rs.val, .d rt.val] [.d rd.val] fun c => c.fpPut rd (f (fpArg dp (c.rd rs)) (fpArg dp (c.rd rt)))

/-- A quiet or signalling compare: NV for a signalling NaN, or for any NaN (R113). -/
def fpCompare (f : FpFmt) (signalling : Bool) (holds : Int → Bool) (nanResult : Nat) (x y : Nat) : Nat × FpFlags :=
  let a := f.decode x
  let b := f.decode y
  if a.isNan || b.isNan then (nanResult, if signalling then fxNV else snan a ||| snan b) else (b2n (holds (fpCmp a b)), 0)

/-- FADD (R111, R113). -/
def execFadd (k : CoreId) (rd rs rt : DReg) (dp : Bool) (rm : Fin 8) (s : State) : Host.Outcome State Fault Refusal :=
  .next (opFp2 k rd rs rt dp rm (fmtOf dp).add s)

/-- FSUB: addition of the opposite (R111, R113). -/
def execFsub (k : CoreId) (rd rs rt : DReg) (dp : Bool) (rm : Fin 8) (s : State) : Host.Outcome State Fault Refusal :=
  .next (opFp2 k rd rs rt dp rm (fun m a b => (fmtOf dp).add m a b.negate) s)

/-- FMUL (R111, R113). -/
def execFmul (k : CoreId) (rd rs rt : DReg) (dp : Bool) (rm : Fin 8) (s : State) : Host.Outcome State Fault Refusal :=
  .next (opFp2 k rd rs rt dp rm (fmtOf dp).mul s)

/-- FDIV (R111, R113). -/
def execFdiv (k : CoreId) (rd rs rt : DReg) (dp : Bool) (rm : Fin 8) (s : State) : Host.Outcome State Fault Refusal :=
  .next (opFp2 k rd rs rt dp rm (fmtOf dp).div s)

/-- FSQRT (R113). -/
def execFsqrt (k : CoreId) (rd rs : DReg) (dp : Bool) (rm : Fin 8) (s : State) : Host.Outcome State Fault Refusal :=
  .next (opFpRm k rd [.d rs.val] rm (fun m c => (fmtOf dp).sqrt m ((fmtOf dp).decode (fpArg dp (c.rd rs)))) s)

/-- FMIN: minimumNumber (R113). -/
def execFmin (k : CoreId) (rd rs rt : DReg) (dp : Bool) (s : State) : Host.Outcome State Fault Refusal :=
  .next (opFpRaw k rd rs rt dp ((fmtOf dp).minMax false) s)

/-- FMAX: maximumNumber (R113). -/
def execFmax (k : CoreId) (rd rs rt : DReg) (dp : Bool) (s : State) : Host.Outcome State Fault Refusal :=
  .next (opFpRaw k rd rs rt dp ((fmtOf dp).minMax true) s)

/-- FCEQ: quiet (R113). -/
def execFceq (k : CoreId) (rd rs rt : DReg) (dp : Bool) (s : State) : Host.Outcome State Fault Refusal :=
  .next (opFpRaw k rd rs rt dp (fpCompare (fmtOf dp) false (· == 0) 0) s)

/-- FCLT: signalling (R113). -/
def execFclt (k : CoreId) (rd rs rt : DReg) (dp : Bool) (s : State) : Host.Outcome State Fault Refusal :=
  .next (opFpRaw k rd rs rt dp (fpCompare (fmtOf dp) true (fun c => decide (c < 0)) 0) s)

/-- FCLE: signalling (R113). -/
def execFcle (k : CoreId) (rd rs rt : DReg) (dp : Bool) (s : State) : Host.Outcome State Fault Refusal :=
  .next (opFpRaw k rd rs rt dp (fpCompare (fmtOf dp) true (fun c => decide (c ≤ 0)) 0) s)

/-- FCUN: 1 when either operand is NaN; quiet (R113). -/
def execFcun (k : CoreId) (rd rs rt : DReg) (dp : Bool) (s : State) : Host.Outcome State Fault Refusal :=
  .next (opFpRaw k rd rs rt dp (fpCompare (fmtOf dp) false (fun _ => false) 1) s)

/-- FCVT.I (R113). -/
def execFcvtI (k : CoreId) (rd rs : DReg) (dp : Bool) (rm : Fin 8) (s : State) : Host.Outcome State Fault Refusal :=
  .next (opFpRm k rd [.d rs.val] rm (fun m c => let r := fcvtI m ((fmtOf dp).decode (fpArg dp (c.rd rs))); (r.1.toNat, r.2)) s)

/-- FCVT.U (R113). -/
def execFcvtU (k : CoreId) (rd rs : DReg) (dp : Bool) (rm : Fin 8) (s : State) : Host.Outcome State Fault Refusal :=
  .next (opFpRm k rd [.d rs.val] rm (fun m c => let r := fcvtU m ((fmtOf dp).decode (fpArg dp (c.rd rs))); (r.1.toNat, r.2)) s)

/-- FCVT.F: from a signed 64-bit integer, rounded (R113). -/
def execFcvtF (k : CoreId) (rd rs : DReg) (dp : Bool) (rm : Fin 8) (s : State) : Host.Outcome State Fault Refusal :=
  .next (opFpRm k rd [.d rs.val] rm (fun m c => (fmtOf dp).round m (decide ((c.rd rs).toInt < 0)) (c.rd rs).toInt.natAbs 0 false) s)

/-- FCVT.FU: from an unsigned 64-bit integer, rounded (R113). -/
def execFcvtFu (k : CoreId) (rd rs : DReg) (dp : Bool) (rm : Fin 8) (s : State) : Host.Outcome State Fault Refusal :=
  .next (opFpRm k rd [.d rs.val] rm (fun m c => (fmtOf dp).round m false (c.rd rs).toNat 0 false) s)

/-- FCVT.P: to the other precision; fn9[8] gives the source (R113). -/
def execFcvtP (k : CoreId) (rd rs : DReg) (dp : Bool) (rm : Fin 8) (s : State) : Host.Outcome State Fault Refusal :=
  .next (opFpRm k rd [.d rs.val] rm (fun m c => (fmtOf (!dp)).fromVal m ((fmtOf dp).decode (fpArg dp (c.rd rs)))) s)

/-- FNEG: the sign bit alone, no flag (R112). -/
def execFneg (k : CoreId) (rd rs : DReg) (dp : Bool) (s : State) : Host.Outcome State Fault Refusal :=
  .next (s.compute k 4 [.d rs.val] [.d rd.val] fun c => c.wd rd (BitVec.ofNat 64 (fpArg dp (c.rd rs)) ^^^ BitVec.ofNat 64 ((fmtOf dp).signBit true)))

/-- FABS: the sign bit alone, no flag (R112). -/
def execFabs (k : CoreId) (rd rs : DReg) (dp : Bool) (s : State) : Host.Outcome State Fault Refusal :=
  .next (s.compute k 4 [.d rs.val] [.d rd.val] fun c => c.wd rd (BitVec.ofNat 64 (fpArg dp (c.rd rs)) &&& ~~~ BitVec.ofNat 64 ((fmtOf dp).signBit true)))

/-- FKIND: the kind code; no flag (R113). -/
def execFkind (k : CoreId) (rd rs : DReg) (dp : Bool) (s : State) : Host.Outcome State Fault Refusal :=
  .next (s.compute k 4 [.d rs.val] [.d rd.val] fun c => c.wd rd (BitVec.ofNat 64 ((fmtOf dp).kind (fpArg dp (c.rd rs)))))

/-- FMADD: d[s] × d[t] + d[ra], one rounding (R113). -/
def execFmadd (k : CoreId) (rd rs rt ra : DReg) (dp : Bool) (rm : Fin 8) (s : State) : Host.Outcome State Fault Refusal :=
  .next (opFpRm k rd [.d rs.val, .d rt.val, .d ra.val] rm (fun m c => (fmtOf dp).fma m ((fmtOf dp).decode (fpArg dp (c.rd rs))) ((fmtOf dp).decode (fpArg dp (c.rd rt))) ((fmtOf dp).decode (fpArg dp (c.rd ra)))) s)

/-- FMSUB: d[s] × d[t] − d[ra], one rounding (R113). -/
def execFmsub (k : CoreId) (rd rs rt ra : DReg) (dp : Bool) (rm : Fin 8) (s : State) : Host.Outcome State Fault Refusal :=
  .next (opFpRm k rd [.d rs.val, .d rt.val, .d ra.val] rm (fun m c => (fmtOf dp).fma m ((fmtOf dp).decode (fpArg dp (c.rd rs))) ((fmtOf dp).decode (fpArg dp (c.rd rt))) ((fmtOf dp).decode (fpArg dp (c.rd ra))).negate) s)

end Sys2Proof.Machine
end

