-- ==== Sys2Proof/Machine/LoadStore.lean ====
section
/-! DEFINITION. The load, store, accumulator, atomic and reservation instructions (R106–R109, R117–R129). -/

namespace Sys2Proof.Machine

/-! ## Loads and stores -/

/-- A load of `n` bytes to a D register. -/
def ldOp (n : Nat) (sign : Bool) (dst : RaDest) (len : Nat) : LoadOp :=
  { n := n, sign := sign, dst := dst, fwd := true, stream := false, base := 0, upd := none, len := len }

/-- The type check of a load: a misaligned access to device memory (R107). -/
def tcLoad (n : Nat) (va : Nat) : TypeCheck := tcDevAligned va n .read

/-- The offset of an L-M form (R93). -/
def offM (o : BitVec 14) : Word := sx o
/-- The offset of an S-LS form (R90): off3 × size, or with P the increment (off3 + 1) × size. -/
def offS (o : Fin 8) (post : Bool) (size : Nat) : Word := BitVec.ofNat 64 ((o.val + b2n post) * size)

/-- LB: 1 byte(s), sign-extended (R106). -/
def execLb (k : CoreId) (rt : DReg) (ab : AReg) (off : BitVec 14) (post : Bool) (s : State) : Host.Outcome State Fault Refusal :=
  .next (opLoad k ab (offM off) post (tcLoad 1) false (ldOp 1 true (.d rt) 4) s)

/-- LBU: 1 byte(s), as read, zero-extended (R106). -/
def execLbu (k : CoreId) (rt : DReg) (ab : AReg) (off : BitVec 14) (post : Bool) (s : State) : Host.Outcome State Fault Refusal :=
  .next (opLoad k ab (offM off) post (tcLoad 1) false (ldOp 1 false (.d rt) 4) s)

/-- LH: 2 byte(s), sign-extended (R106). -/
def execLh (k : CoreId) (rt : DReg) (ab : AReg) (off : BitVec 14) (post : Bool) (s : State) : Host.Outcome State Fault Refusal :=
  .next (opLoad k ab (offM off) post (tcLoad 2) false (ldOp 2 true (.d rt) 4) s)

/-- LHU: 2 byte(s), as read, zero-extended (R106). -/
def execLhu (k : CoreId) (rt : DReg) (ab : AReg) (off : BitVec 14) (post : Bool) (s : State) : Host.Outcome State Fault Refusal :=
  .next (opLoad k ab (offM off) post (tcLoad 2) false (ldOp 2 false (.d rt) 4) s)

/-- LW: 4 byte(s), sign-extended (R106). -/
def execLw (k : CoreId) (rt : DReg) (ab : AReg) (off : BitVec 14) (post : Bool) (s : State) : Host.Outcome State Fault Refusal :=
  .next (opLoad k ab (offM off) post (tcLoad 4) false (ldOp 4 true (.d rt) 4) s)

/-- LWU: 4 byte(s), as read, zero-extended (R106). -/
def execLwu (k : CoreId) (rt : DReg) (ab : AReg) (off : BitVec 14) (post : Bool) (s : State) : Host.Outcome State Fault Refusal :=
  .next (opLoad k ab (offM off) post (tcLoad 4) false (ldOp 4 false (.d rt) 4) s)

/-- LD: 8 byte(s), as read, zero-extended (R106). -/
def execLd (k : CoreId) (rt : DReg) (ab : AReg) (off : BitVec 14) (post : Bool) (s : State) : Host.Outcome State Fault Refusal :=
  .next (opLoad k ab (offM off) post (tcLoad 8) false (ldOp 8 false (.d rt) 4) s)

/-- LDA: 64 bits to Ar; with P = 1 and rt equal to Ab it is reserved (R93, R106). -/
def execLda (k : CoreId) (rt ab : AReg) (off : BitVec 14) (post : Bool) (s : State) : Host.Outcome State Fault Refusal :=
  .next (if post && rt == ab then s.illegal k 4 else opLoad k ab (offM off) post (tcLoad 8) false (ldOp 8 false (.a rt) 4) s)

/-- SB: the low 1 byte(s) of Dt (R106). -/
def execSb (k : CoreId) (rt : DReg) (ab : AReg) (off : BitVec 14) (post : Bool) (s : State) : Host.Outcome State Fault Refusal :=
  .next (opStore k ab (offM off) post 1 4 false (.d rt.val) (fun c => (c.rd rt).toNat) s)

/-- SH: the low 2 byte(s) of Dt (R106). -/
def execSh (k : CoreId) (rt : DReg) (ab : AReg) (off : BitVec 14) (post : Bool) (s : State) : Host.Outcome State Fault Refusal :=
  .next (opStore k ab (offM off) post 2 4 false (.d rt.val) (fun c => (c.rd rt).toNat) s)

/-- SW: the low 4 byte(s) of Dt (R106). -/
def execSw (k : CoreId) (rt : DReg) (ab : AReg) (off : BitVec 14) (post : Bool) (s : State) : Host.Outcome State Fault Refusal :=
  .next (opStore k ab (offM off) post 4 4 false (.d rt.val) (fun c => (c.rd rt).toNat) s)

/-- SD: the low 8 byte(s) of Dt (R106). -/
def execSd (k : CoreId) (rt : DReg) (ab : AReg) (off : BitVec 14) (post : Bool) (s : State) : Host.Outcome State Fault Refusal :=
  .next (opStore k ab (offM off) post 8 4 false (.d rt.val) (fun c => (c.rd rt).toNat) s)

/-- SDA: 64 bits of Ar, the value from before the instruction (R106, R109). -/
def execSda (k : CoreId) (rt ab : AReg) (off : BitVec 14) (post : Bool) (s : State) : Host.Outcome State Fault Refusal :=
  .next (opStore k ab (offM off) post 8 4 false (.a rt.val) (fun c => (c.ra' rt).toNat) s)

/-- QLOAD: 64 bytes into Qt, 64-byte aligned, never forwarded, streaming (R106–R108, R168, R208). -/
def execQload (k : CoreId) (rt : QReg) (ab : AReg) (off : BitVec 14) (post : Bool) (s : State) : Host.Outcome State Fault Refusal :=
  .next (opLoad k ab (offM off) post (tcLoad 64) true { ldOp 64 false (.q rt) 4 with fwd := false, stream := true } s)

/-- QSAVE: 64 bytes of Qt, 64-byte aligned (R106, R107). -/
def execQsave (k : CoreId) (rt : QReg) (ab : AReg) (off : BitVec 14) (post : Bool) (s : State) : Host.Outcome State Fault Refusal :=
  .next (opStore k ab (offM off) post 64 4 true (.q rt.val) (fun c => (c.rq rt).toNat) s)

/-- LD.S: 64-bit load, scale 8 (R87, R90). -/
def execLdS (k : CoreId) (rt : SDReg) (ab : SAReg) (off : Fin 8) (post : Bool) (s : State) : Host.Outcome State Fault Refusal :=
  .next (opLoad k (longA ab) (offS off post 8) post (tcLoad 8) false (ldOp 8 false (.d (longD rt)) 2) s)

/-- LW.S: 32-bit load, scale 4 (R87, R90). -/
def execLwS (k : CoreId) (rt : SDReg) (ab : SAReg) (off : Fin 8) (post : Bool) (s : State) : Host.Outcome State Fault Refusal :=
  .next (opLoad k (longA ab) (offS off post 4) post (tcLoad 4) false (ldOp 4 true (.d (longD rt)) 2) s)

/-- ST.S: 64-bit store, scale 8 (R87, R90). -/
def execStS (k : CoreId) (rt : SDReg) (ab : SAReg) (off : Fin 8) (post : Bool) (s : State) : Host.Outcome State Fault Refusal :=
  .next (opStore k (longA ab) (offS off post 8) post 8 2 false (.d rt.val) (fun c => (c.rd (longD rt)).toNat) s)

/-- SW.S: 32-bit store, scale 4 (R87, R90). -/
def execSwS (k : CoreId) (rt : SDReg) (ab : SAReg) (off : Fin 8) (post : Bool) (s : State) : Host.Outcome State Fault Refusal :=
  .next (opStore k (longA ab) (offS off post 4) post 4 2 false (.d rt.val) (fun c => (c.rd (longD rt)).toNat) s)

/-- LDSP.S: 64 bits at A15 + off7 × 8 (R87). -/
def execLdspS (k : CoreId) (rt : SDReg) (off : BitVec 7) (s : State) : Host.Outcome State Fault Refusal :=
  .next (opLoad k 15 (offX8 off) false (tcLoad 8) false (ldOp 8 false (.d (longD rt)) 2) s)

/-- STSP.S: 64 bits to A15 + off7 × 8 (R87). -/
def execStspS (k : CoreId) (rt : SDReg) (off : BitVec 7) (s : State) : Host.Outcome State Fault Refusal :=
  .next (opStore k 15 (offX8 off) false 8 2 false (.d rt.val) (fun c => (c.rd (longD rt)).toNat) s)

/-! ## The accumulators (R117–R122) -/

/-- Lane `i` of `w` bits. -/
def lane (w : Nat) (q : Nat) (i : Nat) : Nat := q / 2 ^ (w * i) % 2 ^ w

/-- Build a line from `n` lanes of `w` bits, lane 0 lowest. -/
def fromLanes (w : Nat) (f : Nat → Nat) (n : Nat) : Line :=
  BitVec.ofNat 512 ((List.range n).foldl (fun acc i => acc + f i % 2 ^ w * 2 ^ (w * i)) 0)

/-- A signed byte. -/
def sByte (v : Nat) : Int := (BitVec.ofNat 8 v).toInt

/-- QDOT8: each int32 lane gains four products of signed bytes, modulo 2^32 (R118). -/
def qdot8 (q a b : Line) : Line :=
  fromLanes 32 (fun i =>
    let sum : Int := (List.range 4).foldl (fun acc j => acc + sByte (lane 8 a.toNat (4 * i + j)) * sByte (lane 8 b.toNat (4 * i + j))) 0
    ((lane 32 q.toNat i : Int) + sum).emod (2 ^ 32) |>.toNat) 16

/-- A bf16 value widened exactly to FP32. -/
def bf16 (v : Nat) : FpVal := fp32.decode (v * 2 ^ 16)

/-- The exact product of two values, as an infinity, a NaN or a finite value. -/
def exactMul (a b : FpVal) : FpVal :=
  match a, b with
  | .nan _, _ => .nan false
  | _, .nan _ => .nan false
  | .inf x, .inf y => .inf (x != y)
  | .inf x, .fin n m _ => if m = 0 then .nan false else .inf (x != n)
  | .fin n m _, .inf y => if m = 0 then .nan false else .inf (n != y)
  | .fin n1 m1 e1, .fin n2 m2 e2 => .fin (n1 != n2) (m1 * m2) (e1 + e2)

/-- The exact sum of two values; the sign of an exact zero is that of equal signs, otherwise plus. -/
def exactAdd (a b : FpVal) : FpVal :=
  match a, b with
  | .nan _, _ => .nan false
  | _, .nan _ => .nan false
  | .inf x, .inf y => if x = y then .inf x else .nan false
  | .inf x, .fin .. => .inf x
  | .fin .., .inf y => .inf y
  | .fin n1 m1 e1, .fin n2 m2 e2 =>
    let e0 := min e1 e2
    let v := scaled n1 m1 e1 e0 + scaled n2 m2 e2 e0
    if v = 0 then .fin (n1 && n2) 0 e0 else .fin (decide (v < 0)) v.natAbs e0

/-- An exact value rounded once to FP32, to nearest even; every NaN is the canonical one (R119). -/
def roundF32 (v : FpVal) : Nat := (fp32.fromVal .rne v).1

/-- QDOTBF: each FP32 lane gains two bf16 products with one rounding (R118, R119). -/
def qdotbf (q a b : Line) : Line :=
  fromLanes 32 (fun i =>
    let p0 := exactMul (bf16 (lane 16 a.toNat (2 * i))) (bf16 (lane 16 b.toNat (2 * i)))
    let p1 := exactMul (bf16 (lane 16 a.toNat (2 * i + 1))) (bf16 (lane 16 b.toNat (2 * i + 1)))
    roundF32 (exactAdd (exactAdd (fp32.decode (lane 32 q.toNat i)) p0) p1)) 16

/-- QPOPC: each 64-bit lane gains the population count of its 8 bytes (R118). -/
def qpopc (q a : Line) : Line := fromLanes 64 (fun i => lane 64 q.toNat i + popFrom (lane 64 a.toNat i) 64) 8

/-- The width of a polynomial in SYS_CRC_POLY: the index of its most significant one plus 1 (R116). -/
def polyWidth (p : Word) : Nat := bitLen p.toNat

/-- The polynomial in natural form with its x^w term: bit k of SYS_CRC_POLY is the coefficient of x^(w−1−k) (R116). -/
def polyNat (p : Word) : Nat := 2 ^ polyWidth p + revUnits 1 p.toNat (polyWidth p)

/-- Reduction over GF(2): remove the ones of `v` from bit `w + n − 1` down to bit `w`. -/
def gfMod (p w : Nat) (v : Nat) : Nat → Nat
  | 0 => v
  | n + 1 => gfMod p w (if v / 2 ^ (w + n) % 2 = 1 then v ^^^ (p * 2 ^ n) else v) n

/-- The fold view: bit j of byte i is the coefficient of x^(511 − 8i − j) (R117). -/
def foldView (q : Line) : Nat := revUnits 1 q.toNat 512

/-- QCLF: s ← (s × x^512) mod p + a (R118, R120). -/
def qclf (poly : Word) (q a : Line) : Line :=
  let w := polyWidth poly
  let m := gfMod (polyNat poly) w (foldView q * 2 ^ 512) (1024 - w)
  BitVec.ofNat 512 (revUnits 1 (m ^^^ foldView a) 512)

/-- QRED.C: (s × x^w) mod p, the coefficient of x^(w−1−k) in bit k (R121). -/
def qredC (poly : Word) (q : Line) : Word :=
  let w := polyWidth poly
  BitVec.ofNat 64 (revUnits 1 (gfMod (polyNat poly) w (foldView q * 2 ^ w) 512) w)

/-- Check the addresses of a QACC one after another. -/
def qaccEach {α β : Type} (f : α → State → Res β) : List α → State → Res (List β)
  | [], s => .ok [] s
  | x :: t, s => (f x s).bind fun y s => (qaccEach f t s).bind fun l s => .ok (y :: l) s

/-- The blocks of a QACC before its data is read (R117, R157): every address is checked for alignment before any for device memory, for device
memory before any translation fault, for translation before any watchpoint, and for watchpoints before any external abort. -/
def qaccCheck (k : CoreId) (c : Core) (as : List AReg) (s : State) : Res (List (List (Part × Nat))) :=
  let va (r : AReg) : Nat := (c.ra' r).toNat
  match as.find? fun r => va r % 64 != 0 with
  | some r => .exc (excAlign (va r) .read) s
  | none =>
    let see (r : AReg) (s : State) : Res (List Part ⊕ Exc) :=
      match xlate k .read false (fun _ => none) (c.ra' r) 64 s with
      | .ok ps s => .ok (.inl ps) s
      | .exc e s => .ok (.inr e) s
      | .wait s => .wait s
    (qaccEach see as s).bind fun l s =>
      let dev (x : AReg × (List Part ⊕ Exc)) : Bool := match x.2 with | .inl ps => ps.any (·.dev) | .inr _ => false
      match (as.zip l).find? dev with
      | some (r, _) => .exc (excUnsupported (va r) .read) s
      | none =>
        match l.findSome? fun x => match x with | .inr e => some e | .inl _ => none with
        | some e => .exc e s
        | none =>
          let pss : List (List Part) := l.filterMap fun x => match x with | .inl ps => some ps | .inr _ => none
          match as.findSome? fun r => (s.wpHit k (c.ra' r) 64 true false).map fun i => (i, c.ra' r) with
          | some (i, a) => .exc (Exc.of 0x10 i a) s
          | none => if pss.any fun ps => sqTouches c.sq ps then .wait s else qaccEach (fwParts k c.inner false) pss s

/-- A load-and-accumulate instruction of one or two blocks (R96, R117): alignment, no device memory, every address
checked before Qd changes, and each named A register increased by 64 once with P = 1. -/
def opQacc (k : CoreId) (rd : QReg) (as : List AReg) (post : Bool) (legal : Core → Bool) (f : Core → Line → List Line → Line) (s : State) : State :=
  let c0 := s.core k
  let bump (c : Core) : Core := if post then (as.eraseDups).foldl (fun c r => c.wa r (c.ra' r + 64)) c else c
  match c0.ra with
  | some r => s.raGo k r (if legal c0 then s.readRa k r (as.map fun a => (a, c0.ra' a)) 64 post [.q rd.val] bump 4 else s.raStop k r)
  | none => s.run k 4 .stop fun s =>
      let c := s.core k
      if !(legal c) then .exc excIllegal s else
      match qaccCheck k c as s with
      | .wait s => .stay s
      | .exc e s' => if e.cause = 0x10 && s.rb (.coreDbgCtl k) 3 then .stay (s.halt k) else .exc e s'
      | .ok blocks s1 =>
        if s1.refused.contains (s1.pidOf k).val then .exc (excAbort (c.ra' (as.headD 0)).toNat stUnavailable 0) s1 else
        match qaccEach (readParts k { inner := c.inner, stream := post, dst := .q rd, len := 4 }) blocks s1 with
        | .wait s => .stay s
        | .exc e s => .exc e s
        | .ok vs s2 =>
          let c := s2.core k
          .done (s2.setCore k ((bump (c.wq rd (f c (c.rq rd) (vs.map fun v => BitVec.ofNat 512 v)))).adv 4))

/-- A reduction: Dd from Qs (R121); in run-ahead its result is INV (R151). -/
def opQred (k : CoreId) (rd : DReg) (rs : QReg) (legal : Core → Bool) (f : Core → Line → Word) (s : State) : State :=
  if legal (s.core k) then
    s.run k 4 (.inv [.d rd.val]) fun s => .done (s.setCore k (((s.core k).wd rd (f (s.core k) ((s.core k).rq rs))).adv 4))
  else s.illegal k 4

/-- SYS_CRC_POLY is not 0 (R120). -/
def Core.polySet (c : Core) : Bool := c.rsys Srn.crcPoly != 0

/-- QDOT8 (R118). -/
def execQdot8 (k : CoreId) (rd : QReg) (rs rt : AReg) (post : Bool) (s : State) : Host.Outcome State Fault Refusal :=
  .next (opQacc k rd [rs, rt] post (fun _ => true) (fun _ q l => qdot8 q (l.getD 0 0) (l.getD 1 0)) s)

/-- QDOTBF (R118, R119). -/
def execQdotbf (k : CoreId) (rd : QReg) (rs rt : AReg) (post : Bool) (s : State) : Host.Outcome State Fault Refusal :=
  .next (opQacc k rd [rs, rt] post (fun _ => true) (fun _ q l => qdotbf q (l.getD 0 0) (l.getD 1 0)) s)

/-- QCLF: illegal while SYS_CRC_POLY is 0 (R118, R120). -/
def execQclf (k : CoreId) (rd : QReg) (rs : AReg) (post : Bool) (s : State) : Host.Outcome State Fault Refusal :=
  .next (opQacc k rd [rs] post Core.polySet (fun c q l => qclf (c.rsys Srn.crcPoly) q (l.getD 0 0)) s)

/-- QPOPC (R118). -/
def execQpopc (k : CoreId) (rd : QReg) (rs : AReg) (post : Bool) (s : State) : Host.Outcome State Fault Refusal :=
  .next (opQacc k rd [rs] post (fun _ => true) (fun _ q l => qpopc q (l.getD 0 0)) s)

/-- QZERO: zero to all 64 bytes; in run-ahead the Q register file is not written (R121, R151). -/
def execQzero (k : CoreId) (rd : QReg) (s : State) : Host.Outcome State Fault Refusal :=
  .next (s.run k 4 (.inv [.q rd.val]) fun s => .done (s.setCore k (((s.core k).wq rd 0).adv 4)))

/-- QRED.I: the exact sum of sixteen signed lanes (R121). -/
def execQredI (k : CoreId) (rd : DReg) (rs : QReg) (s : State) : Host.Outcome State Fault Refusal :=
  .next (opQred k rd rs (fun _ => true) (fun _ q =>
    BitVec.ofInt 64 ((List.range 16).foldl (fun (acc : Int) i => acc + (BitVec.ofNat 32 (lane 32 q.toNat i)).toInt) 0)) s)

/-- The rounded FP32 sum of two encodings, NaNs as R119. -/
def f32add (x y : Nat) : Nat := (fp32.add .rne (fp32.decode x) (fp32.decode y)).1

/-- QRED.F: the pairwise tree of R121, each addition rounded to nearest even. -/
def execQredF (k : CoreId) (rd : DReg) (rs : QReg) (s : State) : Host.Outcome State Fault Refusal :=
  .next (opQred k rd rs (fun _ => true) (fun _ q =>
    let l (i : Nat) : Nat := lane 32 q.toNat i
    let t (i : Nat) : Nat := f32add (l (2 * i)) (l (2 * i + 1))
    let u (i : Nat) : Nat := f32add (t (2 * i)) (t (2 * i + 1))
    BitVec.ofNat 64 (f32add (f32add (u 0) (u 1)) (f32add (u 2) (u 3)))) s)

/-- QRED.C: illegal while SYS_CRC_POLY is 0 (R120, R121). -/
def execQredC (k : CoreId) (rd : DReg) (rs : QReg) (s : State) : Host.Outcome State Fault Refusal :=
  .next (opQred k rd rs Core.polySet (fun c q => qredC (c.rsys Srn.crcPoly) q) s)

/-- QRED.P: the sum of eight 64-bit lanes (R121). -/
def execQredP (k : CoreId) (rd : DReg) (rs : QReg) (s : State) : Host.Outcome State Fault Refusal :=
  .next (opQred k rd rs (fun _ => true) (fun _ q =>
    BitVec.ofNat 64 ((List.range 8).foldl (fun acc i => acc + lane 64 q.toNat i) 0)) s)

/-! ## Atomics (R124–R126, R249, R250) -/

/-- The operations of ATOM, on the old value and the operands at `n` bytes: `t` is low_n(d[t]) and `d` low_n(d[d]). -/
inductive AtomOp where
  | add | and_ | or_ | xor_ | swap | smin | smax | umin | umax | cas
  deriving DecidableEq, Repr

/-- A number of `n` bytes as a signed value. -/
def asSigned (n v : Nat) : Int := (BitVec.ofNat (8 * n) v).toInt

/-- The new value (R124). -/
def AtomOp.apply (op : AtomOp) (n old t d : Nat) : Nat :=
  match op with
  | .add => (old + t) % 2 ^ (8 * n)
  | .and_ => old &&& t
  | .or_ => old ||| t
  | .xor_ => old ^^^ t
  | .swap => t
  | .smin => if asSigned n old < asSigned n t then old else t
  | .smax => if asSigned n old < asSigned n t then t else old
  | .umin => if old < t then old else t
  | .umax => if old < t then t else old
  | .cas => if old = d then t else old

/-- The bytes of a line at the home, changed by a far atomic: the line is recalled and the home copy read. With cacheable memory the result
goes to the partition's L3 ways dirty (R249). With non-cacheable memory the L3 copy is written to memory and dropped, and the memory's own
unit, the channel controller or the CXL port, reads and writes it as one action (R250). `none` value: poisoned. -/
def atomHome (s : State) (ln off n : Nat) (p : Pid) (by_ : Option Nat) (cacheable : Bool) (f : Nat → Nat) : State × Option Nat :=
  let (s, got) := (s.mbDrain ln).recall ln
  let s := match got with | some (d, poi) => s.l3Put ln p d true poi | none => s
  let s := if cacheable then s.l3Check ln else (s.l3Clean ln).l3Drop ln
  let (d, poi) := if cacheable then s.homeData ln p else s.memCopy ln
  if poi then (s, none)
  else
    let d' := linePut d off n (f (lineGet d off n))
    let s := s.aged ln p by_ d (byteMask off n)
    let s := if cacheable then s.l3Put ln p d' true false else s.memPut ln d' false
    (s.wrote ln, some (lineGet d off n))

/-- The line of a store, an ATOM or an LDRES in the L1 with ownership (R165, R166, R240): it waits for the whole line in the L1 data cache or the
victim cache, and for the ownership. A draining L2 serves its hits itself and allocates nothing (R257). -/
def ownLine (k : CoreId) (inner : Bool) (ln off : Nat) (s : State) : Res L2Copy :=
  let g := clusterOf k
  if !((s.core k).holds ln inner) && (s.l2State g == 0 || (s.copy ln g).isNone) then
    .wait (s.demandMiss k ln off { inner := inner, stream := false, dst := .none, len := 0 } true)
  else match s.fetchOwned k ln (s.pidOf k) inner with
    | (s, false) => .wait s
    | (s, true) =>
      let s := s.l2Check ln g
      match s.copy ln g with
      | some cp => .ok cp s
      | none => .wait s

/-- A far ATOM, one to non-cacheable memory, and every ATOM of a drained cluster act at the home of the line (R124, R249, R250, R258). -/
def atomFar (k : CoreId) (ln off n : Nat) (cacheable : Bool) (f : Nat → Nat) (s : State) : Res (Option Nat) :=
  if !(s.lineQuiet ln) || s.snoopDeferred ln none || s.reqHold (clusterOf k) then .wait s
  else match atomHome s ln off n (s.pidOf k) (some k.val) cacheable f with
    | (s, v) => .ok v (s.saw k ln (byteMask off n))

/-- A near ATOM acts in the L1 (R125, R249). -/
def atomNear (k : CoreId) (inner : Bool) (ln off n : Nat) (f : Nat → Nat) (s : State) : Res (Option Nat) :=
  (ownLine k inner ln off s).bind fun cp s =>
    if cp.poison then .ok none s
    else .ok (some (lineGet cp.data off n)) ((s.putOwned ln k off n (f (lineGet cp.data off n))).l1Use k ln inner false true true)

/-- An ATOM instruction (R124, R125): the address must be a multiple of the width and not device memory; it waits until the
store queue is empty (R208) and acts in the L1 with ownership, or at the home. -/
def opAtom (k : CoreId) (op : AtomOp) (rd : DReg) (rs : AReg) (rt : DReg) (far w64 : Bool) (s : State) : State :=
  let n := if w64 then 8 else 4
  match (s.core k).ra with
  | some r => s.raGo k r (s.readRa k r [(rs, (s.core k).ra' rs)] n false [.d rd.val] id 4)
  | none => s.run k 4 .stop fun s =>
    let c := s.core k
    let va := c.ra' rs
    let a := va.toNat
    if a % n ≠ 0 then .exc (excAlign a .rw) s else
    match xlate k .rw false (tcNoDev a .rw) va n s with
    | .wait s => .stay s
    | .exc e s => .exc e s
    | .ok ps s1 =>
      if !c.sq.isEmpty then .stay s1 else
      match s1.wpHit k va n true true with
      | some i => s1.bpAct k i true va
      | none =>
        match fwParts k c.inner false ps s1 with
        | .ok [(p, da)] s2 =>
          if s2.refused.contains (s2.pidOf k).val then .exc (excAbort a stUnavailable 0) s2 else
          let t := (c.rd rt).toNat % 2 ^ (8 * n)
          let d := (c.rd rd).toNat % 2 ^ (8 * n)
          let f (old : Nat) : Nat := op.apply n old t d
          let home := far || !p.cacheable || s2.l2State (clusterOf k) == 2
          match (if home then atomFar k (da / 64) (da % 64) n p.cacheable f s2 else atomNear k c.inner (da / 64) (da % 64) n f s2) with
          | .wait s => .stay s
          | .exc e s => .exc e s
          | .ok none s => .exc (excAbort a stPoison 0) (s.poisonUsed k p.ppa)
          | .ok (some old) s =>
            let s := if home then s.count k 0x18 1 c.pl c.inner else s
            .done (s.setCore k (((s.core k).wd rd ((BitVec.ofNat (8 * n) old).signExtend 64)).adv 4))
        | .exc e s => .exc e s
        | _ => .stay s1

/-- ATOM.ADD (R124). -/
def execAtomAdd (k : CoreId) (rd : DReg) (rs : AReg) (rt : DReg) (far w64 : Bool) (s : State) : Host.Outcome State Fault Refusal :=
  .next (opAtom k .add rd rs rt far w64 s)

/-- ATOM.AND (R124). -/
def execAtomAnd (k : CoreId) (rd : DReg) (rs : AReg) (rt : DReg) (far w64 : Bool) (s : State) : Host.Outcome State Fault Refusal :=
  .next (opAtom k .and_ rd rs rt far w64 s)

/-- ATOM.OR (R124). -/
def execAtomOr (k : CoreId) (rd : DReg) (rs : AReg) (rt : DReg) (far w64 : Bool) (s : State) : Host.Outcome State Fault Refusal :=
  .next (opAtom k .or_ rd rs rt far w64 s)

/-- ATOM.XOR (R124). -/
def execAtomXor (k : CoreId) (rd : DReg) (rs : AReg) (rt : DReg) (far w64 : Bool) (s : State) : Host.Outcome State Fault Refusal :=
  .next (opAtom k .xor_ rd rs rt far w64 s)

/-- ATOM.SWAP (R124). -/
def execAtomSwap (k : CoreId) (rd : DReg) (rs : AReg) (rt : DReg) (far w64 : Bool) (s : State) : Host.Outcome State Fault Refusal :=
  .next (opAtom k .swap rd rs rt far w64 s)

/-- ATOM.SMIN (R124). -/
def execAtomSmin (k : CoreId) (rd : DReg) (rs : AReg) (rt : DReg) (far w64 : Bool) (s : State) : Host.Outcome State Fault Refusal :=
  .next (opAtom k .smin rd rs rt far w64 s)

/-- ATOM.SMAX (R124). -/
def execAtomSmax (k : CoreId) (rd : DReg) (rs : AReg) (rt : DReg) (far w64 : Bool) (s : State) : Host.Outcome State Fault Refusal :=
  .next (opAtom k .smax rd rs rt far w64 s)

/-- ATOM.UMIN (R124). -/
def execAtomUmin (k : CoreId) (rd : DReg) (rs : AReg) (rt : DReg) (far w64 : Bool) (s : State) : Host.Outcome State Fault Refusal :=
  .next (opAtom k .umin rd rs rt far w64 s)

/-- ATOM.UMAX (R124). -/
def execAtomUmax (k : CoreId) (rd : DReg) (rs : AReg) (rt : DReg) (far w64 : Bool) (s : State) : Host.Outcome State Fault Refusal :=
  .next (opAtom k .umax rd rs rt far w64 s)

/-- ATOM.CAS (R124). -/
def execAtomCas (k : CoreId) (rd : DReg) (rs : AReg) (rt : DReg) (far w64 : Bool) (s : State) : Host.Outcome State Fault Refusal :=
  .next (opAtom k .cas rd rs rt far w64 s)

/-! ## Reserved load and conditional store (R127–R129, R220, R221, R251) -/

/-- The value that an LDRES reads, and the state in which its line is reserved at the core, or at the home for a drained cluster
(R220, R251, R257, R258). -/
def resvRead (k : CoreId) (inner : Bool) (ln off n : Nat) (s : State) : Res (Nat × Bool) :=
  if s.l2State (clusterOf k) = 2 then
    (rdoSpan k ln off n s).bind fun v s => .ok v (if v.2 then s else { s with hresv := s.hresv.set none k.val (some ln) })
  else (ownLine k inner ln off s).bind fun cp s =>
    .ok (lineGet cp.data off n, cp.poison) (((s.resvEnds k).l1Use k ln inner false true false).saw k ln (byteMask off n))

/-- LDRES: the line is obtained with ownership, the reservation replaces any earlier one, and the deferral of snoops
begins; in a DRAINED cluster it is RSV at the home (R127, R128, R220, R251). A misaligned address also clears the reservation. -/
def execLdres (k : CoreId) (rd : DReg) (rs : AReg) (w64 : Bool) (s : State) : Host.Outcome State Fault Refusal :=
  let n := if w64 then 8 else 4
  .next (match (s.core k).ra with
  | some r => s.raGo k r (s.readRa k r [(rs, (s.core k).ra' rs)] n false [.d rd.val] id 4)
  | none => s.run k 4 .stop fun s =>
    let c := s.core k
    let va := c.ra' rs
    let a := va.toNat
    if a % n ≠ 0 then .exc (excAlign a .read) (s.setCore k { c with resv := none }) else
    match xlate k .read false (tcCacheable a .read) va n s with
    | .wait s => .stay s
    | .exc e s => .exc e s
    | .ok ps s1 =>
      if sqTouches c.sq ps then .stay s1 else
      match s1.wpHit k va n true false with
      | some i => s1.bpAct k i false va
      | none =>
        match fwParts k c.inner false ps s1 with
        | .ok [(p, da)] s2 =>
          if s2.refused.contains (s2.pidOf k).val then .exc (excAbort a stUnavailable 0) s2 else
          let home := s2.l2State (clusterOf k) == 2
          match resvRead k c.inner (da / 64) (da % 64) n s2 with
          | .wait s => .stay s
          | .exc e s => .exc e s
          | .ok (v, poi) s =>
            if poi then .exc (excAbort a stPoison 0) (s.poisonUsed k p.ppa)
            else .done (s.setCore k { (((s.core k).wd rd ((BitVec.ofNat (8 * n) v).signExtend 64)).adv 4) with
              resv := some { ln := da / 64, atHome := home, defer := !home, since := s.now } })
        | .exc e s => .exc e s
        | _ => .stay s1)

/-- The store of an STCOND whose reservation holds (R127, R221, R222, R251): at the home for a reservation held there; otherwise in the L1. Once
the deferral has expired it may fail with no other event, a free choice, but not a third time in a row: R222 bounds the failures of a
conforming loop, and the model keeps to it everywhere (log 82). -/
def resvWrite (k : CoreId) (inner : Bool) (r : Resv) (ln off n v : Nat) (s : State) : Res Bool :=
  if r.atHome || s.l2State (clusterOf k) == 2 then
    if !(s.lineQuiet ln) || s.snoopDeferred ln none || s.reqHold (clusterOf k) then .wait s
    else if (s.hresv.get none k.val : Option Nat) = some ln then
      .ok true (s.writeHome ln (s.pidOf k) (some k.val) (linePut 0 off n v) (byteMask off n) false)
    else .ok false s
  else
    (ownLine k inner ln off s).bind fun _ s =>
      if (s.core k).resv.isNone then .ok false s
      else
        let (spurious, s) := if r.defer || decide (2 ≤ (s.core k).stFail) then (false, s) else s.drawBool
        if spurious then .ok false s else .ok true ((s.putOwned ln k off n v).l1Use k ln inner false true true)

/-- STCOND: translated and checked as a store whether or not the reservation holds; it stores if the reservation holds, and
the reservation ends either way (R127, R128, R251). -/
def execStcond (k : CoreId) (rd : DReg) (rs : AReg) (rt : DReg) (w64 : Bool) (s : State) : Host.Outcome State Fault Refusal :=
  let n := if w64 then 8 else 4
  .next (match (s.core k).ra with
  | some r => s.raGo k r (s.raNext k r true [.d rd.val] 4 id)
  | none => s.run k 4 .stop fun s =>
    let c := s.core k
    let va := c.ra' rs
    let a := va.toNat
    if a % n ≠ 0 then .exc (excAlign a .write) (s.setCore k { c with resv := none }) else
    match xlate k .write false (tcCacheable a .write) va n s with
    | .wait s => .stay s
    | .exc e s => .exc e s
    | .ok ps s1 =>
      if !c.sq.isEmpty then .stay s1 else
      match s1.wpHit k va n false true with
      | some i => s1.bpAct k i true va
      | none =>
        let fin (s : State) (ok : Bool) : Act :=
          let s := if ok then s else s.count k 0x17 1 c.pl c.inner
          .done ((s.setCore k { (((s.core k).wd rd (boolWord (!ok))).adv 4) with
            resv := none, stFail := if ok then 0 else (s.core k).stFail + 1 }).resvEnds k)
        match c.resv with
        | none => fin s1 false
        | some r =>
          match fwParts k c.inner false ps s1 with
          | .ok [(_, da)] s2 =>
            if r.ln ≠ da / 64 || s2.refused.contains (s2.pidOf k).val then fin s2 false
            else match resvWrite k c.inner r (da / 64) (da % 64) n ((c.rd rt).toNat % 2 ^ (8 * n)) s2 with
              | .wait s => .stay s
              | .exc e s => .exc e s
              | .ok ok s => fin s ok
          -- a store that the fabric refuses stores nothing; its abort is imprecise (R51)
          | .exc e s2 =>
            fin (s2.abortArrives k { status := BitVec.ofNat 8 (e.info % 256), write := true, ppa := (ps.headD ⟨0, 0, 0, false, false⟩).ppa / 4096 * 4096 } false) false
          | _ => .stay s1)

end Sys2Proof.Machine
end

