-- ==== Sys2Proof/Machine/System.lean ====
section
/-! DEFINITION. Barriers, synchronisation, system registers, gates, breakpoints and returns, and the TLB and cache
maintenance instructions (R130–R140, R160, R171, R172, R196, R197, R211, R252). -/

namespace Sys2Proof.Machine

/-! ## Barriers (R130, R210, R211) -/

/-- An instruction that waits until a condition of its core holds, and has no effect in run-ahead. No later load is performed before it
(R130, R211). -/
def opWait (k : CoreId) (ready : Core → Bool) (s : State) : State :=
  s.run k 4 .nop fun s => if ready (s.core k) then .done (s.setCore k { ((s.core k).adv 4) with stale := [] }) else .stay s

/-- The normal stores have left the store queue and every device store is issued. -/
def Core.issued (c : Core) : Bool := c.sq.isEmpty && c.dq.all (·.issued)

/-- BAR.C (R211). -/
def execBarC (k : CoreId) (s : State) : Host.Outcome State Fault Refusal := .next (opWait k Core.issued s)

/-- BAR.K: also every TLBI delivered in the core's own cluster (R197, R211). -/
def execBarK (k : CoreId) (s : State) : Host.Outcome State Fault Refusal :=
  .next (opWait k (fun c => c.issued && c.tlbOut.all fun t => t.2 != (clusterOf k).val) s)

/-- BAR.S: every device store acknowledged, every TLBI and every maintenance operation complete (R211). -/
def execBarS (k : CoreId) (s : State) : Host.Outcome State Fault Refusal :=
  .next (opWait k (fun c => c.sq.isEmpty && c.dq.isEmpty && c.tlbOut.isEmpty && c.maintOut.isEmpty) s)

/-- ISYNC: earlier effects reach fetch and translation (R131, R172). -/
def execIsync (k : CoreId) (s : State) : Host.Outcome State Fault Refusal :=
  .next (s.run k 4 .stop fun s => .done (s.setCore k { ((s.core k).adv 4) with trOld := none, stale := [] }))

/-! ## System registers (R78–R80, R133, R172) -/

/-- SYS_CORE_ID (R80). -/
def State.coreIdReg (s : State) (k : CoreId) : Word :=
  BitVec.ofNat 64 (k.val + (clusterOf k).val * 2 ^ 8 + (facetOf (clusterOf k)).val * 2 ^ 16 + (s.pidOf k).val * 2 ^ 20)

/-- The Facet's copy of the tick number and of the time offset (R41). -/
def State.facetTime (s : State) (f : FacetId) : Nat × Int :=
  ((s.facets.get Facet.empty f.val).tick, (s.facets.get Facet.empty f.val).ofs)

/-- Package time on a Facet in units of 0.5 ns (R39, R41): the Facet's own tick, cycle and offset, ahead of the tick master by its phase
error (in units of 0.25 ns, at most 16 either way while it is LOCKED, R27, R28). A Facet that has begun the next tick before the master
stands at its cycle 0; one that has not yet begun the master's tick stands in its last cycle, or, when LOCKED, has begun it by
cycle 8. -/
def State.facetNow (s : State) (f : FacetId) : Int :=
  let x := s.facets.get Facet.empty f.val
  let t := s.tick % 2 ^ 48
  let base : Int :=
    if x.tick = t then Int.ofNat (2000 * x.tick + s.cycle) + x.ofs
    else if t < x.tick then Int.ofNat (2000 * x.tick) + x.ofs
    else if s.rb (.fctTickStatus f) 0 && decide (8 < s.cycle) then Int.ofNat (2000 * t + s.cycle) + (s.rg .locTimeOfs).toInt
    else Int.ofNat (2000 * x.tick + 1999) + x.ofs
  base + x.phase / 2

/-- A core reads package time on its Facet, where it never decreases (R39, R41). -/
def State.ptime (s : State) (k : CoreId) : Word × State :=
  let f := facetOf (clusterOf k)
  let x := s.facets.get Facet.empty f.val
  let v := match x.shown with | some w => max w (s.facetNow f) | none => s.facetNow f
  (BitVec.ofInt 64 v, { s with facets := s.facets.set Facet.empty f.val { x with shown := some v } })

/-- The contents that MFS returns (R133). -/
def State.mfsValue (s : State) (k : CoreId) (n : Nat) : Word × State :=
  let c := s.core k
  if n = Srn.ptime then s.ptime k
  else if n = Srn.tickNum then (BitVec.ofNat 64 (s.facetTime (facetOf (clusterOf k))).1, s)
  else if n = Srn.coreId then (s.coreIdReg k, s)
  else if n = Srn.cycle then s.cycleCount k
  else if 0x428 ≤ n ∧ n ≤ 0x42F then
    let s := s.pmcLook k (n - 0x428)
    ((s.core k).rsys n, s)
  else if n = Srn.sp0 then (c.sp.get 0 0, s)
  else if n = Srn.sp1 then (c.sp.get 0 1, s)
  else if n = Srn.sp2 then (c.sp.get 0 2, s)
  else if n = Srn.status ∨ n = Srn.hstatus ∨ n = Srn.mstatus then
    (setFld (setFld (c.rsys n) 1 0 c.pl.val) 2 2 (b2n c.inner), s)
  else (c.rsys n, s)

/-- The bits of a system register that MTS writes; the others are reserved or read-only. -/
def srnMask (n : Nat) : Word :=
  if n = Srn.pkey then 0xFFFFFFFF
  else if n = Srn.fpcsr then 0xFF
  else if n = Srn.status then 0x3F0
  else if n = Srn.hstatus then 0x303F0
  else if n = Srn.mstatus then 0x7F0
  else if n = 0x403 ∨ n = 0x803 ∨ n = 0xC03 then 0xFFFF01FF
  else if n = 0x405 ∨ n = 0x805 ∨ n = 0xC05 then ~~~ 0x7FF
  else if n = Srn.s1Root then 0x01FFFFFFFFFFF000
  else if n = Srn.s1Ctl then 0xFFFF0007
  else if n = Srn.s2Root then 0x0000FFFFFFFFF000
  else if n = Srn.s2Ctl then 0x00FF0007
  else if n = Srn.pmuCtl then 0x07FF0007
  else if n = Srn.pmuUen then 0x1FF
  else if 0x428 ≤ n ∧ n ≤ 0x42F then 0x3FFFFFFFFFFFFFFF
  else if n = Srn.smplCtl then 0xFFFFFF1F
  else if n = Srn.wctl then 0xF
  else ~~~ 0

/-- PL0 may read SYS_CYCLE and SYS_PMCn under SYS_PMU_UEN (R79). -/
def Core.userRead (c : Core) (n : Nat) : Bool :=
  (n == Srn.cycle && bit (c.rsys Srn.pmuUen) 8) ||
  (decide (0x428 ≤ n ∧ n ≤ 0x42F) && bit (c.rsys Srn.pmuUen) (n - 0x428))

/-- The checks of R78, in its order. -/
def Core.srnCheck (c : Core) (n : Nat) (write : Bool) : Option Exc :=
  if !(srnListed n) then some excIllegal
  else if c.pl.val < srnLvl n ∧ !(!write && c.pl == 0 && c.userRead n) then some excPrivilege
  else if write ∧ srnRo n then some excIllegal
  else none

/-- The effect of an MTS that passes its checks (R133, R172, R511). -/
def Core.mts (c : Core) (n : Nat) (v : Word) : Core :=
  if n = Srn.sp0 then { c with sp := c.sp.set 0 0 v }
  else if n = Srn.sp1 then { c with sp := c.sp.set 0 1 v }
  else if n = Srn.sp2 then { c with sp := c.sp.set 0 2 v }
  else
    let m := srnMask n
    let w := (c.rsys n &&& ~~~ m) ||| (v &&& m)
    let old : TrRegs := { s1Root := c.rsys Srn.s1Root, s1Ctl := c.rsys Srn.s1Ctl, s2Root := c.rsys Srn.s2Root, s2Ctl := c.rsys Srn.s2Ctl }
    let c' := c.wsys n w
    if n = Srn.s1Root ∨ n = Srn.s1Ctl ∨ n = Srn.s2Root ∨ n = Srn.s2Ctl then { c' with trOld := some (c.trOld.getD old) }
    else if n = Srn.pmuCtl then { c' with pmuInner := c.inner }
    else c'

/-- MFS (R78, R79, R133); the reads of time are never speculative (R147). -/
def execMfs (k : CoreId) (rd : DReg) (srn : BitVec 12) (s : State) : Host.Outcome State Fault Refusal :=
  let n := srn.toNat
  let mode : RaMode := if n = Srn.ptime ∨ n = Srn.tickNum ∨ n = Srn.cycle then .stop else .comp [] [.d rd.val]
  .next (s.run k 4 mode fun s =>
    match (s.core k).srnCheck n false with
    | some e => .exc e s
    | none =>
      let (v, s) := s.mfsValue k n
      .done (s.setCore k (((s.core k).wd rd v).adv 4)))

/-- A write of SYS_PMU_CTL or SYS_PMCn comes after what the counters counted before it (R511). -/
def State.mtsLook (s : State) (k : CoreId) (n : Nat) : State :=
  if n = Srn.pmuCtl ∨ (0x428 ≤ n ∧ n ≤ 0x42F) then s.pmcSettle k else s

/-- MTS (R78, R133, R511). -/
def execMts (k : CoreId) (srn : BitVec 12) (rs : DReg) (s : State) : Host.Outcome State Fault Refusal :=
  let n := srn.toNat
  .next (s.run k 4 .stop fun s =>
    let c := s.core k
    match c.srnCheck n true with
    | some e => .exc e s
    | none =>
      let s := s.mtsLook k n
      .done (s.setCore k (((s.core k).mts n (c.rd rs)).adv 4)))

/-! ## Calls, breakpoints and returns (R134–R137, R160) -/

/-- A call to a level: it retires, and the exception PC is pc + 4 (R134, R159). -/
def opGate (k : CoreId) (cause : Nat) (code : BitVec 12) (tgt : Core → Exc ⊕ Level) (s : State) : State :=
  s.run k 4 .stop fun s =>
    let c := s.core k
    match tgt c with
    | .inl e => .exc e s
    | .inr l =>
      let e : Exc := { Exc.of cause code.toNat 0 with tgt := some l, skip := 4 }
      if s.asyncPending k then .stay s else .exc e ((s.count k 0x02 1 c.pl c.inner).smplClose k c.pc 0)

/-- GATE.K (R134). -/
def execGateK (k : CoreId) (code : BitVec 12) (s : State) : Host.Outcome State Fault Refusal :=
  .next (opGate k 0x06 code (fun c => .inr (if c.pl = 0 then 1 else c.pl)) s)

/-- GATE.H (R134). -/
def execGateH (k : CoreId) (code : BitVec 12) (s : State) : Host.Outcome State Fault Refusal :=
  .next (opGate k 0x07 code (fun c => if c.pl = 0 then .inl excPrivilege else if c.inner then .inl excIllegal else .inr 2) s)

/-- GATE.M (R134). -/
def execGateM (k : CoreId) (code : BitVec 12) (s : State) : Host.Outcome State Fault Refusal :=
  .next (opGate k 0x08 code (fun c => if c.pl = 0 then .inl excPrivilege else .inr 3) s)

/-- BRK and BRK.S: a halt under invasive debug with HALT_ON_BP, otherwise breakpoint at the table's level (R134, R135). -/
def opBrk (k : CoreId) (len : Nat) (imm : BitVec 8) (s : State) : State :=
  s.run k len .stop fun s =>
    let c := s.core k
    let e := Exc.of 0x09 imm.toNat 0
    if s.invasive (s.pidOf k) c.inner && s.rb (.coreDbgCtl k) 3 then
      .stay ((s.setCore k (c.wsys (statusOf (e.level c.pl c.inner) + 2) c.pc)).halt k)
    else .exc e s

/-- BRK (R134, R135). -/
def execBrk (k : CoreId) (imm : BitVec 8) (s : State) : Host.Outcome State Fault Refusal := .next (opBrk k 4 imm s)
/-- BRK.S (R134, R135). -/
def execBrkS (k : CoreId) (imm : BitVec 8) (s : State) : Host.Outcome State Fault Refusal := .next (opBrk k 2 imm s)

/-- The world-changing request of SYS_WCTL (R137). -/
def Core.wswitch (c : Core) : Bool := c.pl == 3 && bit (c.rsys Srn.wctl) 0

/-- The level and world that ERET enters, or `none` where it raises illegal-instruction (R136, R137, R160). -/
def Core.eretTarget (c : Core) : Option (Level × Bool) :=
  let st := c.rsys (statusOf c.pl)
  let ppl : Level := Fin.ofNat 4 (fld st 5 4)
  if c.pl < ppl then none
  else if c.pl ≠ 3 then some (ppl, c.inner)
  else
    let pw := bit st 10
    let tgt := fld (c.rsys Srn.wctl) 3 2
    if c.wswitch then
      let w := !pw
      if tgt = 0 then
        if ppl = 3 then none else if ppl = 2 && w then some (1, w) else some (ppl, w)
      else if tgt = 1 then some (1, w)
      else if tgt = 2 then (if w then none else some (2, w))
      else none
    else if ppl = 3 && !pw then none
    else if ppl = 2 && pw then none
    else some (ppl, pw)

/-- Return from an exception (R136, R160): IM and AM restored, level and world as recorded, the reservation and the old
translation registers dropped (R129, R172); under SYS_WCTL the Q registers are cleared (R137); the history is cleared at
a world change (R146). -/
def Core.return (c : Core) (l : Level) (w : Bool) : Core :=
  let n := statusOf c.pl
  let st := c.rsys n
  let st' := setFld (setFld st 6 6 (fld st 7 7)) 8 8 (fld st 9 9)
  let c1 := c.wsys n st'
  let c2 := if c.wswitch then c1.wsys Srn.wctl (setFld (setFld (c.rsys Srn.wctl) 0 0 0) 3 2 0) else c1
  let c3 := if c.wswitch && bit (c.rsys Srn.wctl) 1 then { c2 with q := [] } else c2
  let c4 := { c3 with pl := l, inner := w, pc := c.rsys (n + 2) &&& ~~~ 1, resv := none, trOld := none, stale := [], block := none }
  if w = c.inner && !c.wswitch then c4 else { c4 with hist := [], ras := [] }

/-- ERET (R134, R136, R137, R160). -/
def execEret (k : CoreId) (s : State) : Host.Outcome State Fault Refusal :=
  .next (s.run k 4 .stop fun s =>
    let c := s.core k
    if c.pl = 0 then .exc excPrivilege s
    else match c.eretTarget with
      | none => .exc excIllegal s
      | some (l, w) =>
        let s := if w = c.inner then s else s.pmcSettle k
        .done ((s.setCore k ((s.core k).return l w)).resvEnds k))

/-! ## TLB maintenance (R139, R196, R197, R393) -/

/-- A TLBI as R393 lays it out: the operation 0 VA, 1 ASID, 2 S1ALL, 3 IPA, 4 S2ALL, the stage-2 space, the ASID and
the page, for a world. -/
structure TlbOp where
  op    : Nat
  en    : Bool
  s2id  : Nat
  asid  : Nat
  inner : Bool
  page  : Nat
  deriving DecidableEq, Repr

/-- The stage-2 space that an operation names (R195). -/
def TlbOp.space (t : TlbOp) : Bool × Bool × BitVec 8 :=
  if t.inner then (true, false, 0) else (false, t.en, BitVec.ofNat 8 t.s2id)

/-- The operation removes a TLB entry (R196). -/
def TlbOp.hits (t : TlbOp) (e : TlbEnt) : Bool :=
  e.inner == t.inner && e.space == t.space &&
  (let inPage := decide (e.base ≤ t.page ∧ t.page < e.base + e.pages)
   let mine := e.asid == some (BitVec.ofNat 16 t.asid)
   match t.op with
   | 0 => e.stage != 2 && (e.asid.isNone || mine) && inPage
   | 1 => e.stage != 2 && mine
   | 2 => e.stage != 2
   | 3 => e.stage == 3 || (e.stage == 2 && inPage)
   | _ => e.stage == 3 || e.stage == 2)

/-- The operation removes a walk-cache entry (R196). -/
def TlbOp.hitsWc (t : TlbOp) (w : WcEnt) : Bool :=
  w.inner == t.inner && w.space == t.space && (decide (3 ≤ t.op) || w.stage == 1)

/-- Apply an operation to one core. -/
def Core.tlbi (c : Core) (t : TlbOp) : Core :=
  let keep (l : List TlbEnt) : List TlbEnt := l.filter fun e => !(t.hits e)
  { c with tlb := keep c.tlb, dtlb := keep c.dtlb, itlb := keep c.itlb, wc := c.wc.filter fun w => !(t.hitsWc w) }

/-- The lowest TAG that none of the core's deliveries uses. -/
def Core.freeTag (c : Core) : Option Nat := (List.range 256).find? fun t => !(c.tlbOut.any (·.1 == t))

/-- The ARG of TLBD (R393). -/
def TlbOp.arg (t : TlbOp) (tag : Nat) : Word :=
  BitVec.ofNat 64 (t.op + b2n t.en * 2 ^ 3 + t.s2id % 256 * 2 ^ 4 + t.asid % 65536 * 2 ^ 12 + tag * 2 ^ 28)

/-- A TLBI: applied at the issuing core, and delivered by TLBD to every cluster of the partition that is not in KS3, whose cores hold no
entries (R197). `outer2`: the operation acts on stage 2, so PL3 means the outer-world space of SYS_S2_CTL, and inner PL1 may not issue
it (R139). The space is the one that SYS_S2_CTL now names, also while an MTS to it is not in effect for accesses (R172 speaks of accesses
and fetches alone: the model's choice, log 80). -/
def opTlbi (k : CoreId) (op : Nat) (page asid : Core → Nat) (s : State) : State :=
  let outer2 := decide (3 ≤ op)
  let low : Bool := (s.core k).pl == 0 || (outer2 && decide ((s.core k).pl.val < 2))
  s.run k 4 (if low then .stop else .nop) fun s =>
    let c := s.core k
    if low then .exc excPrivilege s
    else match c.freeTag with
      | none => .stay s
      | some tag =>
        let s2 := c.rsys Srn.s2Ctl
        let inner := c.inner && !outer2
        let t : TlbOp := { op := op, en := bit s2 0, s2id := fld s2 23 16, asid := asid c, inner := inner, page := page c }
        let gs := (s.clustersOf (s.pidOf k)).filter fun g => s.rf (.pwrStatus (clusterDom (Fin.ofNat 36 g))) 1 0 != 3
        let s := gs.foldl (fun s g => s.send .tlbd { Msg.zero with
          pid := s.pidOf k, inner := inner, src := BitVec.ofNat 8 (clusterOf k).val, score := Fin.ofNat 8 (k.val % 6),
          dst := BitVec.ofNat 8 g, ln := t.page, arg := t.arg tag }) s
        .done (s.setCore k { ((c.tlbi t).adv 4) with tlbOut := c.tlbOut ++ gs.map fun g => (tag, g) })

/-- The page of an address operand: bits [56:12] (R139, R393). -/
def tlbPage (v : Word) : Nat := fld v 56 12

/-- TLBI.VA (R139, R196). -/
def execTlbiVa (k : CoreId) (rs : AReg) (rt : DReg) (s : State) : Host.Outcome State Fault Refusal :=
  .next (opTlbi k 0 (fun c => tlbPage (c.ra' rs)) (fun c => fld (c.rd rt) 15 0) s)
/-- TLBI.ASID (R139, R196). -/
def execTlbiAsid (k : CoreId) (rt : DReg) (s : State) : Host.Outcome State Fault Refusal :=
  .next (opTlbi k 1 (fun _ => 0) (fun c => fld (c.rd rt) 15 0) s)
/-- TLBI.S1ALL (R139, R196). -/
def execTlbiS1all (k : CoreId) (s : State) : Host.Outcome State Fault Refusal :=
  .next (opTlbi k 2 (fun _ => 0) (fun _ => 0) s)
/-- TLBI.IPA (R139, R196). -/
def execTlbiIpa (k : CoreId) (rs : AReg) (s : State) : Host.Outcome State Fault Refusal :=
  .next (opTlbi k 3 (fun c => tlbPage (c.ra' rs)) (fun _ => 0) s)
/-- TLBI.S2ALL (R139, R196). -/
def execTlbiS2all (k : CoreId) (s : State) : Host.Outcome State Fault Refusal :=
  .next (opTlbi k 4 (fun _ => 0) (fun _ => 0) s)

/-! ## Cache maintenance (R139, R140, R252) -/

/-- A cluster gives up a line without writing it back, and the directory records that it did. -/
def State.dropAt (s : State) (ln : Nat) (g : ClusterId) : State :=
  let s := s.loseCopy ln g
  match (s.line ln).dir with
  | none => s
  | some e =>
    let pres := e.pres &&& ~~~ BitVec.ofNat 36 (2 ^ g.val)
    if e.st = .ds then s.setDir ln (if pres = 0 then none else some { e with pres := pres })
    else if e.owner = g.val then
      s.setDir ln (if e.st = .dx ∧ pres ≠ 0 then some { e with st := .ds, owner := 0, pres := pres } else none)
    else s.setDir ln (some { e with pres := pres, st := if pres = 0 then .de else e.st })

/-- A cluster evicts a line: dirty data goes to the home (EVC or WBD, and EVA, R242). -/
def State.evictAt (s : State) (ln : Nat) (g : ClusterId) : State :=
  let s := s.l2Check ln g
  match s.copy ln g with
  | none => s
  | some c =>
    let p : Pid := match (s.line ln).dir with | some e => e.pid | none => 0
    let s := s.dropAt ln g
    if c.st = .m ∨ c.st = .o then s.l3Put ln p c.data true c.poison else s

/-- Mark a line's L1 and victim-cache copies clean. -/
def Core.cleanLine (c : Core) (ln : Nat) : Core :=
  { c with l1d := c.l1d.map fun l => if l.ln = ln then { l with dirty := false } else l,
           vc := c.vc.mapVals none fun _ e => e.map fun v => if v.line.ln = ln then { v with line := { v.line with dirty := false } } else v }

/-- A DC or IC operation on the line of its operand, whose bits [5:0] count for nothing (R139): its level, the check of the line, the firewall, the part done in the cluster, and the
message to the home that completes it (R139, R140, R252). It follows the core's earlier stores to the line. -/
def opMaint (k : CoreId) (min : Nat) (kind : Kind) (msg : MsgKind) (noDev : Bool) (rs : AReg) (here : State → Nat → State) (s : State) : State :=
  s.run k 4 (if (s.core k).pl.val < min then .stop else .nop) fun s =>
    let c := s.core k
    let va := c.ra' rs &&& ~~~ 63
    if c.pl.val < min then .exc excPrivilege s else
    match xlate k kind false (if noDev then tcNoDev va.toNat kind else fun _ => none) va 64 s with
    | .wait s => .stay s
    | .exc e s => .exc e s
    | .ok ps s1 =>
      match ps with
      | p :: _ =>
        if p.dev then .done (s1.setCore k ((s1.core k).adv 4)) else
        if c.sq.any fun e => e.ppa / 64 == p.ppa / 64 then .stay s1 else
        match s1.firewall k p.ppa c.inner false with
        | .inr (st, s2) => .exc (excAbort p.va st (b2n (kind == .write))) s2
        | .inl da =>
          let ln := da / 64
          if s1.refused.contains (s1.pidOf k).val then .exc (excAbort p.va stUnavailable (b2n (kind == .write))) s1
          else if !(s1.lineQuiet ln) || s1.reqHold (clusterOf k) then .stay s1
          else
            let s2 := (here s1 ln).send msg (s1.reqMsg k c.inner ln 0)
            .done (s2.setCore k { ((s2.core k).adv 4) with maintOut := (s2.core k).maintOut ++ [(ln, s.tick)] })
      | [] => .stay s

/-- DC.CLEAN (R252). -/
def execDcClean (k : CoreId) (rs : AReg) (s : State) : Host.Outcome State Fault Refusal :=
  .next (opMaint k 0 .read .cln false rs (fun s ln => s.coresOf (clusterOf k) (·.cleanLine ln)) s)
/-- DC.INV (R252). -/
def execDcInv (k : CoreId) (rs : AReg) (s : State) : Host.Outcome State Fault Refusal :=
  .next (opMaint k 1 .write .inv true rs (fun s ln => s.dropAt ln (clusterOf k)) s)
/-- DC.CLINV (R252). -/
def execDcClinv (k : CoreId) (rs : AReg) (s : State) : Host.Outcome State Fault Refusal :=
  .next (opMaint k 0 .read .cli false rs (fun s ln => s.evictAt ln (clusterOf k)) s)
/-- IC.INV: the instruction-cache copies of the cluster, then IIV (R252). -/
def execIcInv (k : CoreId) (rs : AReg) (s : State) : Host.Outcome State Fault Refusal :=
  .next (opMaint k 0 .read .iiv false rs
    (fun s ln => s.coresOf (clusterOf k) fun c => { c with l1i := c.l1i.filter (·.ln != ln) }) s)

/-- DC.ZERO: a store of 64 zero bytes to the line, in the store order; it takes 8 entries of the store queue, as 64 bytes do (R139, R140,
R208, R252). -/
def execDcZero (k : CoreId) (rs : AReg) (s : State) : Host.Outcome State Fault Refusal :=
  .next (s.run k 4 .nop fun s =>
    let c := s.core k
    let va := c.ra' rs &&& ~~~ 63
    match xlate k .write false (tcNoDev va.toNat .write) va 64 s with
    | .wait s => .stay s
    | .exc e s => .exc e s
    | .ok ps s1 =>
      match s1.wpHit k va 64 false true with
      | some i => s1.bpAct k i true va
      | none =>
        if 120 < sqUsed c.sq then .stay s1 else
        match ps with
        | p :: _ => .done (s1.setCore k { ((s1.core k).adv 4) with
            sq := c.sq ++ [{ ppa := p.ppa / 64 * 64, size := 64, data := 0, cacheable := p.cacheable, zero := true, inner := c.inner }] })
        | [] => .stay s)

end Sys2Proof.Machine
end

