-- ==== Sys2Proof/Machine/Home.lean ====
section
/-! DEFINITION. The coherence messages: the home slices' trackers, directory, L3 and merge buffers, and the receipt of
data, grants and completions by the caches (R51, R197, R226–R252, R262, R392). -/

namespace Sys2Proof.Machine

/-! ## Trackers (R237) -/

/-- The open trackers of a slice. -/
def State.trackers (s : State) (sl : SliceId) : List Tracker :=
  s.lines.filterMap fun e => if homeOf e.1 = sl then e.2.tr else none

/-- The requests that hold trackers of a slice: those whose transaction is open, and those behind them in the conflict queues (R237,
R245). -/
def State.tracked (s : State) (sl : SliceId) : List Msg :=
  s.lines.flatMap fun e => if homeOf e.1 = sl then (e.2.tr.map (·.req)).toList ++ e.2.queue.map (·.2) else []

/-- The partitions that exist (R237): those whose STATE is not EMPTY. -/
def State.existing (s : State) : List Nat := (List.range 16).filter fun p => s.rf (.pscPartStatus (Fin.ofNat 16 p)) 2 0 != 0

/-- The class of a request: its partition, or 16 for the privileged agents. -/
def reqClass (m : Msg) : Nat := if m.priv then 16 else m.pid.val

/-- A request can take a tracker: 8 of the 256 are reserved for each existing partition and 8 for the privileged agents;
the rest are shared (R237). -/
def State.trackerFree (s : State) (sl : SliceId) (m : Msg) : Bool :=
  let ts := s.tracked sl
  let used (c : Nat) : Nat := (ts.filter fun x => reqClass x == c).length
  let shared := 256 - 8 * (s.existing.length + 1)
  let beyond := (List.range 17).foldl (fun n c => n + (used c - 8)) 0
  decide (used (reqClass m) < 8 ∨ beyond < shared)

/-- The number that a transaction takes: the lowest that no open one has. -/
def State.freeNum (s : State) (sl : SliceId) : Nat :=
  ((List.range 256).find? fun n => !((s.trackers sl).any (·.num == n))).getD 0

/-! ## Answers of the home -/

/-- A message from the home slice of a line to the requester of a transaction. -/
def State.homeAnswer (s : State) (kind : MsgKind) (t : Tracker) (arg : Nat) (d : Line) (poison : Bool) : State :=
  let sl := homeOf t.req.ln
  s.send kind { t.req with src := sliceAgent sl, dst := t.req.src, trk := BitVec.ofNat 8 t.num, data := d, poison := poison,
                           arg := BitVec.ofNat 64 arg }

/-- ERR with a status of R163 to a request's sender. -/
def State.replyErr (s : State) (m : Msg) (status : Nat) : State :=
  s.send .err { m with src := m.dst, dst := m.src, data := 0, poison := false, arg := BitVec.ofNat 64 status }

/-- A PID_MISMATCH refusal with event 0x6020 (R51, R248). -/
def State.homeRefuse (s : State) (m : Msg) : State :=
  (s.bbCoal 0x6020 m.pid (homeOf m.ln).val (m.ln / 64)).replyErr m stPidMismatch

/-- The home's check of R51: the granule has a valid entry, of the packet's PID, and an outer packet does not name inner
memory. -/
def State.homeAllows (s : State) (m : Msg) : Bool :=
  match s.gmapDa (s.bank 2) (m.ln / 2 ^ 24) with
  | none => false
  | some v => fld v 7 4 == m.pid.val && (m.inner || !(bit v 1))

/-! ## Opening a transaction (R242, R246–R252) -/

/-- The UPG carries ZERO (R270). -/
def upgZero (m : Msg) : Bool := m.arg.getLsbD 0

/-- All 64 bytes of a WRH (R247). -/
def fullMask (m : Msg) : Bool := m.arg == BitVec.allOnes 64

/-- The byte mask and data of the write that STC carries: the value in bytes 0–7 of its data unit, the byte offset in byte 16
and the size in byte 17. -/
def stcWrite (m : Msg) : Line × BitVec 64 :=
  let off := lineGet m.data 16 1 % 64
  let n := if lineGet m.data 17 1 = 4 then 4 else 8
  (linePut 0 off n (lineGet m.data 0 n), byteMask off n)

/-- The snoops of a request, by the directory's entry (R242). -/
def homeSnoops (kind : MsgKind) (m : Msg) (dir : Option DirEnt) : List (MsgKind × Nat) :=
  match dir with
  | none => []
  | some e =>
    let all := e.members
    let others := all.filter (· != m.src.toNat)
    let owner : List Nat := if e.st = .ds then [] else [e.owner]
    let rest := all.filter fun g => !(owner.contains g)
    let tgt (x : MsgKind) (l : List Nat) : List (MsgKind × Nat) := l.map fun g => (x, g)
    match kind with
    | .rds => tgt .sns owner
    | .rdo | .rsv => tgt .sno owner
    | .rdu => tgt .snu owner ++ tgt .sni (rest.filter (· != m.src.toNat))
    | .upg => tgt .sni others
    | .wrh => if fullMask m then tgt .sni all else tgt .snr owner ++ tgt .sni rest
    | .atf | .stc => tgt .snr owner ++ tgt .sni rest
    | .wri | .inv => tgt .sni all
    | .cln => tgt .snc owner
    | .cli => tgt .snr all
    | .iiv => tgt .snic all
    | _ => []

/-! ## Finishing (R238, R242, R243, R247–R252) -/

/-- Put an owner's entry for the requester. -/
def ownedBy (m : Msg) : Option DirEnt := some { st := .de, owner := m.src.toNat, pres := 0, pid := m.pid, ref := true }

/-- The presence bit of a cluster. -/
def presBit (g : Nat) : BitVec 36 := BitVec.ofNat 36 (2 ^ g)

/-- The directory after a shared grant by the home: the requester joins the sharers that remain. -/
def sharedGrant (m : Msg) (dir : Option DirEnt) : Option DirEnt × Nat :=
  match dir with
  | none => (ownedBy m, 2)
  | some e => if e.st = .de ∨ (e.st = .dx ∧ e.pres = 0) then (ownedBy m, 2)
              else (some { e with st := .ds, owner := 0, pres := e.pres ||| presBit m.src.toNat, ref := true }, 1)

/-- The core of a cluster's request; none for another agent. -/
def reqCore (m : Msg) : Option Nat := if m.src.toNat < 36 then some (6 * m.src.toNat + m.score.val) else none

/-- Execute the operation of an ATF on the home copy (R249), or on memory for non-cacheable memory (R250): the old value, and the state. The
data unit holds the operand in bytes 0–7, the compare value in bytes 8–15 and the byte offset in byte 16. ARG gives the operation and the
width (R270); the memory type, which R270 gives no place, is bit 5 here (log 18). -/
def State.atfRun (s : State) (m : Msg) : State × Option Nat :=
  let op : AtomOp := ([.add, .and_, .or_, .xor_, .swap, .smin, .smax, .umin, .umax] : List AtomOp).getD (m.arg.toNat % 16) .cas
  let n := if m.arg.getLsbD 4 then 8 else 4
  let off := lineGet m.data 16 1 % 64 / n * n
  atomHome s m.ln off n m.pid (reqCore m) (!(m.arg.getLsbD 5)) fun old => op.apply n old (lineGet m.data 0 n) (lineGet m.data 8 n)

/-- The home's final action once every snoop and eviction of the transaction has been answered. -/
def State.homeFinish (s : State) (t : Tracker) : State :=
  let m := t.req
  let ln := m.ln
  let src := m.src.toNat
  let reads := t.kind == .rds || t.kind == .rdu || t.kind == .rdo
  let (data, s) : (Line × Bool) × State :=
    match t.got with
    | some d => (d, s)
    | none => if reads && !t.fwd then s.homeRead ln m.pid else ((0, false), s)
  let line := s.line ln
  let mark (s : State) : State :=
    match (s.line ln).tr with
    | some t' => s.setLine ln { s.line ln with tr := some { t' with sent := true } }
    | none => s
  let alloc (s : State) : State := if (s.line ln).l3.isNone && t.got.isNone then s.l3Put ln m.pid data.1 false data.2 else s
  mark (match t.kind with
    | .rds =>
      if t.fwd then
        match line.dir with
        | some e =>
          if t.res = 1 then s.setDir ln (some { e with st := .ds, owner := 0, pres := e.pres ||| presBit e.owner ||| presBit src, ref := true })
          else s.setDir ln (some { e with st := .dx, pres := e.pres ||| presBit e.owner ||| presBit src, ref := true })
        | none => s.setDir ln (ownedBy m)
      else
        let (d, g) := sharedGrant m line.dir
        ((alloc s).setDir ln d).homeAnswer .dh t g data.1 data.2
    | .rdu =>
      if t.fwd then s.setDir ln (ownedBy m)
      else ((alloc s).setDir ln (ownedBy m)).homeAnswer .dh t (if t.wasM then 3 else 2) data.1 data.2
    | .upg => (s.setDir ln (ownedBy m)).homeAnswer .cmp t 0 0 false
    | .rdo => if t.fwd then s else s.homeAnswer .dro t 0 data.1 data.2
    | .rsv =>
      let k := 6 * src + m.score.val
      let (v, s) : (Line × Bool) × State := match t.got with | some d => (d, s) | none => s.rdo ln m.pid
      { s with hresv := s.hresv.set none k (some ln) }.homeAnswer .atr t 0 v.1 v.2
    | .stc =>
      let k := 6 * src + m.score.val
      let holds : Bool := (s.hresv.get none k : Option Nat) == some ln
      let s : State := { s with hresv := s.hresv.set none k none }
      if holds then
        (((s.setDir ln none).writeHome ln m.pid (some k) (stcWrite m).1 (stcWrite m).2 false)).homeAnswer .cmp t 0 0 false
      else s.homeAnswer .cmp t 1 0 false
    | .wrh => ((s.setDir ln none).writeHome ln m.pid (reqCore m) m.data m.arg m.poison).homeAnswer .cmp t 0 0 false
    | .wri => (s.writeWhole ln m.pid m.data m.poison).homeAnswer .cmp t 0 0 false
    | .atf =>
      let (s, old) := (s.setDir ln none).atfRun m
      match old with
      | some v => s.homeAnswer .atr t 0 (BitVec.ofNat 512 v) false
      | none => s.homeAnswer .err t stPoison 0 false
    | .cln =>
      let d := match line.dir with
        | some e => if e.st = .dx ∧ t.res = 1 then some { e with st := .ds, owner := 0, pres := e.pres ||| presBit e.owner } else some e
        | none => none
      ((s.setDir ln d).l3Clean ln).homeAnswer .cmp t 0 0 false
    | .inv => ((((s.setDir ln none).l3Drop ln).wrote ln)).homeAnswer .cmp t 0 0 false
    | .cli => (((s.setDir ln none).l3Clean ln).l3Drop ln).homeAnswer .cmp t 0 0 false
    | _ => s.homeAnswer .cmp t 0 0 false)

/-- A transaction whose snoops are answered and whose evictions are consumed (R238); a consumed eviction serves the transaction before the
answer of its cluster arrives (R243). -/
def Tracker.ready (t : Tracker) : Bool := t.snoops.all (fun g => t.evs.contains g) && t.wbif.isEmpty

/-- Open a transaction on a line that has none, or serve the request at once. `none`: a recall for its directory entry waits (R233). -/
def State.homeOpen (s : State) (kind : MsgKind) (m : Msg) : Option State :=
  let ln := m.ln
  -- WRH to a line with a merge-buffer entry is merged at once; any other request drains the entry first (R247)
  if kind = .wrh ∧ (s.line ln).mb.isSome then
    some ((s.writeHome ln m.pid (reqCore m) m.data m.arg m.poison).send .cmp { m with src := m.dst, dst := m.src, data := 0, poison := false, arg := 0 })
  else
    let s := if kind = .wri then s else s.mbDrain ln
    let dir := (s.line ln).dir
    let listed := match dir with | some e => e.members.contains m.src.toNat | none => false
    let kind := if kind = .upg ∧ !(upgZero m) ∧ !listed then .rdu else kind
    let allocates := (kind = .rds ∨ kind = .rdu ∨ kind = .upg) ∧ dir.isNone
    (if allocates then s.dirRoom m.pid ln else some s).map fun s =>
      let num := s.freeNum (homeOf ln)
      let succeeds := kind ≠ .stc ∨ (s.hresv.get none (6 * m.src.toNat + m.score.val) : Option Nat) = some ln
      let sn := if succeeds then homeSnoops kind m (s.line ln).dir else []
      let t : Tracker := { num := num, kind := kind, req := m, snoops := sn.map (·.2), wbif := [], evs := [], got := none, wasM := false,
                           fwd := false, res := 0, sent := false, cack := kind == .rds || kind == .rdu || kind == .upg, armed := s.tick }
      let s := (s.awaits kind m).setLine ln { (s.awaits kind m).line ln with tr := some t }
      sn.foldl (fun s x => s.send x.1 { m with src := sliceAgent (homeOf ln), dst := BitVec.ofNat 8 x.2, score := 0,
                                               trk := BitVec.ofNat 8 num, data := 0, poison := false, arg := 0 }) s

/-- Carry a line's transaction, and the requests that wait behind it, as far as they go (R237, R238). -/
def State.homeRun : Nat → State → Nat → State
  | 0, s, _ => s
  | n + 1, s, ln =>
    match (s.line ln).tr with
    | some t =>
      if t.sent && !t.cack && t.snoops.isEmpty then State.homeRun n (s.setLine ln { s.line ln with tr := none }) ln
      else if !t.sent && t.ready then State.homeRun n (s.homeFinish t) ln
      else s
    | none =>
      match (s.line ln).queue with
      | [] => s
      | (kd, m) :: q =>
        match (s.setLine ln { s.line ln with queue := q }).homeOpen kd m with
        | some s => State.homeRun n s ln
        | none => s

/-- The open transaction of a line and its queue, as far as they can go. -/
def State.lineGo (s : State) (ln : Nat) : State := State.homeRun (3 * (s.line ln).queue.length + 4) s ln

/-- The class of a requester of a slice's arbiter: the L3S class entry of the partition; the privileged agents, to which R292 gives none, take
the highest (log 83). -/
def State.sliceClass (s : State) (sl : SliceId) (c : Nat) : Nat :=
  let r : Reg := if s.bank 3 then .l3sArbClassB sl else .l3sArbClassA sl
  if 16 ≤ c then 3 else s.rf r (2 * c + 1) (2 * c)

/-- A slice arbitrates for a tracker among the partitions whose first waiting request can take one (R237, R292); a frozen arbiter grants
nothing (R294). -/
def State.slicePick (s : State) (sl : SliceId) : Option ((MsgKind × Msg) × State) :=
  if s.rb (.l3sArbCfg sl) 8 then none else
  let q : List (MsgKind × Msg) := s.net.sliceQ.get [] sl.val
  let heads := (List.range 17).filterMap fun c =>
    (q.find? fun x => reqClass x.2 == c).bind fun x => if s.trackerFree sl x.2 then some (c, x) else none
  match (s.net.l3sArb.get Arb.empty sl.val).pick (s.rf (.l3sArbCfg sl) 7 0) (heads.map fun h => (h.1, s.sliceClass sl h.1)) with
  | none => none
  | some (c, a) =>
    (heads.find? fun h => h.1 == c).map fun h =>
      (h.2, { s with net := { s.net with l3sArb := s.net.l3sArb.set Arb.empty sl.val a, sliceQ := s.net.sliceQ.set [] sl.val (q.erase h.2) } })

/-- The requests that wait at a slice take trackers as long as they can, each at the end of its line's conflict queue. -/
def State.sliceRun : Nat → State → SliceId → State
  | 0, s, _ => s
  | n + 1, s, sl =>
    match s.slicePick sl with
    | none => s
    | some ((kd, m), s) =>
      let s := s.activity 1 m.priv m.pid 1
      State.sliceRun n ((s.setLine m.ln { s.line m.ln with queue := (s.line m.ln).queue ++ [(kd, m)] }).lineGo m.ln) sl

/-- A slice goes on: the lines whose first request waited for a directory entry, the requests that wait for a tracker; a reservation that a
write cleared no longer defers snoops (R129, R220, R233, R237). -/
def State.homeWake (s : State) (sl : SliceId) : State :=
  let held := s.lines.filterMap fun e => if homeOf e.1 = sl && e.2.tr.isNone && !e.2.queue.isEmpty then some e.1 else none
  let s := held.foldl (fun (s : State) ln => s.lineGo ln) s
  (State.sliceRun (s.net.sliceQ.get [] sl.val : List (MsgKind × Msg)).length s sl).settleSnoops

/-- As far as a line and its slice can go. -/
def State.homeGo (s : State) (ln : Nat) : State := (s.lineGo ln).homeWake (homeOf ln)

/-- A request waits at its slice for a tracker, and takes it as soon as the slice's arbiter gives it one (R237). -/
def State.homeTake (s : State) (kind : MsgKind) (m : Msg) : State :=
  let sl := (homeOf m.ln).val
  { s with net := { s.net with sliceQ := s.net.sliceQ.set [] sl (s.net.sliceQ.get [] sl ++ [(kind, m)]) } }.homeWake (homeOf m.ln)

/-- A request reaches its home slice, if its injection point has a route (R51, R237, R262, R275). -/
def State.homeRequest (s : State) (kind : MsgKind) (m : Msg) : State :=
  s.onArrival kind m fun s =>
  let priv := kind == .wri && m.priv
  if s.refused.contains m.pid.val && !m.priv then s.replyErr m stUnavailable
  else if kind == .wri && !m.priv then s.homeRefuse m
  else if !priv && !(s.homeAllows m) then s.homeRefuse m
  else s.homeTake kind m

/-- RDS (R242). What befell the L3's data before is met where the home reads it (R260). -/
def execRds (m : Msg) (err : LinkErr) (s : State) : Host.Outcome State Fault Refusal := .next ((s.upsetL3 m.ln err).homeRequest .rds m)
/-- RDU (R242). -/
def execRdu (m : Msg) (err : LinkErr) (s : State) : Host.Outcome State Fault Refusal := .next ((s.upsetL3 m.ln err).homeRequest .rdu m)
/-- UPG; without ZERO and no longer listed it is served as RDU (R242, R243). -/
def execUpg (m : Msg) (err : LinkErr) (s : State) : Host.Outcome State Fault Refusal := .next ((s.upsetL3 m.ln err).homeRequest .upg m)
/-- CLN (R252). -/
def execCln (m : Msg) (s : State) : Host.Outcome State Fault Refusal := .next (s.homeRequest .cln m)
/-- INV (R252). -/
def execInv (m : Msg) (s : State) : Host.Outcome State Fault Refusal := .next (s.homeRequest .inv m)
/-- CLI (R252). -/
def execCli (m : Msg) (s : State) : Host.Outcome State Fault Refusal := .next (s.homeRequest .cli m)
/-- IIV (R252). -/
def execIiv (m : Msg) (s : State) : Host.Outcome State Fault Refusal := .next (s.homeRequest .iiv m)
/-- RSV (R251). -/
def execRsv (m : Msg) (s : State) : Host.Outcome State Fault Refusal := .next (s.homeRequest .rsv m)
/-- STC (R251). -/
def execStc (m : Msg) (s : State) : Host.Outcome State Fault Refusal := .next (s.homeRequest .stc m)

/-! ## Snoops at the clusters (R240) -/

/-- A snoop arrives at a cluster; one to a Facet that is lost is answered with ERR TARGET_UNAVAILABLE (R325). -/
def State.snoop (s : State) (kind : MsgKind) (m : Msg) : State :=
  s.onArrival kind m fun s =>
  if s.chord.lost.contains (m.dst.toNat / 3) then s.replyErr m stUnavailable
  else if m.dst.toNat < 36 then s.snoopIn kind m else s

/-- SNS (R240). -/
def execSns (m : Msg) (s : State) : Host.Outcome State Fault Refusal := .next (s.snoop .sns m)
/-- SNU (R240). -/
def execSnu (m : Msg) (s : State) : Host.Outcome State Fault Refusal := .next (s.snoop .snu m)
/-- SNO (R240). -/
def execSno (m : Msg) (s : State) : Host.Outcome State Fault Refusal := .next (s.snoop .sno m)
/-- SNI (R240). -/
def execSni (m : Msg) (s : State) : Host.Outcome State Fault Refusal := .next (s.snoop .sni m)
/-- SNR (R240). -/
def execSnr (m : Msg) (s : State) : Host.Outcome State Fault Refusal := .next (s.snoop .snr m)
/-- SNC (R240). -/
def execSnc (m : Msg) (s : State) : Host.Outcome State Fault Refusal := .next (s.snoop .snc m)
/-- SNIC (R240). -/
def execSnic (m : Msg) (s : State) : Host.Outcome State Fault Refusal := .next (s.snoop .snic m)

/-! ## Answers and evictions at the home (R236, R238, R242–R244) -/

/-- Change the open transaction of a line and go on with it. -/
def State.onTracker (s : State) (ln : Nat) (f : Tracker → Tracker) : State :=
  match (s.line ln).tr with
  | some t => (s.setLine ln { s.line ln with tr := some (f t) }).homeGo ln
  | none => s

/-- SRSP: the snoop is answered; a WBIF answer awaits the cluster's eviction, unless the home has already consumed it; a
cluster that no longer holds the line leaves the directory with the grant (R236, R243). -/
def execSrsp (m : Msg) (s : State) : Host.Outcome State Fault Refusal :=
  let g := m.src.toNat
  let a := m.arg.toNat
  .next (s.onArrival .srsp m fun s => s.onTracker m.ln fun t =>
    if t.snoops.contains g then
      let t := { t with snoops := t.snoops.erase g }
      if a / 32 % 2 = 1 then (if t.evs.contains g then t else { t with wbif := g :: t.wbif })
      else { t with fwd := t.fwd || a / 8 % 2 == 1, res := if a / 8 % 2 = 1 ∨ a / 16 % 2 = 1 ∨ t.kind = .cln then a % 8 else t.res }
    else t)

/-- SDH: dirty data of a snooped cluster; it is written to the L3 dirty (R229, R242). -/
def execSdh (m : Msg) (s : State) : Host.Outcome State Fault Refusal :=
  .next (s.onArrival .sdh m fun s =>
    match (s.line m.ln).tr with
    | none => s
    | some _ =>
      (s.l3Put m.ln m.pid m.data true m.poison).onTracker m.ln fun t => { t with got := some (m.data, m.poison) })

/-- An eviction of a listed cluster is consumed: WBD data goes to the L3, the cluster leaves the directory, and EVA frees the
way; it serves the open transaction that snooped its sender (R242, R243). -/
def State.homeEvict (s : State) (m : Msg) (dirty : Bool) : State :=
  let g := m.src.toNat
  match (s.line m.ln).dir with
  | none => s
  | some e =>
    if !(e.members.contains g) then s else
    let s := if dirty then s.l3Put m.ln m.pid m.data true m.poison else s
    let pres := e.pres &&& ~~~ presBit g
    let d : Option DirEnt :=
      if e.st = .ds then (if pres = 0 then none else some { e with pres := pres })
      else if e.owner = g then (if e.st = .dx ∧ pres ≠ 0 then some { e with st := .ds, owner := 0, pres := pres } else none)
      else some { e with pres := pres, st := if pres = 0 then .de else e.st }
    let s := (s.setDir m.ln d).send .eva { m with src := m.dst, dst := m.src, data := 0, poison := false, arg := 0 }
    s.onTracker m.ln fun t =>
      if t.snoops.contains g || t.wbif.contains g then
        { t with evs := g :: t.evs, wbif := t.wbif.erase g, got := if dirty then some (m.data, m.poison) else t.got, wasM := t.wasM || dirty }
      else t

/-- EVC (R242). -/
def execEvc (m : Msg) (s : State) : Host.Outcome State Fault Refusal := .next (s.onArrival .evc m fun s => s.homeEvict m false)
/-- WBD (R229, R242). -/
def execWbd (m : Msg) (s : State) : Host.Outcome State Fault Refusal := .next (s.onArrival .wbd m fun s => s.homeEvict m true)

/-- CACK: the transaction may close (R238). -/
def execCack (m : Msg) (s : State) : Host.Outcome State Fault Refusal :=
  .next (s.onArrival .cack m fun s => s.onTracker m.ln fun t => if t.req.src = m.src then { t with cack := false } else t)

/-! ## Receipt at the agents -/

/-- A cluster's acknowledgement of a grant (R238). -/
def State.sendCack (s : State) (m : Msg) : State :=
  s.send .cack { m with src := m.dst, dst := sliceAgent (homeOf m.ln), data := 0, poison := false, arg := 0 }

/-- Data with a granted state reaches its requester, which accepts it always: the line is filled and takes a way as soon as it can, replacing a
victim, and CACK is sent (R239–R241). -/
def State.fill (s : State) (kind : MsgKind) (m : Msg) : State :=
  s.onArrival kind m fun s =>
  if 36 ≤ m.dst.toNat then s else
  let g : ClusterId := Fin.ofNat 36 m.dst.toNat
  match s.copy m.ln g with
  | none => s
  | some c =>
    if c.st = .isd ∨ c.st = .imd ∨ c.st = .upa then
      let st : L2St := if m.arg.toNat % 4 = 1 then .s else if m.arg.toNat % 4 = 2 then .e else .m
      (((s.setCopy m.ln g (some { c with st := st, prior := none, data := m.data, poison := m.poison, err := .none })).l2Place m.ln g).sendCack m)
    else s

/-- DH (R240). -/
def execDh (m : Msg) (_victim : Option Nat) (s : State) : Host.Outcome State Fault Refusal := .next (s.fill .dh m).settleSnoops
/-- DF (R240). -/
def execDf (m : Msg) (_victim : Option Nat) (s : State) : Host.Outcome State Fault Refusal := .next (s.fill .df m).settleSnoops

/-- EVA: the way is free, and a filled line that waits for it takes it (R240, R241). -/
def execEva (m : Msg) (s : State) : Host.Outcome State Fault Refusal :=
  .next (s.onArrival .eva m fun s =>
    if 36 ≤ m.dst.toNat then s else
    let g : ClusterId := Fin.ofNat 36 m.dst.toNat
    match s.copy m.ln g with
    | some c => if c.st = .evp then ((s.setCopy m.ln g none).l2PlaceSet m.ln g).settleSnoops else s
    | none => s)

/-! ## TLB invalidations (R197, R393) -/

/-- The operation that a TLBD carries (R393). -/
def tlbOfMsg (m : Msg) : TlbOp :=
  let a := m.arg.toNat
  { op := a % 8, en := a / 8 % 2 == 1, s2id := a / 2 ^ 4 % 256, asid := a / 2 ^ 12 % 65536, inner := m.inner, page := m.ln }

/-- What a core still has to perform before a TLBI that reached it is acknowledged (R197). -/
def Core.older (c : Core) : Nat × Nat := (c.sq.length, c.dq.length + b2n c.wait.isSome)

/-- TLBD: every core of the cluster removes the entries (R197, R393); TLBA returns the TAG once every older access of its cores, which may have
used one, has been performed. A cluster that belongs to another partition removes nothing (R140). -/
def execTlbd (m : Msg) (s : State) : Host.Outcome State Fault Refusal :=
  .next (s.onArrival .tlbd m fun s =>
    if 36 ≤ m.dst.toNat then s else
    let g : ClusterId := Fin.ofNat 36 m.dst.toNat
    let ack : Msg := { m with src := m.dst, dst := m.src, arg := BitVec.ofNat 64 (m.arg.toNat / 2 ^ 28 % 256) }
    if s.owner g != some m.pid then s.send .tlba ack
    else
      let s := s.coresOf g (·.tlbi (tlbOfMsg m))
      let ks := (List.range 6).map fun i => 6 * g.val + i
      let left (f : Core → Nat) : Tbl Nat := ks.foldl (fun (t : Tbl Nat) k => t.set 0 k (f (s.core (Fin.ofNat 216 k)))) []
      let x : TlbOwed := { ack := ack, sq := left (·.older.1), dq := left (·.older.2) }
      State.tlbAck { s with tlbOwed := s.tlbOwed ++ [x] })

/-- TLBA: the issuing core's delivery is acknowledged (R197). -/
def execTlba (m : Msg) (s : State) : Host.Outcome State Fault Refusal :=
  .next (s.onArrival .tlba m fun s =>
    if 36 ≤ m.dst.toNat then s else
    let k : CoreId := Fin.ofNat 216 (6 * m.dst.toNat + m.score.val % 6)
    let c := s.core k
    s.setCore k { c with tlbOut := c.tlbOut.erase (m.arg.toNat % 256, m.src.toNat) })

/-! ## Interrupts (R392, R394, R455) -/

/-- Set an INTID in the Locus wake-pending table of a core (R394). -/
def State.wakeSet (s : State) (k : CoreId) (grp : Bool) (i : Nat) : State :=
  if grp then { s with wakeI := s.wakeI.set [] k.val (insertNat i (s.wakeI.get [] k.val)) }
  else { s with wakeO := s.wakeO.set [] k.val (insertNat i (s.wakeO.get [] k.val)) }

/-- INTD: the bit is set in the core's pending table, or in the Locus table of a core that sleeps in CS2 or CS3 (R392). -/
def execIntd (m : Msg) (s : State) : Host.Outcome State Fault Refusal :=
  .next (s.onArrival .intd m fun s =>
    let a := m.arg.toNat
    let i := a % 2048
    let grp : Bool := a / 2 ^ 11 % 2 == 1
    if 216 ≤ a / 2 ^ 15 % 256 then s else
    let k : CoreId := Fin.ofNat 216 (a / 2 ^ 15 % 256)
    let c := s.core k
    if m.dst = 0x2F ∨ 2 ≤ c.cs.val then s.wakeSet k grp i
    else if c.held then s
    else s.setCore k (if grp then { c with pendI := insertNat i c.pendI } else { c with pendO := insertNat i c.pendO }))

/-! ## Merge buffer, watchdogs and way masks -/

/-- MERGE_BUFFER_DRAIN: an entry that has been idle for 256 Net cycles goes to the L3 dirty; one that is complete or needed has drained with
the request that made it so (R247). -/
def execMergeBufferDrain (ln : Nat) (s : State) : Host.Outcome State Fault Refusal :=
  .next (match (s.line ln).mb with
  | some e => if e.last + 256 ≤ s.now then s.mbDrain ln else s
  | none => s)

/-- A write to an L3 way mask: dropped with event 0x6021 where it would give a way to two partitions in one bank (R230); dropped also
while the bank is active or locked (R35). -/
def State.wayWrite (s : State) (sl : SliceId) (bank : Bool) (p : Pid) (v : Word) : State :=
  let r (q : Pid) : Reg := if bank then .l3sWaymaskB sl q else .l3sWaymaskA sl q
  let others := (List.range 16).foldl (fun acc q => if q = p.val then acc else acc ||| s.rf (r (Fin.ofNat 16 q)) 15 0) 0
  if s.bankLocked 2 bank then s.bankDrop 2 (r p).addr
  else if others &&& fld v 15 0 ≠ 0 then s.bb 0x6021 (some p) sl.val 0
  else s.rgWrite (r p) false v

/-- WAYMASK_WRITE (R230). -/
def execWaymaskWrite (sl : SliceId) (bank : Bool) (p : Pid) (v : Word) (s : State) : Host.Outcome State Fault Refusal :=
  .next (s.wayWrite sl bank p v)

end Sys2Proof.Machine
end

