-- ==== Sys2Proof/Machine/Psc.lean ====
section
/-! DEFINITION. The PSC's access to memory, descriptors in hand and completions (R248, R399–R412), shared by every command of
the service rings. -/

namespace Sys2Proof.Machine

/-! ## Memory as the PSC's engines and the dump engines reach it (R51, R201, R246–R248) -/

/-- The DA of a PPA of a partition in the active bank of the Centroid, or the refusal's status (R49, R51). -/
def State.pscDa (s : State) (p : Pid) (inner : Bool) (ppa : Nat) : Nat ⊕ Nat :=
  match s.gmapPpa (s.bank 2) p (ppa / 2 ^ 30) with
  | none => .inr stNoGranule
  | some v => if bit v 1 && !inner then .inr stWorld else .inl (fld v 51 30 * 2 ^ 30 + ppa % 2 ^ 30)

/-- Read `n` lines of a partition from a PPA, as one number; `none`: refused or poisoned. -/
def State.readLines (s : State) (p : Pid) (inner : Bool) (ppa : Nat) : Nat → Option Nat
  | 0 => some 0
  | n + 1 =>
    match s.pscDa p inner ppa with
    | .inr _ => none
    | .inl da =>
      let (d, poi) := s.newest (da / 64) p
      if poi then none else (s.readLines p inner (ppa / 64 * 64 + 64) n).map fun r => d.toNat + 2 ^ 512 * r

/-- Some reachable line of `n` from a PPA is in a transaction, behind which a read or a write of it waits (R237). -/
def State.linesBusy (s : State) (p : Pid) (inner : Bool) (ppa n : Nat) : Bool :=
  (List.range n).any fun i => match s.pscDa p inner (ppa / 64 * 64 + 64 * i) with | .inl da => !(s.lineQuiet (da / 64)) | .inr _ => false

/-- The home serves an RDO of each reachable line of `n` from a PPA (R246, R247, R260). -/
def State.linesRead (s : State) (p : Pid) (inner : Bool) (ppa : Nat) : Nat → State
  | 0 => s
  | n + 1 =>
    let s : State := match s.pscDa p inner ppa with | .inl da => (s.rdo (da / 64) p).2 | .inr _ => s
    State.linesRead s p inner (ppa / 64 * 64 + 64) n

/-- The bytes of a number, little-endian. -/
def natBytes (v : Nat) : Nat → List Byte
  | 0 => []
  | n + 1 => BitVec.ofNat 8 v :: natBytes (v / 256) n

/-- A number of bytes, little-endian. -/
def bytesNat : List Byte → Nat
  | [] => 0
  | b :: t => b.toNat + 256 * bytesNat t

/-- Whether every line from a PPA is reachable. -/
def State.linesOk (s : State) (p : Pid) (inner : Bool) (ppa n : Nat) : Bool :=
  (List.range n).all fun i => match s.pscDa p inner (ppa + 64 * i) with | .inl _ => true | .inr _ => false

/-- A write of the PSC or of a dump engine to a line at its home: at once on an idle line, otherwise behind the line's open transaction (R237). -/
def State.pscWrite (s : State) (kind : MsgKind) (p : Pid) (inner : Bool) (ln : Nat) (d : Line) (m : BitVec 64) : State :=
  if s.lineQuiet ln then
    (if kind == .wri then s.writeWhole ln p d false else s.writeHome ln p none d m false).settleSnoops
  else s.homeTake kind { Msg.zero with pid := p, inner := inner, priv := kind == .wri, src := 0x2D, dst := sliceAgent (homeOf ln), ln := ln,
                                       arg := BitVec.ofNat 64 m.toNat, data := d }

/-- Write bytes of one line through the home (WRH). -/
def State.writeLine (s : State) (p : Pid) (inner : Bool) (ppa : Nat) (d : Line) (m : BitVec 64) : State :=
  match s.pscDa p inner ppa with
  | .inr _ => s
  | .inl da => s.pscWrite .wrh p inner (da / 64) d m

/-- Write bytes from a line-aligned PPA through the home. -/
def State.writeBytes (s : State) (p : Pid) (inner : Bool) (ppa : Nat) (bs : List Byte) : Nat → State
  | 0 => s
  | n + 1 =>
    if bs.isEmpty then s else
    let now := bs.take 64
    State.writeBytes (s.writeLine p inner ppa (BitVec.ofNat 512 (bytesNat now)) (byteMask 0 now.length)) p inner (ppa + 64) (bs.drop 64) n

/-! ## Descriptors (R405) -/

def Job.word (j : Job) (i : Nat) : Word := j.words.getD i 0
def Job.opcode (j : Job) : Nat := fld (j.word 0) 7 0
def Job.fence (j : Job) : Bool := bit (j.word 0) 8
def Job.noirq (j : Job) : Bool := bit (j.word 0) 9
def Job.tag (j : Job) : Nat := fld (j.word 0) 31 16
def Job.deadline (j : Job) : Nat := fld (j.word 0) 63 32
def Job.buf (j : Job) : Nat := fld (j.word 1) 47 6 * 64
def Job.bufLen (j : Job) : Nat := fld (j.word 2) 23 0
/-- ARG0–ARG4. -/
def Job.arg (j : Job) (i : Nat) : Word := j.word (3 + i)
/-- The partition of a partition ring. -/
def Job.pid? (j : Job) : Option Pid := match j.ring with | .part p => some p | .owner => none

/-- Status codes (R407). -/
def scSuccess := 0x00
def scInvalidOpcode := 0x01
def scInvalidField := 0x02
def scOwnerOnly := 0x03
def scConflict := 0x04
def scNoResource := 0x05
def scBusy := 0x06
def scClaimed := 0x07
def scAborted := 0x08
def scBufFault := 0x09
def scTimeout := 0x0A
def scDeviceError := 0x0B
def scDrainTimeout := 0x0C
def scTruncated := 0x0D

/-! ## Rings (R396–R404) -/

/-- STATE of a partition ring: 0 DISABLED, 1 ENABLED, 2 QUIESCING, 3 FAULT. -/
def State.ringState (s : State) (p : Pid) : Nat := s.rf (.pscRingCtl p) 2 1
/-- WORLD of a partition ring (R397). -/
def State.ringInner (s : State) (p : Pid) : Bool := s.rb (.pscRingCtl p) 3
/-- The world with which a command reaches memory and votes. -/
def State.jobInner (s : State) (j : Job) : Bool := match j.ring with | .part p => s.ringInner p | .owner => false
def State.sqLen (s : State) (p : Pid) : Nat := 2 ^ s.rf (.pscRingCtl p) 8 4
def State.cqLen (s : State) (p : Pid) : Nat := 2 ^ s.rf (.pscRingCtl p) 13 9
def State.outstanding (s : State) (p : Pid) : Nat := s.rf (.pscRingPos p) 46 40
/-- Free completion slots (R399). -/
def State.cqFree (s : State) (p : Pid) : Nat :=
  (s.rf (.pscCqHead p) 15 0 + 2 * s.cqLen p - s.rf (.pscRingPos p) 31 16 - 1) % s.cqLen p

/-- The words of a completion (R406). -/
def Compl.words (c : Compl) (phase : Bool) : List Word :=
  [BitVec.ofNat 64 (c.tag + c.status * 2 ^ 16 + b2n phase * 2 ^ 24 + c.opcode * 2 ^ 32 + c.idx * 2 ^ 48), BitVec.ofNat 64 c.r0,
   BitVec.ofNat 64 c.r1, BitVec.ofNat 64 (c.tick % 2 ^ 32 + c.len * 2 ^ 32)]

/-- Words as a number, little-endian. -/
def wordsNat (l : List Word) : Nat := l.foldr (fun w acc => w.toNat + 2 ^ 64 * acc) 0

/-- Return the ring registers of a page to their reset values, QUOTA kept (R398). -/
def State.ringPageReset (s : State) (p : Pid) : State :=
  let q := s.rf (.pscRingStatus p) 23 16
  let regs : List Reg := [.pscSqBase p, .pscCqBase p, .pscRingCtl p, .pscSqTail p, .pscCqHead p, .pscRingPos p, .pscRingStatus p, .pscRingCnt p]
  let s := (regs.foldl State.rgReset s).rfSet (.pscRingStatus p) 23 16 q
  { s with psc := { s.psc with held := s.psc.held.set [] p.val [], lastEven := s.psc.lastEven.set [] p.val [],
                               irqDue := s.psc.irqDue.erase p.val, cqLost := s.psc.cqLost.erase p.val, ending := s.psc.ending.erase p.val } }

/-- A completion is counted: COMPLETED up, OUTSTANDING down; a quiescing ring with none outstanding is DISABLED, and a
ring that R412 ends is reset (R403, R410, R412). -/
def State.ringCount (s : State) (p : Pid) : State :=
  let n := s.outstanding p - 1
  let s := (s.rfSet (.pscRingCnt p) 63 32 (s.rf (.pscRingCnt p) 63 32 + 1)).rfSet (.pscRingPos p) 46 40 n
  if n ≠ 0 then s
  else if s.psc.ending.contains p.val then s.ringPageReset p
  else if s.ringState p = 2 then s.rfSet (.pscRingCtl p) 2 1 0 else s

/-- A completion counted as delivered to the black box: event 0x9013 with TAG and STATUS (R411, R412). -/
def State.cqToBlackBox (s : State) (p : Pid) (c : Compl) : State :=
  (s.bb 0x9013 (some p) 0 (c.tag + c.status * 2 ^ 16)).ringCount p

/-- Write one completion line (R400, R401); `none`: refused under R51. -/
def State.cqWrite (s : State) (p : Pid) (c : Compl) : Option State :=
  let tail := s.rf (.pscRingPos p) 31 16
  let phase := s.rb (.pscRingPos p) 32
  let ppa := s.rf (.pscCqBase p) 47 6 * 64 + 64 * (tail / 2)
  let w := { c with tick := s.tick }.words phase
  match s.pscDa p (s.ringInner p) ppa with
  | .inr _ => none
  | .inl da =>
    let ws := if tail % 2 = 0 then w ++ [BitVec.ofNat 64 (b2n (!phase) * 2 ^ 24), 0, 0, 0] else s.psc.lastEven.get [] p.val ++ w
    let s := s.pscWrite .wri p (s.ringInner p) (da / 64) (BitVec.ofNat 512 (wordsNat ws)) (BitVec.allOnes 64)
    let s := if tail % 2 = 0 then { s with psc := { s.psc with lastEven := s.psc.lastEven.set [] p.val w } } else s
    let next := (tail + 1) % s.cqLen p
    let s := s.rfSet (.pscRingPos p) 31 16 next
    let s := if next = 0 then s.rfSet (.pscRingPos p) 32 32 (b2n (!phase)) else s
    let s := if c.noirq then s else { s with psc := { s.psc with irqDue := insertNat p.val s.psc.irqDue } }
    some (s.ringCount p)

/-- The PPA of the line to which the next completion of a ring goes (R399). -/
def State.cqPpa (s : State) (p : Pid) : Nat := s.rf (.pscCqBase p) 47 6 * 64 + 64 * (s.rf (.pscRingPos p) 31 16 / 2)

/-- The completions that a ring in FAULT holds are written, in order, while the CQ accepts them (R400, R411). -/
def State.cqRetry : List Compl → Pid → State → State
  | [], _, s => s
  | c :: t, p, s =>
    let keep : State := { s with psc := { s.psc with held := s.psc.held.set [] p.val (c :: t) } }
    if s.linesBusy p (s.ringInner p) (s.cqPpa p) 1 then keep
    else match s.cqWrite p c with
      | some s => State.cqRetry t p s
      | none => keep

/-- The completions held for a ring, and perhaps another one, go as far as they can. -/
def State.heldGo (s : State) (p : Pid) (l : List Compl) : State :=
  State.cqRetry (s.psc.held.get [] p.val ++ l) p { s with psc := { s.psc with held := s.psc.held.set [] p.val [] } }

/-- A completion write is refused: CQ_FAULT and event 0x9011 (R411). -/
def State.cqRefused (s : State) (p : Pid) : State :=
  ((s.rfSet (.pscRingStatus p) 2 2 1).bb 0x9011 (some p) 0 0).rasPush p 0x9011 false 0 0xFFFF

/-- Deliver a completion to a partition ring. A refused write puts ENABLED rings in FAULT, which hold it; of QUIESCING rings and of those that
R412 ends it goes to the black box, of the former with every later one (R400, R411, R412). -/
def State.cqPut (s : State) (p : Pid) (c : Compl) : State :=
  if s.psc.cqLost.contains p.val then s.cqToBlackBox p c
  else if s.ringState p = 3 ∧ !(s.psc.ending.contains p.val) then s.heldGo p [c]
  else match s.cqWrite p c with
    | some s => s
    | none =>
      let s := s.cqRefused p
      if s.psc.ending.contains p.val then s.cqToBlackBox p c
      else if s.ringState p = 2 then { s with psc := { s.psc with cqLost := insertNat p.val s.psc.cqLost } }.cqToBlackBox p c
      else
        let s := s.rfSet (.pscRingCtl p) 2 1 3
        { s with psc := { s.psc with held := s.psc.held.set [] p.val (s.psc.held.get [] p.val ++ [c]) } }

/-- A completion may be written: those before it in its ring have been, its completion line is idle, and every line of its buffer is, so that the
buffer is performed before the completion (R400, R404). -/
def State.mayFinish (s : State) (f : Finish) : Bool :=
  match f.job.ring with
  | .owner => true
  | .part p => !(s.psc.finishing.any fun x => x.job.ring == f.job.ring) && !(s.linesBusy p (s.ringInner p) (s.cqPpa p) 1) &&
      !(s.linesBusy p (s.ringInner p) f.ppa ((f.out.length + 63) / 64))

/-- End a descriptor: its completion goes to its ring (R400, R417). -/
def State.completeNow (s : State) (j : Job) (status r0 r1 len : Nat) (data : List Byte) : State :=
  let c : Compl := { tick := s.tick, tag := j.tag, status := status, opcode := j.opcode, idx := j.idx, r0 := r0, r1 := r1, len := len, noirq := j.noirq, data := data }
  let s := { s with psc := { s.psc with jobs := s.psc.jobs.filter fun x => x.id != j.id } }
  match j.ring with
  | .owner => { s with psc := { s.psc with ownerOut := s.psc.ownerOut ++ [{ c with idx := 0 }],
                                           ownerCnt := (s.psc.ownerCnt.1, s.psc.ownerCnt.2 + 1) }, ibi := s.ibi + 1 }
  | .part p => s.cqPut p c

/-- The output of a command into its buffer, or inline for the owner ring, and its completion (R404, R408, R416). -/
def State.finish (s : State) (f : Finish) : State :=
  match f.job.ring with
  | .part p =>
    (s.writeBytes p (s.ringInner p) f.ppa f.out (f.out.length / 64 + 1)).completeNow f.job f.status f.r0 f.r1 f.len []
  | .owner => s.completeNow f.job f.status f.r0 f.r1 f.len f.out

/-- End a command: its output and its completion are written, or wait until the lines that they go to are idle. -/
def State.ends (s : State) (f : Finish) : State :=
  if s.mayFinish f then s.finish f
  else { s with psc := { s.psc with finishing := s.psc.finishing ++ [f], jobs := s.psc.jobs.filter fun x => x.id != f.job.id } }

/-- End a descriptor without output. -/
def State.complete (s : State) (j : Job) (status r0 r1 : Nat) : State :=
  s.ends { job := j, status := status, r0 := r0, r1 := r1, len := 0, ppa := 0, out := [] }

/-- The completions that wait for lines, and those that rings in FAULT hold, are written as far as they can be. -/
def State.finishRun (s : State) : State :=
  let s : State := s.psc.held.foldl (fun (s : State) e => s.heldGo (Fin.ofNat 16 e.1) []) s
  if s.psc.finishing.isEmpty then s else
  s.psc.finishing.foldl (fun (s : State) f => s.ends f) { s with psc := { s.psc with finishing := [] } }

/-- Replace a descriptor in hand. -/
def State.setJob (s : State) (j : Job) : State :=
  { s with psc := { s.psc with jobs := s.psc.jobs.map fun x => if x.id = j.id then j else x } }

/-- Owner descriptors that count as outstanding (R417). -/
def State.ownerOutstanding (s : State) : Nat :=
  (s.psc.jobs.filter fun j => j.ring == .owner).length + s.psc.ownerOut.length

/-! ## Consuming a descriptor (R403, R408) -/

/-- The opcodes that exist. -/
def opcodeOk (op : Nat) : Bool := decide (1 ≤ op ∧ op ≤ 0x0F)

/-- A PART_RESET of a partition waits for its rings to end (R412). -/
def State.ringsEnding (s : State) (p : Pid) : Bool :=
  s.psc.ending.contains p.val || s.psc.jobs.any fun j => j.opcode == 0x05 && j.phase == 2 && fld (j.arg 0) 3 0 == p.val

/-- A partition ring has a descriptor that the PSC can consume (R403); a partition that is DOWN or whose rings are being ended has none
consumed, in FATAL the PSC serves no ring, and descriptors are consumed before cycle 1,792 (R403, R412, R477). -/
def State.canConsume (s : State) (p : Pid) : Bool :=
  s.ringState p == 1 && decide (s.outstanding p < s.cqFree p) && decide (s.outstanding p < 64) &&
  decide (s.psc.consumed.get 0 p.val < s.rf (.pscRingStatus p) 23 16) && decide (s.cycle < 1792) && !(s.ringsEnding p) && !s.fatal &&
  s.rf (.pscRingPos p) 15 0 != s.rf (.pscSqTail p) 15 0

/-- Descriptors that the last tick deferred are consumed ahead of this tick's own (R31). -/
def State.owedElsewhere (s : State) (p : Pid) : Bool :=
  s.psc.deferred.get 0 p.val == 0 && s.psc.deferred.any fun e => decide (0 < e.2) && s.canConsume (Fin.ofNat 16 e.1)

/-- A partition ring may consume a descriptor now (R31, R403). -/
def State.mayConsume (s : State) (p : Pid) : Bool := s.canConsume p && !(s.owedElsewhere p)

/-- The descriptors of a ring that the tick's window still owes it: those announced, up to its quota and its free completion slots
(R31, R403). -/
def State.ringOwed (s : State) (p : Pid) : Nat :=
  if !(s.canConsume p) then 0
  else
    let n := (s.rf (.pscSqTail p) 15 0 + s.sqLen p - s.rf (.pscRingPos p) 15 0) % s.sqLen p
    min (min n (s.rf (.pscRingStatus p) 23 16 - s.psc.consumed.get 0 p.val)) (min (s.cqFree p) 64 - s.outstanding p)

/-- The eight words of a descriptor line. -/
def lineWords (v : Nat) : List Word := (List.range 8).map fun i => BitVec.ofNat 64 (v / 2 ^ (64 * i))

/-- The PPA of the descriptor at SQ_HEAD (R399). -/
def State.sqPpa (s : State) (p : Pid) : Nat := s.rf (.pscSqBase p) 47 6 * 64 + 64 * s.rf (.pscRingPos p) 15 0

/-- The descriptor at SQ_HEAD, if it can be read. -/
def State.headDesc (s : State) (p : Pid) : Option (List Word) := (s.readLines p (s.ringInner p) (s.sqPpa p) 1).map lineWords

/-- The PSC may consume a descriptor of the ring, and can read it now. -/
def State.headReady (s : State) (p : Pid) : Bool := s.mayConsume p && !(s.linesBusy p (s.ringInner p) (s.sqPpa p) 1)

/-- The read of the descriptor at SQ_HEAD. -/
def State.headRead (s : State) (p : Pid) : State := s.linesRead p (s.ringInner p) (s.sqPpa p) 1

/-- Count a descriptor as consumed and put it in hand. -/
def State.consume (s : State) (p : Pid) (ws : List Word) (data : List Byte) : Job × State :=
  let head := s.rf (.pscRingPos p) 15 0
  let j : Job := { id := s.psc.nextId, ring := .part p, words := ws, idx := head, data := data, armed := s.tick, phase := 0, aux := [] }
  let s := (s.rfSet (.pscRingPos p) 15 0 ((head + 1) % s.sqLen p)).rfSet (.pscRingPos p) 46 40 (s.outstanding p + 1)
  let s := s.rfSet (.pscRingCnt p) 31 0 (s.rf (.pscRingCnt p) 31 0 + 1)
  (j, { s with psc := { s.psc with jobs := s.psc.jobs ++ [j], nextId := s.psc.nextId + 1,
                                   consumed := s.psc.consumed.set 0 p.val (s.psc.consumed.get 0 p.val + 1),
                                   deferred := s.psc.deferred.set 0 p.val (s.psc.deferred.get 0 p.val - 1) } })

/-- BUF_LEN is out of range (R405). -/
def Job.lenBad (j : Job) : Bool :=
  match j.ring with
  | .part _ => j.bufLen % 64 != 0 || decide (2 ^ 20 < j.bufLen)
  | .owner => j.bufLen % 64 != 0 || decide (4096 < j.bufLen)

/-- BUF is not zero where it has to be: with BUF_LEN = 0, and on the owner ring (R405). -/
def Job.bufNot (j : Job) : Bool :=
  match j.ring with
  | .part _ => j.bufLen == 0 && j.buf != 0
  | .owner => j.buf != 0

/-- The words that every descriptor has (R405): the byte offset of the first field with a reserved bit set or a value out of range. -/
def Job.reserved (j : Job) : Option Nat :=
  (([(fld (j.word 0) 15 10 != 0, 1), (fld (j.word 1) 5 0 != 0, 8), (j.bufNot, 8), (fld (j.word 1) 63 48 != 0, 14), (j.lenBad, 16),
     (fld (j.word 2) 63 24 != 0, 19)] : List (Bool × Nat)).find? (·.1)).map (·.2)

/-- The command reads its buffer: RESIZE, ATTEST and PARK (R408). -/
def Job.readsBuf (j : Job) : Bool := j.opcode == 0x06 || j.opcode == 0x0B || j.opcode == 0x0E

/-- The buffer is refused for the ring's PID and world, or a line that the command reads is poisoned (BUF_FAULT, R407, R484). -/
def State.bufBad (s : State) (j : Job) : Bool :=
  match j.ring with
  | .part p =>
    !(s.linesOk p (s.ringInner p) j.buf (j.bufLen / 64)) || (j.readsBuf && (s.readLines p (s.ringInner p) j.buf (j.bufLen / 64)).isNone)
  | .owner => false

/-- The lines of the buffer that the command reads. -/
def Job.inLines (j : Job) : Nat := if j.readsBuf && !j.lenBad then j.bufLen / 64 else 0

/-- The input data in a descriptor's buffer. -/
def State.bufData (s : State) (p : Pid) (j : Job) : List Byte :=
  if j.inLines = 0 then [] else natBytes ((s.readLines p (s.ringInner p) j.buf j.inLines).getD 0) j.bufLen

/-- Complete with output data: into the buffer, or inline for the owner ring (R408, R416). -/
def State.completeData (s : State) (j : Job) (status r0 r1 : Nat) (out : List Byte) : State :=
  s.ends { job := j, status := status, r0 := r0, r1 := r1, len := out.length, ppa := j.buf, out := out }

/-- INVALID_FIELD with the byte offset of the first offending field (R406). -/
def State.badField (s : State) (j : Job) (off : Nat) : State := s.complete j scInvalidField off 0

/-- A function that no command row names (R408): the byte offset of its field. -/
def Job.rowless (j : Job) : Option Nat :=
  if j.opcode = 0x08 ∧ fld (j.arg 0) 9 8 = 3 then some 25
  else if j.opcode = 0x0F ∧ 3 < fld (j.arg 0) 7 0 then some 24
  else if j.opcode = 0x0D ∧ 2 ≤ fld (j.arg 0) 21 20 then some 26
  else none

/-- End a descriptor whose opcode or function is not assigned (R408). -/
def State.refuseUnnamed (s : State) (j : Job) : State :=
  if !(opcodeOk j.opcode) then s.complete j scInvalidOpcode 0 0 else s.badField j ((j.reserved.or j.rowless).getD 24)

/-- Consume the descriptors at the head whose opcode or function is not assigned; a refused or poisoned read puts the rings in FAULT
(R408, R411). -/
def State.skipInvalid : Nat → State → Pid → State
  | 0, s, _ => s
  | n + 1, s, p =>
    if !(s.headReady p) then s else
    let s := s.headRead p
    match s.headDesc p with
    | none => (((s.rfSet (.pscRingStatus p) 1 1 1).rfSet (.pscRingCtl p) 2 1 3).bb 0x9010 (some p) 0 0).rasPush p 0x9010 false 0 0xFFFF
    | some ws =>
      let probe : Job := { id := 0, ring := .part p, words := ws, idx := 0, data := [], armed := 0, phase := 0, aux := [] }
      if opcodeOk probe.opcode && probe.rowless.isNone then s
      else
        let (j, s) := s.consume p ws []
        State.skipInvalid n (s.refuseUnnamed j) p

/-- What the checks of one opcode are: owner-only, the offset of the first bad field of ARG0–ARG4, whether it reads or writes a
buffer, and the work itself. -/
structure RingOp where
  op     : Nat
  /-- The function bits that a command row names. -/
  fn     : Job → Bool
  owner  : Job → Bool
  bad    : State → Job → Option Nat
  usesBuf : Bool
  work   : State → Job → State

/-- Validate a descriptor in hand and start its work; the first failing check gives the status (R408). -/
def State.startJob (s : State) (o : RingOp) (j : Job) : State :=
  if o.owner j && j.ring != .owner then s.complete j scOwnerOnly 0 0
  else match j.reserved with
    | some off => s.badField j off
    | none =>
      match o.bad s j with
      | some off => s.badField j off
      | none => if o.usesBuf && s.bufBad j then s.complete j scBufFault 0 0 else o.work s j

/-- The ring has descriptors in hand. -/
def State.ringJobs (s : State) (r : Ring) : List Job := s.psc.jobs.filter fun j => j.ring == r

/-- A command of the service rings: the descriptor at the head of a partition ring with the opcode and function that the row
names is consumed, validated and started; on the owner ring it is the first consumed one that has not started. A FENCE waits
until the ring has none in hand (R403, R408, R409). -/
def State.ringCommand (s : State) (r : Ring) (o : RingOp) : State :=
  if s.fatal then s else
  match r with
  | .part p =>
    let s := State.skipInvalid 64 s p
    if !(s.headReady p) then s else
    match s.headDesc p with
    | none => s
    | some ws =>
      let probe : Job := { id := 0, ring := r, words := ws, idx := 0, data := [], armed := 0, phase := 0, aux := [] }
      if probe.opcode ≠ o.op ∨ !(o.fn probe) then s
      else if probe.fence && s.outstanding p != 0 then s
      else if s.linesBusy p (s.ringInner p) probe.buf probe.inLines then s
      else
        let s := s.linesRead p (s.ringInner p) probe.buf probe.inLines
        let (j, s) := s.consume p ws (s.bufData p probe)
        s.startJob o j
  | .owner =>
    match (s.ringJobs .owner).find? fun j => j.phase == 0 with
    | none => s
    | some j =>
      if j.opcode ≠ o.op ∨ !(o.fn j) then s
      else if j.fence && (s.ringJobs .owner).any (fun x => decide (x.id < j.id)) then s
      else s.startJob o j

/-- Keep a descriptor in hand at a later step of its work. -/
def State.keepJob (s : State) (j : Job) (phase : Nat) (aux : List Nat) : State := s.setJob { j with phase := phase, aux := aux }

/-- End the waits that R412 and R410 abort, for a ring. -/
def State.abortJobs (s : State) (r : Ring) (f : Job → Bool) : State :=
  ((s.ringJobs r).filter f).foldl (fun s j => s.complete j scAborted 0 0) s

/-- POWER_REQ, PARK, PORT_CTL and CXL_MGMT (R410, R412). -/
def Job.waits (j : Job) : Bool := j.opcode == 0x01 || j.opcode == 0x0E || j.opcode == 0x08 || j.opcode == 0x0F

end Sys2Proof.Machine
end

