-- ==== Sys2Proof/Machine/Down.lean ====
section
/-! DEFINITION. Taking a partition or the package down: containment of ports, UCD, FATAL, resets of clusters, and the
watchdogs of coherent requests (R262, R387, R412, R456, R471–R480). -/

namespace Sys2Proof.Machine

/-! ## Root ports (R364, R387) -/

/-- PCI_PORT_OWNER of a port in the active bank of class GMAP (R364). -/
def State.portOwnerReg (s : State) (port : PortId) : Reg :=
  if s.bank 2 then .pciPortOwnerB ⟨port.val / 4, by omega⟩ ⟨port.val % 4, by omega⟩
  else .pciPortOwnerA ⟨port.val / 4, by omega⟩ ⟨port.val % 4, by omega⟩

/-- MODE of a port: 0 unassigned, 1 partition, 2 CXL. -/
def State.portMode (s : State) (port : PortId) : Nat := s.rf (s.portOwnerReg port) 5 4

/-- The partition that owns a port. -/
def State.portOwner (s : State) (port : PortId) : Option Pid :=
  if s.portMode port = 1 then some (Fin.ofNat 16 (s.rf (s.portOwnerReg port) 3 0)) else none

def portStatusReg (port : PortId) : Reg := .pciPortStatus ⟨port.val / 4, by omega⟩ ⟨port.val % 4, by omega⟩

/-- STATE of a port: 0 off, 1 training, 2 up, 3 quiescing, 4 contained, 5 disabled, 6 lost. -/
def State.portState (s : State) (port : PortId) : Nat := s.rf (portStatusReg port) 2 0
def State.setPortState (s : State) (port : PortId) (n : Nat) : State := s.rfSet (portStatusReg port) 2 0 n

/-- The root ports that a bifurcation code creates (R363). -/
def portExists (code i : Nat) : Bool :=
  match code with
  | 0 => i == 0
  | 1 => i == 0 || i == 2
  | 2 => i == 0 || i == 2 || i == 3
  | 3 => i == 0 || i == 1 || i == 2
  | 4 => decide (i < 4)
  | _ => false

/-- The port exists under its complex's code. -/
def State.hasPort (s : State) (port : PortId) : Bool := portExists (s.rf (.pciCfg ⟨port.val / 4, by omega⟩) 2 0) (port.val % 4)

def State.portSt (s : State) (port : PortId) : PortSt := s.ports.get PortSt.idle port.val
def State.setPortSt (s : State) (port : PortId) (x : PortSt) : State := { s with ports := s.ports.set PortSt.idle port.val x }

/-- The ports of a partition. -/
def State.portsOf (s : State) (p : Pid) : List PortId :=
  ((List.range 32).map fun i => (Fin.ofNat 32 i : PortId)).filter fun port => s.portOwner port == some p

/-! ## The end of a device access (R209, R216, R387) -/

/-- The oldest issued device store to a PPA leaves a core's queue: it counts as acknowledged (R197, R219). -/
def State.dqAck (s : State) (k : CoreId) (ppa : Nat) : State :=
  let c := s.core k
  match c.dq.find? fun e => e.issued && e.ppa == ppa with
  | some e => (s.setCore k (c.setDq (c.dq.erase e))).tlbPop k true
  | none => s

/-- A device access ends with an error status: a load takes a precise external abort, a store an imprecise one and counts as
acknowledged (R163, R216). -/
def State.devFail (s : State) (a : DevAcc) (status : Nat) : State :=
  let s := { s with devs := s.devs.filter fun x => x.id != a.id }
  let c := s.core a.core
  if a.write then
    (if a.early || a.orphan then s else s.dqAck a.core a.ppa).abortArrives a.core
      { status := BitVec.ofNat 8 status, write := true, ppa := a.ppa / 4096 * 4096 } a.orphan
  else if a.orphan then s
  else match c.wait with
    | some w =>
      if w.ppa = a.ppa then
        ((((s.setCore a.core { c with wait := none }).tlbPop a.core true)).takeExc a.core (excAbort w.va.toNat status 0) (w.len == 4)).settleSnoops
      else s
    | none => s

/-- Steps 3 and 4 of a quiesce: the link is disabled, downstream requests without completion end with TARGET_UNAVAILABLE, upstream
writes already in the root complex stay and reads are dropped, and the IOT forgets the port's requesters (R387). -/
def State.portCut (s : State) (port : PortId) : State :=
  let s := (s.devs.filter fun a => a.port == some port.val).foldl (fun s a => s.devFail a stUnavailable) s
  let s := { s with iots := s.iots.mapVals Iot.empty fun _ t => { t with cache := t.cache.filter fun e => e.port != port.val } }
  let x := s.portSt port
  s.setPortSt port { x with step := 0, reads := [], held := x.held.filter fun h => match h with
    | .inl q => q.kind == .write
    | .inr _ => true }

/-- A containment, or the quiesce of a UCD, which begins at step 3: the port ends in STATE `final`, and a PORT_CTL or CXL_MGMT that
waited for it ends ABORTED (R387, R388, R475). -/
def State.portDown (s : State) (port : PortId) (final : Nat) : State :=
  let s := (s.portCut port).setPortState port final
  let x := s.portSt port
  match x.job.bind fun n => s.psc.jobs.find? fun j => j.id == n with
  | none => s
  | some j =>
    if j.opcode = 0x08 ∨ j.opcode = 0x0F then (s.setPortSt port { x with job := none }).complete j scAborted 0 0 else s

/-! ## Resetting a cluster (R262 step 5, R456, R491–R495) -/

/-- Every L2, L1 and victim-cache copy of a cluster is wiped, without writeback. -/
def State.wipeCaches (s : State) (g : ClusterId) : State :=
  { s with lines := s.lines.mapVals LineSt.empty fun _ l => { l with l2 := l.l2.set none g.val none } }

/-- The registers of a cluster and of its cores that a cluster reset returns to their reset values. -/
def cluRegs (g : ClusterId) : List Reg :=
  [.cluL2Ctl g, .cluL2Lock g, .cluL2Lockmiss g, .cluSmplBase g, .cluSmplCtl g, .cluSmplHead g, .cluSmplPos g]

def coreRegs (k : CoreId) : List Reg :=
  [.coreExecCtl k, .coreDbgCtl k] ++ (List.range 16).flatMap fun i => [.coreBpAddr k (Fin.ofNat 16 i), .coreBpCtl k (Fin.ofNat 16 i)]

/-- One core is reset and held; its save slot reads zero, and the Locus keeps its wake-pending entries (R456, R470, R491). Snoops that it
deferred are answered, TLBI deliveries wait for nothing of it, and its device accesses are those of a core that has been reset since
(R129, R197, R217, R220). -/
def State.resetCore (s : State) (k : CoreId) : State :=
  let s := ((s.clearResv fun n _ => n == k.val).resvEnds k).settleSnoops
  let s := (s.tlbDrop k).setCore k Core.reset
  let s := (coreRegs k).foldl State.rgReset s
  let s : State := { s with saves := s.saves.set none k.val none, devs := s.devs.map fun (a : DevAcc) => { a with orphan := a.orphan || a.core == k } }
  s.rgReset (.pwrStatus (coreDom k))

/-- A cluster is reset and held: caches wiped, registers and save slots cleared (R456). -/
def State.resetCluster (s : State) (g : ClusterId) : State :=
  let s := s.wipeCaches g
  let s := (List.range 6).foldl (fun s i => s.resetCore (Fin.ofNat 216 (6 * g.val + i))) s
  let s := (cluRegs g).foldl State.rgReset s
  { (s.rgReset (.pwrStatus (clusterDom g))) with cluSaves := s.cluSaves.set [] g.val [], smplBuf := s.smplBuf.set [] g.val [] }

/-! ## UCD (R262, R412, R475) -/

/-- PSC_PART_STATUS.STATE. -/
def State.partState (s : State) (p : Pid) : Nat := s.rf (.pscPartStatus p) 2 0
def State.setPartState (s : State) (p : Pid) (n : Nat) : State := s.rfSet (.pscPartStatus p) 2 0 n

/-- The partition status pin: high while STATE is RUNNING or RESIZING and main power is on, low from FATAL (R477, R523). -/
def State.partPin (s : State) (p : Pid) : Bool := (s.partState p == 2 || s.partState p == 3) && !s.fatal

/-- PKG_FATAL_N: low from FATAL until the cold reset (R477, R523). -/
def State.fatalPin (s : State) : Bool := !s.fatal

/-- MAIN_EN (R533). -/
def State.mainEnPin (s : State) : Bool := s.rb .locRailStatus 56

/-- PERST# of a root port: floating while the port is off, low from step 5 of its quiesce until it trains again, high otherwise (R387,
R469, R523). -/
def State.perstPin (s : State) (port : PortId) : Option Bool :=
  if s.portState port = 0 ∨ s.rf (.pwrStatus ⟨264 + port.val, by omega⟩) 1 0 = 3 then none
  else some (!(s.portState port == 5 || (s.portSt port).step == 2))

/-- CLKREQ# of a root port, which an active port drives low: floating while the port is off (R469, R523). -/
def State.clkreqPin (s : State) (port : PortId) : Option Bool :=
  if s.portState port = 0 ∨ s.rf (.pwrStatus ⟨264 + port.val, by omega⟩) 1 0 = 3 then none else some false

/-- The requests of a PID that wait at the slices for trackers are refused (R262 step 2). -/
def State.sliceRefuse (s : State) (p : Pid) : State :=
  let l : List (MsgKind × Msg) := s.net.sliceQ.flatMap fun e => e.2.filter fun x => x.2.pid == p && !x.2.priv
  l.foldl (fun (s : State) x => s.replyErr x.2 stUnavailable)
    { s with net := { s.net with sliceQ := s.net.sliceQ.mapVals [] fun _ q => q.filter fun x => !(x.2.pid == p && !x.2.priv) } }

/-- Every slice goes on as far as it can. -/
def State.homesWake (s : State) : State :=
  (s.net.sliceQ.map fun e => e.1).foldl (fun (s : State) sl => s.homeWake (Fin.ofNat 64 sl)) s

/-- The home slices end the open and queued transactions of a PID, and its merge-buffer entries go to memory (R262, steps 2
and 3). -/
def State.homesRefuse (s : State) (p : Pid) : State :=
  let s := { s with refused := insertNat p.val s.refused }
  s.lines.foldl (fun s e =>
    let ln := e.1
    let l := s.line ln
    let s := match l.tr with
      | some t => if t.req.pid = p then (s.replyErr t.req stUnavailable).setLine ln { (s.replyErr t.req stUnavailable).line ln with tr := none } else s
      | none => s
    let s := ((s.line ln).queue.filter fun x => x.2.pid == p).foldl (fun s x => s.replyErr x.2 stUnavailable) s
    let s := s.setLine ln { s.line ln with queue := (s.line ln).queue.filter fun x => x.2.pid != p }
    let s := match (s.line ln).mb with
      | some m => if m.pid = p then (s.mbDrain ln).l3Clean ln else s
      | none => s
    s.lineGo ln) (s.sliceRefuse p) |>.homesWake

/-- End every descriptor of a partition's rings (R412): waits end ABORTED; the rest run to their completion, after which the
ring page is reset. `begun`: waits already begun end too. Completions that the queue did not accept go to the black box. -/
def State.ringsEnd (s : State) (p : Pid) (begun : Bool) : State :=
  let s := s.abortJobs (.part p) fun j => j.waits && (begun || j.phase == 0)
  let held : List Compl := s.psc.held.get [] p.val
  let s := { s with psc := { s.psc with ending := insertNat p.val s.psc.ending, held := s.psc.held.set [] p.val [] } }
  let s : State := held.foldl (fun (s : State) c => s.cqToBlackBox p c) s
  if s.outstanding p == 0 then s.ringPageReset p else s

/-- A UCD of a partition, after the detecting unit's record: a RAS record; unless the partition is already DOWN, event 0x1060
with the detecting code, STATE DOWN, an in-band interrupt to the owner, the homes refuse the PID, its rings end and its
root ports are contained (R472, R474, R475). -/
def State.ucd (s : State) (p : Pid) (code unit ppa : Nat) : State :=
  if s.fatal || s.partState p == 5 then s
  else
    let s := (s.bb 0x1060 (some p) 0 code).setPartState p 5
    let s := { s with ibi := s.ibi + 1 }
    let s := s.rasPush p code true ppa unit
    let s := s.homesRefuse p
    let s := (s.portsOf p).foldl (fun s port => s.portDown port 5) s
    { (s.ringsEnd p true) with psc := { (s.ringsEnd p true).psc with parks := (s.ringsEnd p true).psc.parks.set none p.val none } }

/-! ## FATAL (R477) -/

/-- FATAL after its record: the first cause and its tick, and every cluster held in reset (R477). -/
def State.declareFatal (s : State) (code : Nat) : State :=
  let s := if s.rf .locFatalCause 15 0 = 0 then s.rgSet .locFatalCause (BitVec.ofNat 64 (code + s.tick % 2 ^ 48 * 2 ^ 16)) else s
  { s with fatal := true, cores := [] }

/-- Log a FATAL event and stop the package. -/
def State.bbFatal (s : State) (code : Nat) (pid : Option Pid) (inst arg : Nat) : State :=
  (s.bbSev code 4 pid inst arg).declareFatal code

/-- PARTITION_DOWN: a UCD that a unit detects in a partition; the rules that detect one by this command name no value for ARG
(R471, R475, R487). -/
def execPartitionDown (p : Pid) (code : BitVec 16) (unit : Nat) (ppa : Nat) (s : State) : Host.Outcome State Fault Refusal :=
  .next ((s.bbSev code.toNat 3 (some p) (unit % 256) 0).ucd p code.toNat unit ppa)

/-- FATAL (R477). -/
def execFatal (code : BitVec 16) (s : State) : Host.Outcome State Fault Refusal := .next (s.bbFatal code.toNat none 0 0)


/-- BLACKBOX_RECORD: an arriving record is written under the ring's state (R489). -/
def execBlackboxRecord (r : BbRec) (s : State) : Host.Outcome State Fault Refusal := .next (s.bbArrive r)

/-- The walk of the slices for a PID: dirty L3 lines are written to memory, its L3 lines and directory entries dropped (R262, step 4). -/
def State.pidWalk (s : State) (p : Pid) : State :=
  s.lines.foldl (fun s e =>
    let s := match (s.line e.1).l3 with | some c => if c.pid = p then (s.l3Clean e.1).l3Drop e.1 else s | none => s
    match (s.line e.1).dir with
    | some d => if d.pid = p then s.setDir e.1 none else s
    | none => s) s

/-- DOMAIN_DOWN_WALK_COMPLETE: the slices have written the PID's dirty L3 lines to memory and dropped its lines and directory
entries; the PSC resets the partition's clusters, which discards their buffered stores (R219, R262 steps 4 and 5). -/
def execDomainDownWalkComplete (p : Pid) (s : State) : Host.Outcome State Fault Refusal :=
  .next (if !(s.refused.contains p.val) || s.partState p != 5 then s else
    let s := s.pidWalk p
    (s.clustersOf p).foldl (fun s g => s.resetCluster (Fin.ofNat 36 g)) s)

/-! ## Watchdogs of coherent requests (R37, R478, R480) -/

/-- A watchdog of `t` ticks armed in tick `n` has fired (R37). -/
def State.expired (s : State) (n t : Nat) : Bool := decide (n + t + 1 ≤ s.tick)

/-- PSC_HEARTBEAT_LOSS: no tick-duty window for 1,000 ticks: FATAL with event 0x0030 (R478). -/
def execPscHeartbeatLoss (s : State) : Host.Outcome State Fault Refusal :=
  .next (if s.expired s.psc.beat 1000 then s.bbFatal 0x0030 none 0 0 else s)

/-- The agents whose answers a tracker awaits, with the MSG awaited (R269, R480). -/
def Tracker.awaited (t : Tracker) : List (Nat × Nat) :=
  (t.snoops.map fun g => (g, 0x20)) ++ (t.wbif.map fun g => (g, 0x33)) ++ (if t.cack && t.snoops.isEmpty && t.wbif.isEmpty then [(t.req.src.toNat, 0x22)] else [])

/-- HOME_TRACKER_TIMEOUT (R480). -/
def execHomeTrackerTimeout (ln : Nat) (s : State) : Host.Outcome State Fault Refusal :=
  .next (match (s.line ln).tr with
  | none => s
  | some t =>
    if !(s.expired t.armed 4096) then s else
    let p := t.req.pid
    let sl := (homeOf ln).val
    let s := (t.awaited.take 8).foldl (fun s a => s.bb 0x6034 (some p) sl (a.1 + a.2 * 2 ^ 8)) s
    (s.bb 0x6032 (some p) sl (t.num + ln / 64 * 2 ^ 8)).ucd p 0x6032 0xFFFF (s.ppaOf p (64 * ln) / 4096 * 4096))

/-- A core's request for a line has been unanswered for 4,096 ticks: the tracker that holds it, its miss buffer, the L2's own wait, or its
maintenance operation (R478, R480). -/
def State.requestOf (s : State) (k : CoreId) (ln : Nat) : Bool :=
  let c := s.core k
  let late (n : Nat) : Bool := s.expired n 4096
  (match (s.line ln).tr with | some t => reqCore t.req == some k.val && late t.armed | none => false) ||
  (c.miss.any fun b => b.ln == ln && b.got == 0 && late b.armed) ||
  (match s.copy ln (clusterOf k) with
    | some x => !x.st.stable && x.st != .evp && x.core.val == k.val % 6 && late x.armed
    | none => false) ||
  c.maintOut.any fun x => x.1 == ln && late x.2

/-- COHERENT_REQUEST_TIMEOUT: event 0x7042; it falls under R472 where the partition is already going down (R480). -/
def execCoherentRequestTimeout (k : CoreId) (ln : Nat) (s : State) : Host.Outcome State Fault Refusal :=
  .next (if !(s.requestOf k ln) then s else
    let p := s.pidOf k
    (s.bb 0x7042 (some p) k.val (ln / 64)).ucd p 0x7042 k.val (s.ppaOf p (64 * ln) / 4096 * 4096))

end Sys2Proof.Machine
end

