-- ==== Sys2Proof/Machine/Sleep.lean ====
section
/-! DEFINITION. Core and cluster power states: WFI, the entry to CS1–CS3 and KS1–KS3, the save RAM, and waking
(R132, R198, R219, R394, R448–R457). -/

namespace Sys2Proof.Machine

/-! ## Effective targets (R449, R465) -/

/-- The effective target of votes. -/
def effTarget (v : Word) : Nat := if bit v 4 then min (fld v 1 0) (fld v 3 2) else fld v 1 0

/-- Store PWR_CTL; TARGET reads the effective target (R449). -/
def State.setPwrCtl (s : State) (d : DomainId) (v : Word) : State := s.rgSet (.pwrCtl d) (setFld v 9 8 (effTarget v))

/-- The partition is being parked, or is parked (R465). -/
def State.parking (s : State) (p : Pid) : Bool := (s.psc.parks.get none p.val : Option Park).isSome

/-- The target of a core; CS3 while its partition parks, whatever its vote (R465). -/
def State.coreTarget (s : State) (k : CoreId) : Nat :=
  if s.parking (s.pidOf k) then 3 else effTarget (s.rg (.pwrCtl (coreDom k)))

def State.cluTarget (s : State) (g : ClusterId) : Nat :=
  match s.owner g with
  | some p => if s.parking p then 3 else effTarget (s.rg (.pwrCtl (clusterDom g)))
  | none => 3

/-! ## Clock frequency (R458, R459, R463) -/

/-- A cluster's ceiling in 100 MHz (R458). -/
def State.ceiling (s : State) (g : ClusterId) : Nat :=
  let r : Reg := .pwrPerf (clusterDom g)
  let out := max 10 (min 34 (s.rf r 5 0))
  if s.rb (.pwrCtl (clusterDom g)) 4 then max out (max 10 (min 34 (s.rf r 13 8))) else out

/-- A unit whose excursion throttles the whole package (R463, R536). -/
def ThermUnit_all : ThermUnit → Bool
  | .die d => d.val == 12
  | .stack _ => true

/-- The frequency of a cluster in 100 MHz. -/
def State.freq (s : State) (g : ClusterId) : Nat :=
  let c := s.ceiling g
  let f := if 29 < c ∧ s.rf (.pwrStatus (clusterDom g)) 1 0 = 0 then min c (max 29 s.pwr.boost) else min c 29
  if s.pwr.hot.any (fun u => ThermUnit_all u || u == .die ⟨g.val / 3, by omega⟩) then min f 20 else f

/-- PWR_PERF.FREQ of a cluster follows (R458–R460). -/
def State.refreqOne (s : State) (g : ClusterId) : State := s.rfSet (.pwrPerf (clusterDom g)) 21 16 (s.freq g)

/-- PWR_STATUS fields of a domain: STATE, TRANS and CLOSED; only a cluster in KS0 is boosted (R448, R459). -/
def State.setPwr (s : State) (d : DomainId) (st : Nat) (trans closed : Bool) : State :=
  let s := ((s.rfSet (.pwrStatus d) 1 0 st).rfSet (.pwrStatus d) 2 2 (b2n trans)).rfSet (.pwrStatus d) 3 3 (b2n closed)
  if 216 ≤ d.val ∧ d.val < 252 then s.refreqOne (Fin.ofNat 36 (d.val - 216)) else s

/-- A domain's transition is still in progress. -/
def State.trans (s : State) (d : DomainId) : Bool := s.rb (.pwrStatus d) 2

/-! ## The save slot of a core (R452) -/

/-- The system registers of the save list, in the order of R80. -/
def savedSrns : List Nat :=
  [0x002, 0x003, 0x004, 0x005, 0x400, 0x402, 0x403, 0x404, 0x405, 0x406, 0x408, 0x410, 0x411, 0x420, 0x421, 0x428, 0x429, 0x42A,
   0x42B, 0x42C, 0x42D, 0x42E, 0x42F, 0x440, 0x601, 0x800, 0x802, 0x803, 0x804, 0x805, 0x806, 0x810, 0x811, 0xC00, 0xC02, 0xC03,
   0xC04, 0xC05, 0xC06, 0xC08]

/-- A value of `w` bits followed by a longer image. -/
def cat (w : Nat) (v rest : Nat) : Nat := v % 2 ^ w + 2 ^ w * rest

/-- The bytes of the save list before its CRC, as a number (R452). -/
def SaveSlot.image (x : SaveSlot) : Nat :=
  let sysv (n : Nat) : Nat :=
    let v := x.sys.get (sysReset n) n
    (if n = Srn.status ∨ n = Srn.hstatus ∨ n = Srn.mstatus then setFld (setFld v 1 0 x.pl.val) 2 2 (b2n x.inner) else v).toNat
  let tail := x.bps.foldr (fun v r => cat 64 v.toNat r) 0
  let t1 := savedSrns.foldr (fun n r => cat 64 (sysv n) r) (cat 64 x.exec.toNat tail)
  let t2 := (List.range 8).foldr (fun i r => cat 512 (x.q.get 0 i).toNat r) (cat 64 x.pc.toNat t1)
  let t3 := (List.range 4).foldr (fun i r => cat 64 (x.sp.get 0 i).toNat r) t2
  let t4 := (List.range 15).foldr (fun i r => cat 64 (x.a.get 0 i).toNat r) t3
  (List.range 31).foldr (fun i r => cat 64 (x.d.get 0 (i + 1)).toNat r) t4

/-- CRC-64 of the 1,504 bytes (R115, R452). -/
def SaveSlot.check (x : SaveSlot) : Word := crcBits 0xC96C5795D7870F42 0 x.image (8 * 1504)

/-- Save a core (R452). -/
def State.saveCore (s : State) (k : CoreId) : SaveSlot :=
  let c := s.core k
  let x : SaveSlot := {
    d := c.d, a := c.a, sp := c.sp, q := c.q, pc := c.pc, pl := c.pl, inner := c.inner, sys := c.sys,
    exec := s.rg (.coreExecCtl k),
    bps := (List.range 16).flatMap fun i => [s.rg (.coreBpAddr k (Fin.ofNat 16 i)), s.rg (.coreBpCtl k (Fin.ofNat 16 i))], crc := 0 }
  { x with crc := x.check }

/-- Restore a core from its slot; what the list does not hold is empty (R452). -/
def State.restoreCore (s : State) (k : CoreId) (x : SaveSlot) : State :=
  let c := s.core k
  let c' : Core :=
    { Core.reset with
      held := false, d := x.d, a := x.a, sp := x.sp, q := x.q, pc := x.pc, pl := x.pl, inner := x.inner, sys := x.sys,
      cs := 0, haltReq := c.haltReq, pmuInner := c.pmuInner, tlbOut := c.tlbOut, maintOut := c.maintOut }
  let s := (s.setCore k c').rgSet (.coreExecCtl k) x.exec
  (List.range 16).foldl (fun s i => (s.rgSet (.coreBpAddr k (Fin.ofNat 16 i)) (x.bps.getD (2 * i) 0)).rgSet (.coreBpCtl k (Fin.ofNat 16 i)) (x.bps.getD (2 * i + 1) 0)) s

/-! ## Entering a core state (R198, R219, R451, R455, R457) -/

/-- A wake event of R132 is pending for a core: an interrupt of either group, an imprecise abort, or a debug halt request (R451). -/
def State.wakeEvent (s : State) (k : CoreId) : Bool :=
  let c := s.core k
  !c.pendO.isEmpty || !c.pendI.isEmpty || c.abort.isSome || c.haltReq || !(s.wakeO.get [] k.val).isEmpty ||
  !(s.wakeI.get [] k.val).isEmpty || (s.wakeAb.get none k.val).isSome

/-- The Locus entry of a core merged into its tables (R394). -/
def State.mergeWake (s : State) (k : CoreId) : State :=
  let c := s.core k
  let c' := { c with pendO := unionNat c.pendO (s.wakeO.get [] k.val), pendI := unionNat c.pendI (s.wakeI.get [] k.val),
                     abort := c.abort.or (s.wakeAb.get none k.val) }
  { (s.setCore k c') with wakeO := s.wakeO.set [] k.val [], wakeI := s.wakeI.set [] k.val [], wakeAb := s.wakeAb.set none k.val none }

/-- The L1 caches and the TLBs of a core that enters CS2 or CS3 are empty and its reservation is gone (R129, R198, R451). -/
def Core.quiesced (c : Core) : Core :=
  { c with l1d := [], l1i := [], l1dLru := [], l1iLru := [], vc := [], miss := [], block := none, stale := [], dtlb := [], itlb := [], tlb := [], wc := [],
           resv := none, trOld := none, hist := [], ras := [], bpred := [], vpred := [], mdep := [], spf := [] }

/-- Carry a power-down of a core on: a wake event before the save ends it; when the queues have drained the core enters CS2, or
is saved and its domain's edge closes for CS3; the counters stand from there on (R219, R451, R452, R455, R457, R508). -/
def State.sleepSettle (s : State) (k : CoreId) : State :=
  let c0 := s.core k
  if !c0.wfi || c0.cs != 0 then s else
  let s := s.look k
  let c := s.core k
  if s.wakeEvent k then (s.setCore k { c with wfi := false }).rfSet (.pwrStatus (coreDom k)) 2 2 0
  else if !c.sq.isEmpty || !c.dq.isEmpty then s
  else
  let s := s.resvEnds k
  if s.coreTarget k = 3 then
    let x := s.saveCore k
    let s := { s with saves := s.saves.set none k.val (some x), wakeO := s.wakeO.set [] k.val (unionNat c.pendO (s.wakeO.get [] k.val)),
                      wakeI := s.wakeI.set [] k.val (unionNat c.pendI (s.wakeI.get [] k.val)) }
    (s.setCore k { Core.reset with held := false, wfi := true, cs := 3, inner := c.inner, tlbOut := c.tlbOut, maintOut := c.maintOut, deferred := c.deferred,
                                   haltReq := c.haltReq, pmuInner := c.pmuInner }).settleSnoops.setPwr (coreDom k) (s.rf (.pwrStatus (coreDom k)) 1 0) true true
  else ((s.setCore k { c.quiesced with cs := 2 }).settleSnoops).setPwr (coreDom k) 2 false false

/-- WFI takes the core into its effective target (R132, R451): CS1 at once, CS2 and CS3 when the queues have drained. -/
def State.sleepStart (s : State) (k : CoreId) : State :=
  let c := s.core k
  if s.coreTarget k ≤ 1 then
    let s := s.look k
    (s.setCore k { (s.core k) with wfi := true, cs := 1 }).setPwr (coreDom k) 1 false false
  else ((s.setCore k { c with wfi := true, sleepAt := s.tick }).rfSet (.pwrStatus (coreDom k)) 2 2 1).sleepSettle k

/-- POWER_REQs whose state is reached complete (R408). -/
def State.powerDone (s : State) : State :=
  (s.psc.jobs.filter fun j => j.opcode == 0x01 && j.phase == 1).foldl (fun (s : State) j =>
    let d : DomainId := Fin.ofNat 296 (j.aux.getD 0 0)
    let st := j.aux.getD 1 0
    if s.rf (.pwrStatus d) 1 0 = st && !(s.trans d) then s.complete j scSuccess st 0 else s) s

/-- WFI (R132): privilege at PL0; with a wake event pending it continues at the next instruction. -/
def execWfi (k : CoreId) (s : State) : Host.Outcome State Fault Refusal :=
  let s' := s.run k 4 .stop fun s =>
    let c := s.core k
    if c.pl = 0 then .exc excPrivilege s
    else .done (s.setCore k { c.adv 4 with wfi := !(s.wakeEvent k) })
  .next (if (s'.core k).wfi && !(s.core k).wfi then (s'.sleepStart k).powerDone else s')

/-! ## Waking (R394, R451–R453, R457) -/

/-- The cluster of a core that wakes is in KS0: its edge is open and its CLU registers are restored (R453). -/
def State.wakeCluster (s : State) (g : ClusterId) : State :=
  let s := (s.cluSaves.get [] g.val).foldl (fun s e => { s with regs := s.regs.put e.1 e.2 }) s
  { (s.setPwr (clusterDom g) 0 false false) with cluSaves := s.cluSaves.set [] g.val [] }

/-- The core's pending wake-ups and halt request act (R394, R506; R69 for CS3). -/
def State.awake (s : State) (k : CoreId) : State :=
  let s := (s.mergeWake k).setPwr (coreDom k) 0 false false
  if s.haltTakeable k then s.halt k else s

/-- Raise a core to CS0: from CS3 through its save slot, whose checksum failure leaves it in CS3 and takes the partition UCD
(R452). A core without a saved state does not wake. -/
def State.raiseCore (s : State) (k : CoreId) : State :=
  let c := s.core k
  let g := clusterOf k
  let up (s : State) : State := if s.rf (.pwrStatus (clusterDom g)) 1 0 = 0 then s else s.wakeCluster g
  if c.held then s
  else if c.cs = 3 then
    match (s.saves.get none k.val : Option SaveSlot) with
    | none => s
    | some x =>
      let s := up s
      if x.crc = x.check then (s.restoreCore k x).awake k
      else (s.bb 0xA002 (some (s.pidOf k)) 0 k.val).ucd (s.pidOf k) 0xA002 k.val 0
  else if c.cs = 0 then s
  else ((up s).setCore k { c with cs := 0, wfi := false }).awake k

/-- CORE_WAKE: a core in CS1–CS3 whose entry is complete wakes on a wake event, or in CS2 and CS3 when its effective target has
become shallower than its state (R132, R451). The cores of a parked partition wake with it (R394). -/
def execCoreWake (k : CoreId) (s : State) : Host.Outcome State Fault Refusal :=
  let c := s.core k
  .next (if c.cs = 0 then (s.sleepSettle k).powerDone
    else if s.trans (coreDom k) || s.partState (s.pidOf k) == 4 then s
    else if s.wakeEvent k || (c.cs ≠ 1 && decide (s.coreTarget k < c.cs.val)) then (s.raiseCore k).powerDone else s)

/-- POWERDOWN_ABANDON: an entry that has not drained in 64 ticks ends; the core stays in CS0 and continues after its WFI; a
POWER_REQ that waits for the state completes with DRAIN_TIMEOUT (R219, R454). -/
def State.abandonCore (s : State) (k : CoreId) : State :=
  let c := s.core k
  let n := c.sq.length + c.dq.length
  let s := ((s.setCore k { c with wfi := false }).rfSet (.pwrStatus (coreDom k)) 2 2 0).rfSet (.pwrStatus (coreDom k)) 4 4 1
  let s := s.bb 0xA001 (some (s.pidOf k)) 0 (min 255 n)
  (s.psc.jobs.filter fun j => j.opcode == 0x01 && j.phase == 1 && j.aux.getD 0 999 == k.val).foldl (fun s j => s.complete j scDrainTimeout 0 0) s

/-- POWERDOWN_ABANDON (R454). -/
def execPowerdownAbandon (k : CoreId) (s : State) : Host.Outcome State Fault Refusal :=
  let c := s.core k
  .next (if c.wfi && c.cs == 0 && s.expired c.sleepAt 64 then s.abandonCore k else s)

/-! ## Cluster states (R259, R453, R457) -/

/-- Every core of a cluster is in CSn or deeper and its own transition has ended. -/
def State.coresAt (s : State) (g : ClusterId) (n : Nat) : Bool :=
  (List.range 6).all fun i =>
    let k : CoreId := Fin.ofNat 216 (6 * g.val + i)
    decide (n ≤ (s.core k).cs.val) && !(s.trans (coreDom k))

/-- The lines that an L2 holds. -/
def State.l2Lines (s : State) (g : ClusterId) : List Nat :=
  s.lines.filterMap fun e => if (e.2.l2.get none g.val).isSome then some e.1 else none

/-- Drain an L2: every line is evicted, dirty data to its home (R256, R259). Lines in a transaction stay. -/
def State.drainL2 (s : State) (g : ClusterId) : State :=
  (s.l2Lines g).foldl (fun s ln => if s.lineQuiet ln then s.evictAt ln g else s) s

/-- The uncore domain of a Facet (R448). -/
def facetDom (f : FacetId) : DomainId := ⟨252 + f.val, by omega⟩

/-- The three clusters of a Facet are unassigned and in KS3 (R462). -/
def State.facetUnused (s : State) (f : FacetId) : Bool :=
  (List.range 3).all fun i =>
    let g : ClusterId := Fin.ofNat 36 (3 * f.val + i)
    (s.owner g).isNone && s.rf (.pwrStatus (clusterDom g)) 1 0 == 3 && !(s.trans (clusterDom g))

/-- The edge of an unused Facet's uncore closes (R457, R462). -/
def State.facetOff (s : State) (f : FacetId) : State :=
  let d := facetDom f
  if s.facetUnused f && s.rf (.pwrStatus d) 1 0 != 3 && !(s.trans d) then s.setPwr d (s.rf (.pwrStatus d) 1 0) true true else s

/-- The uncore of a Facet with an assigned cluster is on (R462). -/
def State.facetsOn (s : State) : State :=
  (List.range 12).foldl (fun (s : State) f =>
    let d := facetDom (Fin.ofNat 12 f)
    if (s.rf (.pwrStatus d) 1 0 == 3 || s.trans d) && !(s.facetUnused (Fin.ofNat 12 f)) then s.setPwr d 0 false false else s) s

/-- CLUSTER_STATE_ENTRY: KS1 by itself, KS2 and KS3 under the cluster's target; before KS3 the L2 drains, the registers of the
CLU block and PWR_PERF are saved, and the edge closes (R453, R457, R259). With an unassigned cluster it is the Facet's uncore that closes,
once the Facet is unused (R462). -/
def execClusterStateEntry (g : ClusterId) (s : State) : Host.Outcome State Fault Refusal :=
  let d := clusterDom g
  let now := s.rf (.pwrStatus d) 1 0
  let t := s.cluTarget g
  .next (if s.trans d then s
    else if (s.owner g).isNone then s.facetOff (Fin.ofNat 12 (g.val / 3))
    else if t = 3 && s.coresAt g 3 && decide (now < 3) then
      let s1 := s.drainL2 g
      if !(s1.l2Lines g).isEmpty then s1
      else
        let regs := (cluRegs g).map fun r => (r.addr, s1.rg r)
        let save := regs ++ [((Reg.pwrPerf d).addr, s1.rg (.pwrPerf d))]
        { (s1.setPwr d now true true) with cluSaves := s1.cluSaves.set [] g.val (save.filter fun e => (s1.regs.any fun x => x.1 == e.1)) }
    else if 2 ≤ t && s.coresAt g 2 && decide (now < 2) then (s.setPwr d 2 false false).powerDone
    else if s.coresAt g 1 && decide (now < 1) then (s.setPwr d 1 false false).powerDone
    else s)

/-- INFLIGHT of a domain: its requests that await a response and the packets accepted for it (R457). -/
def State.inflight (s : State) (d : DomainId) : Nat :=
  if d.val < 216 then
    let c := s.core (Fin.ofNat 216 d.val)
    c.tlbOut.length + c.maintOut.length + c.dq.length + c.miss.length + b2n c.wait.isSome
  else if d.val < 252 then
    let g : BitVec 8 := BitVec.ofNat 8 (d.val - 216)
    (s.msgs.filter fun x => x.2.dst == g || x.2.src == g).length
  else if d.val < 264 then
    let mine (a : BitVec 8) : Bool := decide (a.toNat < 36) && a.toNat / 3 == d.val - 252
    (s.msgs.filter fun x => mine x.2.dst || mine x.2.src).length
  else
    let ps := s.portSt (Fin.ofNat 32 (d.val - 264))
    (s.devs.filter fun a => a.port == some (d.val - 264)).length + (ps.posted.map List.length).sum + (ps.reads.map List.length).sum

/-- DOMAIN_POWER_OFF: a closed domain with nothing in flight loses power (R457, step 4). -/
def execDomainPowerOff (d : DomainId) (s : State) : Host.Outcome State Fault Refusal :=
  .next (if s.rb (.pwrStatus d) 3 && s.trans d && s.inflight d == 0 then (s.setPwr d 3 false true).powerDone else s)

end Sys2Proof.Machine
end

