-- ==== Sys2Proof/Machine/CoreEvents.lean ====
section
/-! DEFINITION. The events of a core and of its L2 that no instruction makes: run-ahead, fills of the L1, asynchronous
exceptions, the store queues and way locks (R143, R149–R153, R155–R168, R208, R209, R216–R220, R253–R258, R395). -/

namespace Sys2Proof.Machine

/-! ## Run-ahead (R143, R149–R153) -/

/-- CORE_EXEC_CTL takes a value; clearing RA_EN ends run-ahead (R143, R153). -/
def State.execCtlWrite (s : State) (k : CoreId) (v : Word) : State :=
  let s := s.rgWrite (.coreExecCtl k) false v
  if s.rb (.coreExecCtl k) 0 then s else s.raExit k

/-- EXEC_CTL_WRITE (R143, R153). -/
def execExecCtlWrite (k : CoreId) (v : Word) (s : State) : Host.Outcome State Fault Refusal := .next (s.execCtlWrite k v)

/-- RUN_AHEAD_ENTRY: the load at the pc, of the line and to the destination that the command names, waits for a line that missed the L2, and
none of the conditions of R149 fails; the checkpoint is taken and the load's destination is INV (R149, R150). That 640 instructions are in flight behind it is what the command itself says: the
model holds no instructions before they retire (log 81). -/
def execRunAheadEntry (k : CoreId) (ln : Nat) (dst : RaDest) (w32 : Bool) (s : State) : Host.Outcome State Fault Refusal :=
  let c := s.core k
  .next (match c.block with
  | none => s
  | some b =>
    if !(s.runs k) || c.ra.isSome || !(s.rb (.coreExecCtl k) 0) || c.stepping || s.asyncPending k || b.pc != c.pc || !(c.blocked b) ||
      b.ln != ln || b.dst != dst || (b.len == 4) != w32 then s
    else
      let r : RunAhead := {
        pc := c.pc, d := c.d, a := c.a, sp := c.sp, q := c.q, fpcsr := c.rsys Srn.fpcsr, resv := c.resv, hist := c.hist,
        ras := c.ras, vpred := c.vpred, block := b, invD := [], invA := [], invQ := [], count := 0, stop := false, sb := [] }
      let r := (raNames b.dst).foldl (fun r n => r.mark true n) r
      (s.setCore k { (c.adv b.len) with ra := some r }).countHere k 0x06)

/-- RUN_AHEAD_LIMIT: with 2,048 pseudo-retired instructions the run-ahead stops and waits for its exit (R152). -/
def execRunAheadLimit (k : CoreId) (s : State) : Host.Outcome State Fault Refusal :=
  let c := s.core k
  .next (match c.ra with
  | some r => if 2048 ≤ r.count then s.setCore k { c with ra := some { r with stop := true } } else s
  | none => s)

/-- Run-ahead ends if an event of R153 has come. -/
def State.raCheck (s : State) (k : CoreId) : State :=
  match (s.core k).ra with
  | some r => if s.raOver k r then s.raExit k else s
  | none => s

/-- RUN_AHEAD_EXIT (R153). -/
def execRunAheadExit (k : CoreId) (s : State) : Host.Outcome State Fault Refusal := .next (s.raCheck k)

/-! ## The L1 caches (R164–R168) -/

/-- A line lies in a granule of the partition that the world may read (R51, R164). -/
def State.mayFill (s : State) (p : Pid) (inner : Bool) (ln : Nat) : Bool :=
  match s.gmapDa (s.bank 2) (ln / 2 ^ 24) with
  | none => false
  | some v => fld v 7 4 == p.val && (inner || !(bit v 1))

/-- A line fills the L1 instruction cache; the line that it displaces is dropped (R164, which gives the cache no policy): the one that the command
names, where it lies in the set, otherwise the one that a tree names as in the data cache (log 79). -/
def Core.l1iEnter (c : Core) (l : L1Line) (evict : Option Nat) : Core :=
  if c.l1i.any (·.ln == l.ln) then c
  else
    let key := l1iSet l.ln
    let (w, out) := match l1Way c.l1i l1iSet 2 (c.l1iLru.get 0 key) l.ln with
      | (w, some o) =>
        match c.l1i.find? fun x => l1iSet x.ln == key && evict == some x.ln with
        | some x => (x.way, some x)
        | none => (w, some o)
      | (w, none) => (w, none)
    let rest := match out with | some o => c.l1i.filter (· != o) | none => c.l1i
    { c with l1i := { l with way := w } :: rest, l1iLru := c.l1iLru.set 0 key (plruUse w 2 1 (c.l1iLru.get 0 key)) }

/-- The miss buffer that a fill command goes on with: the line's, or a new one for a fetch, or for a prefetch that the core makes by itself. A
stream prefetch needs the prefetcher enabled and the page trained in the core's world; each needs a line that the world may read, a free
buffer and an L2 that is enabled (R142, R145, R148, R257). -/
def State.fillBuf (s : State) (k : CoreId) (ln : Nat) (stream instr : Bool) : Option MissBuf :=
  let c := s.core k
  match c.miss.find? fun b => b.ln == ln && b.instr == instr with
  | some b => some b
  | none =>
    let here := if instr then c.l1i.any (·.ln == ln) else c.holds ln true
    let trained := !stream || (s.rb (.coreExecCtl k) 2 && c.spf.contains (ln / 64, c.inner))
    if here || !trained || s.l2State (clusterOf k) != 0 || decide (48 ≤ c.miss.length) || !(s.mayFill (s.pidOf k) c.inner ln) then none
    else some { ln := ln, upper := false, got := 0, write := false, instr := instr, stream := stream, ra := c.ra.isSome, inner := c.inner, armed := s.tick }

/-- The units of a buffer after one more has arrived; a line whose both units are there and which has its way in the L2 fills the L1, and the
buffer is free (R165, R167, R239). -/
def State.unitHere (s : State) (k : CoreId) (b : MissBuf) (evict : Option Nat) : State :=
  let c := s.core k
  let b' := { b with got := min 2 (b.got + 1) }
  let rest := c.miss.filter fun x => !(x.ln == b.ln && x.instr == b.instr)
  let line : L1Line := { ln := b.ln, way := 0, inner := s.lineInner b.ln, stream := b.stream, dirty := false }
  let placed := match s.copy b.ln (clusterOf k) with | some x => x.way.isSome | none => false
  let c1 : Core :=
    if b'.got < 2 || !placed then { c with miss := rest ++ [b'] }
    else if b.instr then { c with miss := rest }.l1iEnter line evict
    else if c.holds b.ln true then { c with miss := rest }
    else { c with miss := rest }.l1Enter line
  s.setCore k { c1 with block := if c.block.any (c1.blocked ·) then c.block else none }

/-- L1_FILL: one data unit of a miss arrives: the half with the lowest requested byte first, from the L2, which fetches the line if it does not
hold it (R165, R240). The blocking load's bytes end run-ahead (R153). A draining L2 keeps its misses waiting, a drained one serves them
otherwise, and their buffers are free (R257, R258). What befell the L2's data before is met where it is read (R260). -/
def execL1Fill (k : CoreId) (ln : Nat) (stream instr : Bool) (note : UnitNote) (s : State) : Host.Outcome State Fault Refusal :=
  let s := s.upsetL2 ln (clusterOf k) note.err
  let c := s.core k
  let p := s.pidOf k
  .next (if c.held || c.cs != 0 || s.fatal then s
    else if s.l2State (clusterOf k) = 2 then (s.setCore k { c with miss := c.miss.filter (·.ln != ln) }).raCheck k
    else match s.fillBuf k ln stream instr with
      | none => s
      | some b =>
        if s.l2State (clusterOf k) != 0 then s else
        match (if b.write then s.fetchOwned k ln p b.inner else s.fetchShared k ln p b.inner) with
        | (s, false) => s.homeWake (homeOf ln)
        | (s, true) => ((s.unitHere k b note.evict).raCheck k).settleSnoops)

/-! ## Asynchronous exceptions (R155–R158, R217, R395) -/

/-- The core can take an asynchronous event at its instruction boundary. -/
def State.atBoundary (s : State) (k : CoreId) : Bool := s.runs k && !(s.haltTakeable k)

/-- INTERRUPT_TAKEN: the group that R156 puts first, CAUSE 0x0F (R155, R158, R161, R162). -/
def execInterruptTaken (k : CoreId) (s : State) : Host.Outcome State Fault Refusal :=
  .next (if !(s.atBoundary k) || (s.core k).abortTakeable then s else
    match (s.core k).intChoice with
    | none => s
    | some grp =>
      let s := s.raExit k
      let s := ((s.smplClose k (s.core k).pc 2).resvEnds k).worldEnds k ((s.core k).intLevel grp)
      let c := s.core k
      ((s.setCore k (c.enter (c.intLevel grp) c.pc (syndrome 0x0F (b2n grp) false false false) 0 1)).count k 0x1C 1 c.pl c.inner).settleSnoops)

/-- IMPRECISE_ABORT_TAKEN: the pending abort is taken with CAUSE 0x0E (R155, R158, R162, R217). -/
def execImpreciseAbortTaken (k : CoreId) (s : State) : Host.Outcome State Fault Refusal :=
  .next (if !(s.atBoundary k) || !(s.core k).abortTakeable then s else
    match (s.core k).abort with
    | none => s
    | some ab =>
      let s := s.raExit k
      let s := ((s.smplClose k (s.core k).pc 2).resvEnds k).worldEnds k (s.core k).abortLevel
      let c := s.core k
      let e := c.enter c.abortLevel c.pc (syndrome 0x0E (ab.status.toNat + b2n ab.write * 2 ^ 8) false true false)
        (BitVec.ofNat 64 (ab.ppa / 4096 * 4096)) 2
      ((s.setCore k { e with abort := none }).count k 0x1B 1 c.pl c.inner).settleSnoops)

/-- IMPRECISE_ABORT_DELIVERY (R217). -/
def execImpreciseAbortDelivery (k : CoreId) (ab : Abort) (s : State) : Host.Outcome State Fault Refusal :=
  .next (s.abortArrives k ab false)

/-- CORE_INT_ACK_O or _I of a core (R395): the value read by a world, and the state. -/
def State.intAck (s : State) (k : CoreId) (rdr grp : World) : Nat × State :=
  let c := s.core k
  match grp, rdr with
  | .inner, .outer => (0x80000000, s.bb 0x8043 (some (s.pidOf k)) 0xFF 0)
  | .inner, .inner =>
    match c.pendI with
    | [] => (0x80000000, s)
    | i :: t => (i, s.setCore k { c with pendI := t })
  | .outer, _ =>
    match c.pendO with
    | [] => (0x80000000, s)
    | i :: t => (i, s.setCore k { c with pendO := t })

/-- INT_ACK_READ (R395); the value read is delivered in `reply`. -/
def execIntAckRead (k : CoreId) (rdr grp : World) (s : State) : Host.Outcome State Fault Refusal :=
  let (v, s) := s.intAck k rdr grp
  .next { s with reply := natBytes v 4 }

/-! ## The store queues (R204, R208, R209, R212, R219, R257, R258) -/

/-- One span of a store is performed (R204, R240, R247, R257, R258): in the L1 with ownership, or through the home for non-cacheable memory and
while the L2 is drained. DC.ZERO needs no data: UPG with ZERO, and the line enters the L1 whole (R252). -/
def drainSpan (k : CoreId) (e : SqEnt) (ln off n v : Nat) (s : State) : Res Unit :=
  let p := s.pidOf k
  let g := clusterOf k
  if !e.cacheable || s.l2State g = 2 then
    if !(s.lineQuiet ln) || s.snoopDeferred ln none || s.reqHold g then .wait s
    else .ok () (s.writeHome ln p (some k.val) (linePut 0 off n v) (byteMask off n) false)
  else if e.zero && s.l2State g == 0 then
    match s.fetchZero k ln p e.inner with
    | (s, false) => .wait s
    | (s, true) =>
      let s := s.putOwned ln k off n v
      let c := s.core k
      if c.holds ln true then .ok () (s.l1Use k ln true false true true)
      else .ok () (s.setCore k (c.l1Enter { ln := ln, way := 0, inner := s.lineInner ln, stream := false, dirty := true }))
  else (ownLine k e.inner ln off s).bind fun _ s => .ok () ((s.putOwned ln k off n v).l1Use k ln e.inner false true true)

/-- The spans of a store in address order. -/
def drainSpans (k : CoreId) (e : SqEnt) : List (Nat × Nat × Nat) → Nat → State → Res Unit
  | [], _, s => .ok () s
  | (ln, off, n) :: t, v, s => (drainSpan k e ln off n (v % 2 ^ (8 * n)) s).bind fun _ s => drainSpans k e t (v / 2 ^ (8 * n)) s

/-- The lines of a store that spans two are both there before either part is performed, so that the entry leaves whole (R208). -/
def ownSpans (k : CoreId) (e : SqEnt) : List (Nat × Nat × Nat) → State → Res Unit
  | [], s => .ok () s
  | (ln, off, _) :: t, s =>
    let g := clusterOf k
    let first : Res Unit :=
      if !e.cacheable || s.l2State g = 2 then (if s.lineQuiet ln && !(s.snoopDeferred ln none) && !(s.reqHold g) then .ok () s else .wait s)
      else if e.zero && s.l2State g == 0 then .ok () s
      else (ownLine k e.inner ln off s).bind fun _ s => .ok () s
    first.bind fun _ s => ownSpans k e t s

/-- The oldest entry leaves the store queue; a refused one is an imprecise abort (R51, R163, R208). -/
def State.storeDrain (s : State) (k : CoreId) : State :=
  let c := s.core k
  match c.sq with
  | [] => s
  | e :: rest =>
    let pop (s : State) : State := (s.setCore k { (s.core k) with sq := rest }).tlbPop k false
    let refuse (s : State) (st : Nat) : State :=
      ((pop s).abortArrives k { status := BitVec.ofNat 8 st, write := true, ppa := e.ppa / 4096 * 4096 } false).sleepSettle k
    match s.firewall k e.ppa e.inner false with
    | .inr (st, s) => refuse s st
    | .inl da =>
      let sp := spans da e.size
      if s.refused.contains (s.pidOf k).val then refuse s stUnavailable
      else match (ownSpans k e sp s).bind fun _ s => drainSpans k e sp (if e.zero then 0 else e.data.toNat) s with
        | .ok _ s => ((pop s).settleSnoops).sleepSettle k
        | .wait s => s
        | .exc _ s => s

/-- STORE_QUEUE_DRAIN (R208). -/
def execStoreQueueDrain (k : CoreId) (s : State) : Host.Outcome State Fault Refusal :=
  .next (if (s.core k).held || s.fatal then s else s.storeDrain k)

/-- The message of a device store (R209, R266, R270). -/
def dwrMsg (s : State) (k : CoreId) (e : DqEnt) : Msg :=
  { drdMsg s k e.inner e.ppa e.size with data := linePut 0 (e.ppa % 64) e.size e.data.toNat }

/-- Mark the first device store that is not issued. -/
def issueFirst : List DqEnt → List DqEnt
  | [] => []
  | e :: t => if e.issued then e :: issueFirst t else { e with issued := true } :: t

/-- The oldest device store that is not issued goes to the I/O bridge (R208, R209). -/
def State.deviceIssue (s : State) (k : CoreId) : State :=
  let c := s.core k
  match c.dq.find? fun e => !e.issued with
  | none => s
  | some e => (s.setCore k { c with dq := issueFirst c.dq }).send .dwr (dwrMsg s k e)

/-- DEVICE_STORE_ISSUE (R208, R209). -/
def execDeviceStoreIssue (k : CoreId) (s : State) : Host.Outcome State Fault Refusal :=
  .next (if (s.core k).held || s.fatal then s else s.deviceIssue k)

/-- RESERVATION_DEFERRAL_END: 256 core cycles after the LDRES the deferred snoops are answered (R220). -/
def execReservationDeferralEnd (k : CoreId) (s : State) : Host.Outcome State Fault Refusal :=
  let c := s.core k
  .next (match c.resv with
  | some r =>
    if 256 * 20 ≤ (s.now - r.since) * s.coreFreq k then (s.setCore k { c with resv := some { r with defer := false } }).settleSnoops else s
  | none => s)

/-! ## Way locks and the disabling of an L2 (R253–R258) -/

/-- A write to CLU_L2_LOCK: dropped whole with event 0x7052 when more than 12 ways would be locked or core 6 or 7 is named (R255). -/
def State.l2LockWrite (s : State) (g : ClusterId) (v : Word) : State :=
  let locked := (List.range 16).filter fun w => bit v (4 * w + 3)
  if 12 < locked.length ∨ (List.range 16).any (fun w => decide (6 ≤ fld v (4 * w + 2) (4 * w))) then
    (s.rfSet (.cluL2Ctl g) 4 4 1).bb 0x7052 (s.owner g) g.val 0
  else s.rgWrite (.cluL2Lock g) false v

/-- L2_LOCK_WRITE (R255). -/
def execL2LockWrite (g : ClusterId) (v : Word) (s : State) : Host.Outcome State Fault Refusal := .next (s.l2LockWrite g v)

/-- EN is cleared, the L2 drains, and every reservation of the cluster is cleared (R69, R256). -/
def State.l2Disable (s : State) (g : ClusterId) : State :=
  let s := s.rfSet (.cluL2Ctl g) 0 0 0
  if s.l2State g = 0 then ((s.rfSet (.cluL2Ctl g) 2 1 1).clearResv fun k _ => k / 6 == g.val).settleSnoops else s

/-- L2_DISABLE (R256). -/
def execL2Disable (g : ClusterId) (s : State) : Host.Outcome State Fault Refusal := .next (s.l2Disable g)

/-- EN is set: at once when drained; during the drain it takes effect when the drain has finished (R256). -/
def State.l2Enable (s : State) (g : ClusterId) : State :=
  let s := s.rfSet (.cluL2Ctl g) 0 0 1
  if s.l2State g = 2 then s.rfSet (.cluL2Ctl g) 2 1 0 else s

/-- L2_ENABLE (R256). -/
def execL2Enable (g : ClusterId) (s : State) : Host.Outcome State Fault Refusal := .next (s.l2Enable g)

/-- L2_DRAINED: every line is written back and invalidated; when none remains the L2 is DRAINED, or ENABLED when EN was set
meanwhile (R256, R257). -/
def execL2Drained (g : ClusterId) (s : State) : Host.Outcome State Fault Refusal :=
  .next (if s.l2State g != 1 then s else
    let s := s.drainL2 g
    if !(s.l2Lines g).isEmpty then s
    else s.rfSet (.cluL2Ctl g) 2 1 (if s.rb (.cluL2Ctl g) 0 then 0 else 2))

end Sys2Proof.Machine
end

