-- ==== Sys2Proof/Machine/Net.lean ====
section
/-! DEFINITION. The Net: forwarding, arbitration, credits, slots, audits and the reconfiguration of routers (R266–R302, R481). -/

namespace Sys2Proof.Machine

/-! ## Routers -/

def rtKey (rt : RouterId) : Nat := 144 * rt.plane.val + rt.node.val
def State.router (s : State) (rt : RouterId) : Router := s.net.routers.get Router.empty (rtKey rt)
def State.setRouter (s : State) (rt : RouterId) (r : Router) : State :=
  { s with net := { s.net with routers := s.net.routers.set Router.empty (rtKey rt) r } }

/-- Log an event of the Net: the plane in INST (R487). -/
def State.bbNet (s : State) (code : Nat) (pid : Option Pid) (rt : RouterId) (arg : Nat) : State := s.bb code pid rt.plane.val arg

/-- The units that a credited virtual network's buffer holds (R276): REQ 8, SNP 4, RSP 4, DAT 12, MGT 2. -/
def netBuf (vn : Nat) : Nat := match vn with | 0 => 8 | 1 => 4 | 2 => 4 | 3 => 12 | 5 => 2 | _ => 0

def vnNum : Vn → Nat
  | .req => 0 | .snp => 1 | .rsp => 2 | .dat => 3 | .gtd => 4 | .mgt => 5

/-- The neighbour in a direction, 0 N, 1 E, 2 S, 3 W. -/
def neighbour (rt : RouterId) (o : OutPort) : Option RouterId :=
  let x := rt.node.val % 12
  let y := rt.node.val / 12
  match o.val with
  | 0 => if 0 < y then some { rt with node := Fin.ofNat 144 (12 * (y - 1) + x) } else none
  | 1 => if x < 11 then some { rt with node := Fin.ofNat 144 (12 * y + x + 1) } else none
  | 2 => if y < 11 then some { rt with node := Fin.ofNat 144 (12 * (y + 1) + x) } else none
  | 3 => if 0 < x then some { rt with node := Fin.ofNat 144 (12 * y + x - 1) } else none
  | _ => none

/-- The output that a header's next turn code names at a router it entered by a port; `none` for the reserved code and the reserved
LPORT (R268, R272). -/
def outOf (p : NetPkt) : Option OutPort :=
  let h := p.hdr
  let i := hHop h
  if hRlen h ≤ i then (if hLport h = 3 then none else some (Fin.ofNat 7 (4 + hLport h)))
  else
    let code := hRoute h / 4 ^ i % 4
    if i = 0 then some (Fin.ofNat 7 code)
    else
      let heading := (p.inp.val + 2) % 4
      match code with
      | 0 => some (Fin.ofNat 7 heading)
      | 1 => some (Fin.ofNat 7 ((heading + 3) % 4))
      | 2 => some (Fin.ofNat 7 ((heading + 1) % 4))
      | _ => none

/-- The units of a packet. -/
def NetPkt.units (p : NetPkt) : Nat := 1 + hDu p.hdr

/-- Packets in a router, or committed to its outputs, of a route bank (NET_INFLIGHT). -/
def State.inflAdd (s : State) (rt : RouterId) (h : BitVec 256) : State :=
  let lo := 16 * hRb h
  let r : Reg := .netInflight rt.plane rt.node
  s.rfSet r (lo + 15) lo (s.rf r (lo + 15) lo + 1)

def State.inflSub (s : State) (rt : RouterId) (h : BitVec 256) : State :=
  let lo := 16 * hRb h
  let r : Reg := .netInflight rt.plane rt.node
  s.rfSet r (lo + 15) lo (s.rf r (lo + 15) lo - 1)

/-! ## Units and buffers (R276, R277, R280, R300, R302) -/

/-- The port of a neighbour that faces an output, and the reverse. -/
def facing (o : OutPort) : OutPort := Fin.ofNat 7 ((o.val + 2) % 4)

/-- The units on the link into a port (R300). -/
def Router.link (r : Router) (i : OutPort) : List WUnit := r.wire.get [] i.val

/-- The demoted units of one virtual network in the reserved units of an input, and those of every network (R277, R302). -/
def Router.demoUnits (r : Router) (i : OutPort) (vn : Option Nat) : Nat :=
  (r.queue.filter fun p => p.demo && p.inp == i && (vn.isNone || vn == some (hVn p.hdr))).foldl (fun n p => n + p.units) 0

/-- The units of demoted packets that wait in the extra GTD units of an input, oldest first: a packet waits there once the packets of
its own class up to it exceed the 3 reserved units (R277, R302). -/
def demoExtra (i : OutPort) : List NetPkt → Tbl Nat → Nat
  | [], _ => 0
  | p :: t, used =>
    if p.inp != i || !p.demo then demoExtra i t used
    else
      let n := used.get 0 (hVn p.hdr) + p.units
      (if 3 < n then p.units else 0) + demoExtra i t (used.set 0 (hVn p.hdr) n)

/-- A demoted packet finds room at an input: in the 3 reserved units of its class, or in the 3 extra units of the GTD buffer (R302). -/
def Router.demoRoom (r : Router) (q : NetPkt) : Bool :=
  decide (r.demoUnits q.inp (some (hVn q.hdr)) + q.units ≤ 3) || decide (demoExtra q.inp r.queue [] + q.units ≤ 3)

/-- The units of a virtual network in an input's credited buffer: those of waiting packets, and those of granted packets still to pass. -/
def Router.occupied (r : Router) (i : OutPort) (vn : Nat) : Nat :=
  (r.queue.filter fun p => !p.demo && p.inp == i && hVn p.hdr == vn).foldl (fun n p => n + 1 + p.data.length) 0 +
  (r.grants.filterMap fun e => e.2).foldl (fun n (g : Grant) =>
    if !g.pkt.demo && g.pkt.inp == i && hVn g.pkt.hdr == vn then n + (1 + g.pkt.data.length - g.sent) else n) 0

/-- The head packets of a router: the first of each input port and virtual network. -/
def headPkts : List NetPkt → List (Nat × Nat) → List NetPkt
  | [], _ => []
  | p :: t, seen =>
    let key := (p.inp.val, hVn p.hdr)
    if seen.contains key then headPkts t seen else p :: headPkts t (key :: seen)

/-- A packet has the credits for its header and all its data units, its network takes new headers on the output (R277, R481), and the
link's retry buffer of 8 units has room for them (R300). -/
def State.mayGo (s : State) (rt : RouterId) (o : OutPort) (p : NetPkt) : Bool :=
  let r := s.router rt
  let vn := hVn p.hdr
  let key := 8 * o.val + vn
  outOf p == some o && !(r.hold.contains key) && decide (r.away.get 0 key + p.units ≤ netBuf vn) &&
    (match neighbour rt o with
     | some nx => decide (((s.router nx).link (facing o)).length + p.units ≤ 8)
     | none => true)

/-- The class of a partition at a router's outputs (NET_ARB_CLASS of the active ARB bank). -/
def State.netClass (s : State) (rt : RouterId) (p : Pid) : Nat :=
  let r : Reg := if s.bank 3 then .netArbClassB rt.plane rt.node else .netArbClassA rt.plane rt.node
  s.rf r (2 * p.val + 1) (2 * p.val)

/-- The class of a virtual network: RSP 2, DAT 2, SNP 1, REQ 0; MGT goes before the arbitration (R278, R292). -/
def vnClass (vn : Nat) : Nat := match vn with | 2 => 2 | 3 => 2 | 1 => 1 | _ => 0

/-- The Facet at whose edge port L0 a router port lies on its plane (R264). -/
def edgeFacet (rt : RouterId) (port : Nat) : Option Nat :=
  let x := rt.node.val % 12
  let y := rt.node.val / 12
  if port ≠ 4 ∨ y % 2 ≠ rt.plane.val % 2 then none
  else if x = 0 then some (y / 2) else if x = 11 then some (6 + y / 2) else none

/-- Units of a packet that pass a Facet's edge port are counted; PRIV and MGT count nowhere (R514). -/
def State.edgeCount (s : State) (rt : RouterId) (port : Nat) (p : NetPkt) (toFacet : Bool) : State :=
  match edgeFacet rt port with
  | some f => if hPriv p.hdr || hVn p.hdr == 5 then s else s.portCount 2 (hPid p.hdr) (12 * f + rt.plane.val) (b2n toFacet) p.units
  | none => s

/-- One unit leaves an input's credited buffer: its credit returns on the sideband of a mesh link, or to the local agent (R277). -/
def State.freed (s : State) (rt : RouterId) (i : OutPort) (vn n : Nat) : State :=
  match neighbour rt i with
  | some up =>
    let r := s.router up
    let key := 8 * (facing i).val + vn
    s.setRouter up { r with ret := r.ret.set 0 key (r.ret.get 0 key + n) }
  | none =>
    let r := s.router rt
    let key := 8 * i.val + vn
    s.setRouter rt { r with local_ := r.local_.set 0 key (r.local_.get 0 key - n) }

/-- The landing-credit key of a GTD path. -/
def landKey (p src dst : Nat) : Nat := (p * 256 + src) * 256 + dst

/-- The message in flight that a header stands for. -/
def State.msgOf (s : State) (h : BitVec 256) : Option (MsgKind × Msg) :=
  s.msgs.find? fun x => msgCode x.1 == hMsg h && x.2.pid == hPid h && x.2.src.toNat == hSrc h && x.2.dst.toNat == hDst h &&
      x.2.trk.toNat == hTrk h && x.2.ln % 2 ^ 46 == hAddr h

/-- Landing credits of a path that are no longer away. -/
def State.landBack (s : State) (k n : Nat) : State :=
  { s with net := { s.net with landing := s.net.landing.set 0 k (s.net.landing.get 0 k - n) } }

/-- A packet that the Net drops takes its message with it; the watchdog of its transaction finds the loss (R271). Landing credits that it
held are returned (R482). -/
def State.lose (s : State) (h : BitVec 256) : State :=
  match s.msgOf h with
  | none => s
  | some x =>
    let s := { s with msgs := s.msgs.erase x, net := { s.net with flying := s.net.flying.erase x } }
    match s.net.landQ.find? fun q => q.kind == x.1 && q.msg == x.2 with
    | some q => ({ s with net := { s.net with landQ := s.net.landQ.erase q } }).landBack (landKey q.plane x.2.src.toNat x.2.dst.toNat) q.units
    | none => s

/-- A packet has left through a local port: a Facet's waits for its strand (R306); any other reaches its agent, a GTD request in the
landing buffer (R287). -/
def State.eject (s : State) (rt : RouterId) (o : OutPort) (p : NetPkt) : State :=
  match edgeFacet rt o.val with
  | some f =>
    let k := (12 * f + rt.plane.val) * 2 + 1
    { s with chord := { s.chord with tx := s.chord.tx.set [] k (s.chord.tx.get [] k ++ [p]) } }
  | none =>
    match s.msgOf p.hdr with
    | none => s
    | some x =>
      let s := { s with net := { s.net with flying := s.net.flying.erase x } }
      { s with net := { s.net with landQ := s.net.landQ.map fun q => if q.kind == x.1 && q.msg == x.2 then { q with landed := true } else q } }

/-- One unit passes an output: onto the link to the next router. -/
def State.putWire (s : State) (rt : RouterId) (o : OutPort) (w : WUnit) : State :=
  match neighbour rt o with
  | some nx =>
    let r := s.router nx
    s.setRouter nx { r with wire := r.wire.set [] (facing o).val (r.link (facing o) ++ [w]) }
  | none => s

/-- The header with one more link taken (R272). -/
def hNext (h : BitVec 256) : BitVec 256 := hset h 27 23 (hHop h + 1)

/-- Unit `n` of a packet takes its credit on an output and passes it; its place in the input's buffer is free (R277). -/
def State.sendUnit (s : State) (rt : RouterId) (o : OutPort) (p : NetPkt) (n : Nat) : State :=
  let vn := hVn p.hdr
  let key := 8 * o.val + vn
  let r := s.router rt
  let s := s.setRouter rt { r with away := r.away.set 0 key (r.away.get 0 key + 1) }
  let u : BitVec 256 × Bool := if n = 0 then (hNext p.hdr, false) else p.data.getD (n - 1) (0, false)
  let s := s.putWire rt o { vn := vn, head := n == 0, data := u.1, poison := u.2, demo := false, due := none }
  if p.demo then s else s.freed rt p.inp vn 1

/-- The last unit of a packet has passed an output: the router no longer holds it; at a local port it has left the Net, and the
agent's buffer returns the credits (R277, R296, R297). -/
def State.passed (s : State) (rt : RouterId) (o : OutPort) (p : NetPkt) : State :=
  let s := ((s.inflSub rt p.hdr).edgeCount rt o.val p true).activity 0 (hPriv p.hdr || hVn p.hdr == 5) (hPid p.hdr) p.units
  if (neighbour rt o).isSome then s
  else
    let r := s.router rt
    let key := 8 * o.val + hVn p.hdr
    (s.setRouter rt { r with ret := r.ret.set 0 key (r.ret.get 0 key + p.units) }).eject rt o p

/-! ## An output of a router (R277, R278, R290, R296) -/

/-- The next unit of the packet that holds an output passes, if it is there; with the last one the grant ends (R278, R296). -/
def State.grantStep (s : State) (rt : RouterId) (o : OutPort) (g : Grant) : State :=
  if g.pkt.data.length < g.sent then s
  else
    let s := s.sendUnit rt o g.pkt g.sent
    let r := s.router rt
    if g.sent + 1 < g.pkt.units then s.setRouter rt { r with grants := r.grants.set none o.val (some { g with sent := g.sent + 1 }) }
    else (s.setRouter rt { r with grants := r.grants.set none o.val none }).passed rt o g.pkt

/-- Grant a packet the output: its header passes (R278). -/
def State.grant (s : State) (rt : RouterId) (o : OutPort) (p : NetPkt) : State :=
  let r := s.router rt
  (s.setRouter rt { r with queue := r.queue.erase p }).grantStep rt o { pkt := p, sent := 0, since := s.tick }

/-- An MGT packet passes with all its units, ahead of the packet that holds the output (R278). -/
def State.passMgt (s : State) (rt : RouterId) (o : OutPort) (p : NetPkt) : State :=
  let r := s.router rt
  let s := s.setRouter rt { r with queue := r.queue.erase p }
  ((List.range p.units).foldl (fun (s : State) n => s.sendUnit rt o p n) s).passed rt o p

/-- Arbitrate for an output: first the virtual network, then the input within it (R278, R290, R292). A frozen arbiter makes no new
grant (R294). -/
def State.arbitrate (s : State) (rt : RouterId) (o : OutPort) : State :=
  let r := s.router rt
  if s.rb (.netArbCfg rt.plane rt.node) 8 then s else
  let ready := (headPkts r.queue []).filter fun p => s.mayGo rt o p && hVn p.hdr != 5
  let age := s.rf (.netArbCfg rt.plane rt.node) 7 0
  let vns := (List.range 4).filter fun v => ready.any fun p => hVn p.hdr == v
  match (r.vnArb.get Arb.empty o.val).pick age (vns.map fun v => (v, vnClass v)) with
  | none => s
  | some (vn, a1) =>
    let ins := ready.filter fun p => hVn p.hdr == vn
    let key := 8 * o.val + vn
    match (r.inArb.get Arb.empty key).pick age (ins.map fun p => (p.inp.val, s.netClass rt (hPid p.hdr))) with
    | none => s
    | some (i, a2) =>
      let s := s.setRouter rt { r with vnArb := r.vnArb.set Arb.empty o.val a1, inArb := r.inArb.set Arb.empty key a2 }
      match ins.find? fun p => p.inp.val == i with
      | some p => s.grant rt o p
      | none => s

/-- One cycle of an output that no GTD unit takes: an MGT unit, the next unit of the packet that holds the output, or the header of a new
packet (R278). -/
def State.serve (s : State) (rt : RouterId) (o : OutPort) : State :=
  let r := s.router rt
  match (headPkts r.queue []).find? fun p => hVn p.hdr == 5 && decide (p.units ≤ 1 + p.data.length) && s.mayGo rt o p with
  | some p => s.passMgt rt o p
  | none =>
    match (r.grants.get none o.val : Option Grant) with
    | some g => s.grantStep rt o g
    | none => s.arbitrate rt o

/-! ## Arrival at a router (R271, R272, R284, R299–R302) -/

/-- The slot entry of an output for a slot, by bank (R285). -/
def State.slotEntry (s : State) (rt : RouterId) (bankB : Bool) (o : OutPort) (slot : Nat) : Nat :=
  let q : Fin 32 := Fin.ofNat 32 (slot / 4)
  let r : Reg := if bankB then .netSlotB rt.plane rt.node o q else .netSlotA rt.plane rt.node o q
  s.rf r (8 * (slot % 4) + 7) (8 * (slot % 4))

/-- An entry names an input port and a partition. -/
def slotNames (e inp : Nat) (p : Pid) : Bool := e % 2 == 1 && e / 2 % 8 == inp && e / 16 == p.val

/-- A packet waits at a router for its output; NET_INFLIGHT counts it (R297). -/
def State.enqueue (s : State) (rt : RouterId) (p : NetPkt) : State :=
  let r := s.router rt
  (s.setRouter rt { r with queue := r.queue ++ [p] }).inflAdd rt p.hdr

/-- A GTD packet is demoted: its own class, a new HCHK, the count at the output that feeds the receiver (at the strand, where its Chord
endpoint demotes a unit that a replay has delayed, R310), and event 0x3022. It crosses to the next router, whose reserved units it
enters under credits; at the last router it waits there itself (R302). -/
def State.demote (s : State) (rt : RouterId) (p : NetPkt) (o : OutPort) (late : Bool) : State :=
  let vn := vnOfMsg (hMsg p.hdr)
  let h := hSeal (hset p.hdr 2 0 vn)
  let pid := hPid h
  let s := match neighbour rt p.inp with
    | some up => s.rfInc (.netLinkErr up.plane up.node (facing p.inp)) 47 32 1
    | none =>
      match edgeFacet rt p.inp.val with
      | some f =>
        if late then
          let g : FacetId := Fin.ofNat 12 f
          s.rfInc (.chdStrandErr g (Fin.ofNat 6 (s.rf (.fctChdRemap g) (3 * rt.plane.val + 2) (3 * rt.plane.val)))) 63 48 1
        else s
      | none => s
  let s := s.bbNet 0x3022 (some pid) rt rt.node.val
  let r := s.router rt
  let s := s.setRouter rt { r with gtd := r.gtd.set none p.inp.val (if hDu h = 0 then none else
    some { out := o, pkt := { p with hdr := h }, left := hDu h, demo := true }) }
  if (neighbour rt o).isSome then
    s.putWire rt o { vn := vn, head := true, data := hNext h, poison := false, demo := true, due := none }
  else s.enqueue rt { p with hdr := h, demo := true, due := none }

/-- A GTD header is due at its output at a Net time (R284): it takes its cycle where the output's entry for that slot names its input and
PID and it is not late, and is demoted otherwise (R302). -/
def State.gtdHead (s : State) (rt : RouterId) (p : NetPkt) (o : OutPort) (due : Nat) : State :=
  let late := decide (due < s.now)
  let h := p.hdr
  if !late && slotNames (s.slotEntry rt (hSb h == 1) o (due / 16 % 125)) p.inp.val (hPid h) then
    let r := s.router rt
    let s := s.setRouter rt { r with gtd := r.gtd.set none p.inp.val (if hDu h = 0 then none else
      some { out := o, pkt := p, left := hDu h, demo := false }) }
    let s := (s.edgeCount rt o.val p true).activity 0 (hPriv p.hdr || hVn p.hdr == 5) (hPid p.hdr) p.units
    if (neighbour rt o).isSome then s.putWire rt o { vn := 4, head := true, data := hNext h, poison := false, demo := false, due := some due }
    else if hDu h = 0 then s.eject rt o p else s
  else s.demote rt p o late

/-- A GTD data unit follows its header (R284, R302). -/
def State.gtdData (s : State) (rt : RouterId) (inp : OutPort) (u : BitVec 256 × Bool) (due : Nat) : State :=
  let r := s.router rt
  match (r.gtd.get none inp.val : Option GtdOpen) with
  | none => s
  | some g =>
    let q := { g.pkt with data := g.pkt.data ++ [u] }
    let s := s.setRouter rt { r with gtd := r.gtd.set none inp.val (if g.left ≤ 1 then none else some { g with pkt := q, left := g.left - 1 }) }
    if (neighbour rt g.out).isSome then
      s.putWire rt g.out { vn := hVn q.hdr, head := false, data := u.1, poison := u.2, demo := g.demo, due := if g.demo then none else some due }
    else if g.demo then
      let r := s.router rt
      s.setRouter rt { r with queue := r.queue.map fun x => if x.demo && x.inp == inp && x.hdr == q.hdr && decide (x.data.length < hDu x.hdr)
                                                            then { x with data := x.data ++ [u] } else x }
    else if g.left ≤ 1 then s.eject rt g.out q else s

/-- A header unit is read at a router: its check, a disabled port, GTD, a demoted packet's room, or its input buffer (R271, R276, R284, R299,
R302). `due` is the Net time at which a GTD unit takes its output. The output it takes is the second result. -/
def State.headIn (s : State) (rt : RouterId) (p : NetPkt) (due : Nat) : State × Option OutPort :=
  let h := p.hdr
  let credited := !p.demo && hVn h != 4
  let back (s : State) : State := if credited then s.freed rt p.inp (hVn h) (1 + p.data.length) else s
  if !(hchkOk h) then (back ((s.bbNet 0x3021 none rt rt.node.val).lose h), none)
  else
    let en (o : OutPort) : Bool := s.rb (.netRtrCtl rt.plane rt.node) o.val
    match outOf p with
    | none => (s, none)
    | some o =>
      if !(en p.inp) || !(en o) then
        (back ((((s.rfSet (.netRtrCtl rt.plane rt.node) 8 8 1).bbNet 0x3024 (some (hPid h)) rt rt.node.val).rasPush (hPid h) 0x3024 false 0 0xFFFF).lose h), none)
      else
      let s := s.edgeCount rt p.inp.val p false
      if hVn h = 4 then
        let s := s.gtdHead rt { p with data := [] } o due
        (p.data.foldl (fun (s : State) u => s.gtdData rt p.inp u due) s, some o)
      else if p.demo && !((s.router rt).demoRoom p) then
        (((s.lose h).bbNet 0x3023 (some (hPid h)) rt rt.node.val).ucd (hPid h) 0x3023 0xFFFF 0, none)
      else (s.enqueue rt p, some o)

/-- A data unit joins the packet of its input and network that still lacks it: one that holds an output, or the last that waits. Without
one, its packet was dropped, and its credit returns (R271, R296). -/
def State.dataIn (s : State) (rt : RouterId) (inp : OutPort) (w : WUnit) (u : BitVec 256 × Bool) : State :=
  let r := s.router rt
  let lacks (p : NetPkt) : Bool := p.inp == inp && hVn p.hdr == w.vn && p.demo == w.demo && decide (p.data.length < hDu p.hdr)
  if r.grants.any fun e => match e.2 with | some g => lacks g.pkt | none => false then
    s.setRouter rt { r with grants := r.grants.mapVals none fun _ e => match e with
      | some g => some (if lacks g.pkt then { g with pkt := { g.pkt with data := g.pkt.data ++ [u] } } else g)
      | none => none }
  else match r.queue.find? lacks with
    | some p => s.setRouter rt { r with queue := r.queue.map fun q => if q == p then { p with data := p.data ++ [u] } else q }
    | none => if w.demo then s else s.freed rt inp w.vn 1

/-- The next unit on a mesh link as it reaches the receiver: the unit, with the bits that changed unseen. -/
def State.onWire (s : State) (rt : RouterId) (inp : OutPort) (err : LinkErr) (flip : BitVec 256) : Option (WUnit × BitVec 256) :=
  let r := s.router rt
  match r.link inp with
  | [] => none
  | w :: _ =>
    if r.skip.contains inp.val || err == .double || (match w.due with | some d => decide (s.now < d) | none => false) then none
    else some (w, w.data ^^^ flip)

/-- The receiver of a link accepts its next unit: it leaves the sender's retry buffer, and the count of consecutive replays begins again
(R300, R301). -/
def State.accept (s : State) (rt : RouterId) (inp : OutPort) (err : LinkErr) : State :=
  let r := s.router rt
  let s := s.setRouter rt { r with wire := r.wire.set [] inp.val (r.link inp).tail }
  match neighbour rt inp with
  | some up =>
    let s := if err == .single then s.rfInc (.netLinkErr up.plane up.node (facing inp)) 15 0 1 else s
    s.setRouter up { s.router up with fails := (s.router up).fails.set 0 (facing inp).val 0 }
  | none => s

/-- The link of a mesh port delivers its next unit. An error in two bits: the unit and every later one are discarded until the replay
(R300). -/
def State.linkIn (s : State) (rt : RouterId) (inp : OutPort) (err : LinkErr) (flip : BitVec 256) : State × Option OutPort :=
  match s.onWire rt inp err flip with
  | none =>
    let r := s.router rt
    (if err == .double && !((r.link inp).isEmpty) then s.setRouter rt { r with skip := insertNat inp.val r.skip } else s, none)
  | some (w, d) =>
    let s := s.accept rt inp err
    let due := (w.due.getD s.now) + 16
    if w.head then s.headIn rt { inp := inp, hdr := d, data := [], demo := w.demo, due := none } due
    else if w.vn = 4 then (s.gtdData rt inp (d, w.poison) due, none)
    else
      let o := ((s.router rt).grants.find? fun e => match e.2 with
        | some g => g.pkt.inp == inp && hVn g.pkt.hdr == w.vn && decide (g.pkt.data.length < hDu g.pkt.hdr)
        | none => false).map fun e => (Fin.ofNat 7 e.1 : OutPort)
      (s.dataIn rt inp w (d, w.poison), o)

/-! ## Injection (R274–R276, R285, R287, R292) -/

/-- The key of an injection point's link into a plane. -/
def injKey (p node l : Nat) : Nat := l + 4 * (node + 256 * p)

/-- A message of a partition may be injected on GTD now (R27, R285, R287, R288, R481): a token for its path, the running slot owned for it, the
whole packet inside the slot's free cycles, no hold, and landing credits for a request. -/
def State.gtdMay (s : State) (kind : MsgKind) (m : Msg) : Bool :=
  let p := planeOf kind m
  let n := 1 + (msgUnits kind m).length
  let (node, l) := injNode p m.src.toNat
  let v := s.net.inject.get 0 (rteKey (s.slotBank m.src.toNat) p node l (s.cycle / 16))
  let lk := landKey p m.src.toNat m.dst.toNat
  s.tokenFor kind m && !s.net.slotHold && (s.net.slotStop.get none p : Option Nat).isNone &&
    !(decide (m.src.toNat < 36) && s.rb (.fctTickStatus (Fin.ofNat 12 (m.src.toNat / 3))) 2) &&
    bit v 0 && fld v 4 1 == m.pid.val && fld v 12 5 == m.dst.toNat &&
    decide (s.cycle % 16 + n ≤ 16) && decide (s.net.gtdBusy.get 0 (injKey p node l) ≤ s.now) &&
    (vnOfMsg (msgCode kind) != 0 || (!(s.net.landHold.contains lk) && decide (s.net.landing.get 0 lk + n ≤ 4)))

/-- New requests of a Facet's clusters are held (R29). -/
def State.reqHeld (s : State) (kind : MsgKind) (m : Msg) : Bool :=
  decide (m.src.toNat < 36) && vnOfMsg (msgCode kind) == 0 && s.rb (.fctTickStatus (Fin.ofNat 12 (m.src.toNat / 3))) 3

/-- A message waits at its injection point and may go there: it is not in the Net yet, nothing of its flow goes before it, it is not held, and an ordinary one
has the local credits of R276; in FATAL only MGT goes (R477). -/
def State.injReady (s : State) (x : MsgKind × Msg) (gtd : Bool) : Bool :=
  let p := planeOf x.1 x.2
  let units := 1 + (msgUnits x.1 x.2).length
  let vn := vnOfMsg (msgCode x.1)
  s.msgs.contains x && s.turn x.1 x.2 && !(s.reqHeld x.1 x.2) && !(s.fatal && vn != 5) &&
    (if gtd then s.gtdMay x.1 x.2
     else if x.2.src.toNat < 36 then true
     else match agentAt p x.2.src.toNat with
       | some (a, b, l) =>
         decide ((s.router { plane := Fin.ofNat 12 p, node := Fin.ofNat 144 (12 * b + a) }).local_.get 0 (8 * (4 + l) + vn) + units ≤ netBuf vn)
       | none => false)

/-- The class of a partition at a Facet fabric's injection (R292). -/
def State.fctClass (s : State) (f : FacetId) (p : Pid) : Nat :=
  let r : Reg := if s.bank 3 then .fctArbClassB f else .fctArbClassA f
  s.rf r (2 * p.val + 1) (2 * p.val)

/-- A Facet fabric arbitrates for a plane among its three clusters, each with its first message that may go; `x` is the message that a
GTD slot or the request itself puts first for its cluster (R292). A frozen arbiter grants nothing (R294). -/
def State.fabricPick (s : State) (f : FacetId) (p : Nat) (x : MsgKind × Msg) : Option (MsgKind × Msg) × State :=
  if s.rb (.fctArbCfg f) 8 then (none, s) else
  let heads : List (Nat × (MsgKind × Msg)) := (List.range 3).filterMap fun c =>
    let g := 3 * f.val + c
    if x.2.src.toNat = g then some (c, x)
    else (s.msgs.find? fun y => y.2.src.toNat == g && planeOf y.1 y.2 == p && s.injReady y false).map fun y => (c, y)
  let k := 12 * f.val + p
  match (s.net.fctArb.get Arb.empty k).pick (s.rf (.fctArbCfg f) 7 0) (heads.map fun h => (h.1, s.fctClass f h.2.2.pid)) with
  | none => (none, s)
  | some (c, a) =>
    ((heads.find? fun h => h.1 == c).map (·.2), { s with net := { s.net with fctArb := s.net.fctArb.set Arb.empty k a } })

/-- The packet of a message enters the Net (R268, R276, R282, R287): a Facet's goes to the strand, a Centroid agent's to its router. A GTD unit
takes the slot's cycles, and the first resource after a strand 11 slots later. -/
def State.injected (s : State) (x : MsgKind × Msg) (gtd : Bool) : State × Option OutPort :=
  let p := planeOf x.1 x.2
  let m := x.2
  if !(s.routed p m.src.toNat m.dst.toNat) then ((s.arrived x.1 m).noRoute p m, none)
  else
    let h := s.header p x.1 m gtd
    let data := msgUnits x.1 m
    let n := 1 + data.length
    let (node, l) := injNode p m.src.toNat
    let s := { s with net := { s.net with flying := s.net.flying ++ [x] } }
    let s := if !gtd then s else
      let k := landKey p m.src.toNat m.dst.toNat
      let net := { s.net with gtdBusy := s.net.gtdBusy.set 0 (injKey p node l) (s.now + n) }
      { s with net := if vnOfMsg (msgCode x.1) = 0 then
          { net with landing := net.landing.set 0 k (net.landing.get 0 k + n),
                     landQ := net.landQ ++ [{ plane := p, units := n, landed := false, kind := x.1, msg := m }] } else net }
    if m.src.toNat < 36 then
      let k := (12 * (m.src.toNat / 3) + p) * 2
      let q : NetPkt := { inp := 4, hdr := h, data := data, demo := false, due := if gtd then some (s.now + 176) else none }
      ({ s with chord := { s.chord with tx := s.chord.tx.set [] k (s.chord.tx.get [] k ++ [q]) } }, none)
    else
      let rt : RouterId := { plane := Fin.ofNat 12 p, node := Fin.ofNat 144 node }
      let inp : OutPort := Fin.ofNat 7 (4 + l)
      let r := s.router rt
      let key := 8 * inp.val + hVn h
      let s := if gtd then s else s.setRouter rt { r with local_ := r.local_.set 0 key (r.local_.get 0 key + n) }
      s.headIn rt { inp := inp, hdr := h, data := data, demo := false, due := none } s.now

/-- A message is injected if it may go (R275, R285, R292). -/
def State.inject (s : State) (kind : MsgKind) (m : Msg) (gtd : Bool) : State × Option OutPort :=
  if !(s.injReady (kind, m) gtd) then (s, none)
  else if gtd || decide (36 ≤ m.src.toNat) then s.injected (kind, m) gtd
  else
    match s.fabricPick (Fin.ofNat 12 (m.src.toNat / 3)) (planeOf kind m) (kind, m) with
    | (some x, s) => s.injected x false
    | (none, s) => (s, none)

/-- The next packet of a virtual network that a Facet's Centroid endpoint holds for a router enters it under local credits; its Chord
buffer is free and its credits wait to be returned (R276, R310). -/
def State.chordIn (s : State) (rt : RouterId) (vn : Nat) : State × Option OutPort :=
  match edgeFacet rt 4 with
  | none => (s, none)
  | some f =>
    let k := (12 * f + rt.plane.val) * 2
    let q : List NetPkt := s.chord.rx.get [] k
    match q.find? fun p => hVn p.hdr == vn && !(s.fatal && vn != 5) with
    | none => (s, none)
    | some p =>
      let r := s.router rt
      let key := 32 + vn
      if vn ≠ 4 ∧ netBuf vn < r.local_.get 0 key + p.units then (s, none)
      else
        let ck := ((12 * f + rt.plane.val) * 8 + vn) * 2
        let c : ChCred := s.chord.creds.get ChCred.empty ck
        let s := { s with chord := { s.chord with rx := s.chord.rx.set [] k (q.erase p) } }
        let s := if vn = 4 then s else
          let c1 : ChCred := { c with occ := c.occ - p.units, pend := c.pend + p.units }
          ({ s with chord := { s.chord with creds := s.chord.creds.set ChCred.empty ck c1 } }).setRouter rt
            { r with local_ := r.local_.set 0 key (r.local_.get 0 key + p.units) }
        s.headIn rt { p with inp := 4, due := none } (p.due.getD s.now)

/-! ## NET_PACKET_FORWARD (R271, R272, R278, R284, R299, R302) -/

/-- The header unit that an arrival brings to the router, if it brings one. -/
def State.headOf (s : State) (rt : RouterId) (a : NetArr) : Option NetPkt :=
  match a with
  | .link inp err flip =>
    match s.onWire rt inp err flip with
    | some (w, d) => if w.head then some { inp := inp, hdr := d, data := [], demo := w.demo, due := none } else none
    | none => none
  | .inject _ _ _ => none
  | .chord vn =>
    match edgeFacet rt 4 with
    | some f => ((s.chord.rx.get [] ((12 * f + rt.plane.val) * 2)).find? fun p => hVn p.hdr == vnNum vn).map fun p => { p with inp := 4 }
    | none => none

/-- The header that arrives passes its check and names a reserved VN, turn code or LPORT (R268, R272). A header with a reserved MSG value,
DU = 3, RLEN above 22 or reserved bits that are not zero is forwarded like any other: the model's choice (log 76). -/
def State.reservedArr (s : State) (rt : RouterId) (a : NetArr) : Bool :=
  match s.headOf rt a with
  | some p => hchkOk p.hdr && (decide (6 ≤ hVn p.hdr) || (outOf p).isNone)
  | none => false

/-- What an arrival does, with the output that it asks for. -/
def State.netArrive (s : State) (rt : RouterId) (a : NetArr) : State × Option OutPort :=
  match a with
  | .link inp err flip => s.linkIn rt inp err flip
  | .inject kind m gtd => s.inject kind m gtd
  | .chord vn => s.chordIn rt (vnNum vn)

/-- NET_PACKET_FORWARD: what arrives, if anything does, is taken in, and one cycle of an output passes (R271–R278, R284, R290, R299,
R302). A reserved value in the header stops the block by name. -/
def execNetPacketForward (rt : RouterId) (out : OutPort) (arr : Option NetArr) (s : State) : Host.Outcome State Fault Refusal :=
  if (match arr with | some a => s.reservedArr rt a | none => false) then .fault .reservedHeader else
  let (s, o) := match arr with
    | some a => s.netArrive rt a
    | none => (s, some out)
  .next (match o with
    | some o => s.serve rt o
    | none => s)

/-- GRANT_HOLD_TIMEOUT: a grant held for GHOLD ticks is revoked, the rest of its packet is dropped, its credits return, and its
partition goes down (R296). -/
def execGrantHoldTimeout (rt : RouterId) (out : OutPort) (s : State) : Host.Outcome State Fault Refusal :=
  let r := s.router rt
  .next (match (r.grants.get none out.val : Option Grant) with
  | none => s
  | some g =>
    let gh := s.rf (.netArbCfg rt.plane rt.node) 31 16
    if !(s.expired g.since (if gh = 0 then 256 else gh)) then s else
    let s := (s.setRouter rt { r with grants := r.grants.set none out.val none }).inflSub rt g.pkt.hdr
    let s := if g.pkt.demo then s else s.freed rt g.pkt.inp (hVn g.pkt.hdr) (1 + g.pkt.data.length - g.sent)
    let s := s.lose g.pkt.hdr
    let pid := hPid g.pkt.hdr
    ((s.bbNet 0x3040 (some pid) rt (rt.node.val + out.val * 2 ^ 8)).ucd pid 0x3040 0xFFFF 0).serve rt out)

/-- CREDIT_RETURN: `n` credits of those on the sideband reach the sender; the output is served with them (R277). -/
def execCreditReturn (rt : RouterId) (out : OutPort) (vn : Vn) (n : Nat) (s : State) : Host.Outcome State Fault Refusal :=
  let r := s.router rt
  let key := 8 * out.val + vnNum vn
  let k := min n (r.ret.get 0 key)
  .next ((s.setRouter rt { r with away := r.away.set 0 key (r.away.get 0 key - k), ret := r.ret.set 0 key (r.ret.get 0 key - k) }).serve rt out)

/-- LINK_RETRY_REQUEST: a double error on the link of an output: the sender replays out of its retry buffer; 16 consecutive failed replays of
a unit fail the link and the package, and the units' credits return; more than 256 replays in a tick are event 0x3026 (R300, R301). -/
def execLinkRetryRequest (rt : RouterId) (out : OutPort) (_fails : Nat) (s : State) : Host.Outcome State Fault Refusal :=
  let s := s.rfInc (.netLinkErr rt.plane rt.node out) 31 16 1
  let r := s.router rt
  let n := r.replays.get 0 out.val + 1
  let k := r.fails.get 0 out.val + 1
  let s := s.setRouter rt { r with replays := r.replays.set 0 out.val n, fails := r.fails.set 0 out.val k }
  let s := match neighbour rt out with
    | none => s
    | some nx => s.setRouter nx { s.router nx with skip := (s.router nx).skip.erase (facing out).val }
  let s := if n = 257 then s.bbNet 0x3026 none rt 0 else s
  .next (if 16 ≤ k then
    let s := match neighbour rt out with
      | none => s
      | some nx =>
        let lost := (s.router nx).link (facing out)
        let s := s.setRouter nx { s.router nx with wire := (s.router nx).wire.set [] (facing out).val [] }
        lost.foldl (fun (s : State) (w : WUnit) => if w.vn = 4 ∨ w.demo then s else
          let r := s.router rt
          let key := 8 * out.val + w.vn
          s.setRouter rt { r with ret := r.ret.set 0 key (r.ret.get 0 key + 1) }) s
    s.bbFatal 0x3025 none rt.plane.val 0
  else s)

/-! ## Route and slot tables (R273, R274, R286, R288) -/

/-- An entry keeps the rules of R273, whether VALID or not: the minimal X-then-Y route that ends at the destination agent's router on the
plane. -/
def routeOk (p node dst : Nat) (v : Word) : Bool :=
  match agentAt p dst with
  | none => false
  | some (x1, y1, _) =>
    let (x0, y0) := nodeXY p node
    let (n, r) := xyRoute x0 y0 x1 y1
    fld v 5 1 == n && decide (n ≤ 22) && fld v 51 8 % 4 ^ n == r

/-- GTD injection on a plane was stopped by a failed slot audit and the 45th slot after the stop has begun: the PSC may write both banks of
the plane's SLOT tables (R35, R481). -/
def State.slotFree (s : State) (p : Nat) : Bool :=
  match (s.net.slotStop.get none p : Option Nat) with
  | some n => decide (n + 45 ≤ s.slotNow)
  | none => false

/-- The SEL register of an injection point, the table's plane, node and local port, and whether both banks may be written, as those of a
Facet in RESYNC (R35). The values 12–15 of FCT_RTE_SEL.PLANE name no plane; entries are stored for them like any other, and nothing
reads them: the model's choice (log 78). -/
def State.injSel (s : State) (pt : InjPoint) : Reg × Nat × Nat × Nat × Bool :=
  match pt with
  | .facet f =>
    let sel : Reg := .fctRteSel f
    (sel, s.rf sel 11 8, 144 + f.val, 0, s.rb (.fctTickStatus f) 1)
  | .net rt =>
    let sel : Reg := .netRteSel rt.plane rt.node
    (sel, rt.plane.val, rt.node.val, s.rf sel 15 14, false)

/-- The bank in force of a class at an injection point. -/
def State.injBank (s : State) (pt : InjPoint) (cls : Nat) : Bool :=
  match pt with | .facet f => s.facetBank f cls | .net _ => s.bank cls

/-- A write through the DATA register of an injection point (R273, R274, R286): dropped under R273 with event 0x3020, or under
R35 with event 0x0012. With TABLE = 1 the values 125–255 of INDEX name no slot; an entry is stored for them like any other, and nothing
reads it: the model's choice (log 78). -/
def State.routeDataWrite (s : State) (pt : InjPoint) (addr : Nat) (v : Word) : State :=
  let (sel, p, node, l, both) := s.injSel pt
  let idx := s.rf sel 7 0
  let bankB := s.rb sel 12
  let slot := s.rb sel 13
  let cls := if slot then 0 else 1
  let both := both || (slot && s.slotFree p)
  let locked := s.rb .locSwapReq cls || (slot && s.net.slotHold)
  if (!both && s.injBank pt cls == bankB) || locked && s.injBank pt cls != bankB then
    (s.rfSet sel 16 16 1).bankDrop cls addr
  else if slot then { s with net := { s.net with inject := s.net.inject.set 0 (rteKey bankB p node l idx) (v &&& 0x1FFF) } }
  else if !(routeOk p node idx v) then (s.rfSet sel 16 16 1).bb 0x3020 none p 0
  else s.setRoute bankB p node l idx (v &&& 0x000FFFFFFFFFFFFF)

/-- What the DATA register reads: the entry that SEL names. -/
def State.routeDataRead (s : State) (pt : InjPoint) : Word :=
  let (sel, p, node, l, _) := s.injSel pt
  if s.rb sel 13 then s.net.inject.get 0 (rteKey (s.rb sel 12) p node l (s.rf sel 7 0))
  else s.routeEntry (s.rb sel 12) p node l (s.rf sel 7 0)

/-- The PRS address of an injection point's DATA register. -/
def injAddr : InjPoint → Nat
  | .facet f => (Reg.fctRteData f).addr
  | .net rt => (Reg.netRteData rt.plane rt.node).addr

/-- ROUTE_ENTRY_WRITE (R273, R274). -/
def execRouteEntryWrite (pt : InjPoint) (v : Word) (s : State) : Host.Outcome State Fault Refusal :=
  .next (s.routeDataWrite pt (injAddr pt) v)

/-- GTD_HOLD_END: from slot 45 of a tick that begins with a SLOT swap, GTD is injected again and the SLOT shadow bank may be
written (R288). -/
def execGtdHoldEnd (s : State) : Host.Outcome State Fault Refusal :=
  .next (if s.net.slotHold then { s.passTo 720 with net := { s.net with slotHold := false } } else s)

/-! ## Freezing an arbiter (R294) -/

def arbKey : ArbId → Nat
  | .net rt => rtKey rt
  | .facet f => 2000 + f.val
  | .slice sl => 2100 + sl.val
  | .pci r => 2200 + r.val

def arbCfg : ArbId → Reg
  | .net rt => .netArbCfg rt.plane rt.node
  | .facet f => .fctArbCfg f
  | .slice sl => .l3sArbCfg sl
  | .pci r => .pciArbCfg r

/-- ARB_FREEZE: the PSC sets FREEZE; no new grant is made (R294). -/
def State.arbFreeze (s : State) (arb : ArbId) : State :=
  let s := s.rfSet (arbCfg arb) 8 8 1
  { s with net := { s.net with frozen := s.net.frozen.set none (arbKey arb) (some s.tick) } }

/-- ARB_FREEZE (R294). -/
def execArbFreeze (arb : ArbId) (s : State) : Host.Outcome State Fault Refusal := .next (s.arbFreeze arb)

/-- ARB_FREEZE_TIMEOUT: after 16 ticks the hardware ends the freeze with FRZ_TO and event 0x3041 (R294). -/
def execArbFreezeTimeout (arb : ArbId) (s : State) : Host.Outcome State Fault Refusal :=
  .next (match (s.net.frozen.get none (arbKey arb) : Option Nat) with
  | none => s
  | some n =>
    if !(s.rb (arbCfg arb) 8) || !(s.expired n 16) then s else
    let s := (s.rfSet (arbCfg arb) 8 8 0).rfSet (arbCfg arb) 9 9 1
    let s := { s with net := { s.net with frozen := s.net.frozen.set none (arbKey arb) none } }
    s.bb 0x3041 none (match arb with | .net rt => rt.plane.val | _ => 0) 0)

/-- ROUTER_DRAINED: with no packet of the old route bank in the router, the PSC disables the port (R297). -/
def execRouterDrained (rt : RouterId) (out : OutPort) (s : State) : Host.Outcome State Fault Refusal :=
  let old := if s.bank 1 then 0 else 16
  .next (if s.rf (.netInflight rt.plane rt.node) (old + 15) old = 0 then s.rfSet (.netRtrCtl rt.plane rt.node) out.val out.val 0 else s)

/-- Some router still holds packets of the ROUTE shadow bank (R298). -/
def State.routeInflight (s : State) : Bool :=
  let old := if s.bank 1 then 0 else 16
  s.regs.any fun e => decide (0x02000000 ≤ e.1 ∧ e.1 < 0x02000000 + 12 * 0x90000) && (e.1 - 0x02000000) % 0x1000 == 4 && fld e.2 (old + 15) old != 0

/-! ## Audits (R280, R287, R289, R481, R483) -/

/-- What an audit reads: the registers, routers, landing credits, slot tables and tokens as they latched at cycle 0 (R23). -/
def State.latched (s : State) : State :=
  { s with regs := s.latch.regs, net := { s.net with
      routers := s.latch.routers, landing := s.latch.landing, landQ := s.latch.landQ, inject := s.latch.inject, tokens := s.latch.tokens } }

/-- What latches at cycle 0 (R23, R280, R287, R289). -/
def State.latchNow (s : State) : State :=
  let lcr := (s.msgs.filter fun x => x.1 == .lcr).map (·.2)
  let l : Latch := { routers := s.net.routers, landing := s.net.landing, landQ := s.net.landQ, lcr := lcr, regs := s.regs,
                     inject := s.net.inject, tokens := s.net.tokens }
  { s with latch := l }

/-- The audits take place in cycles 0–383 of a tick, of a structure from the boot step on at which it enters service (R23, R30, R496). -/
def State.auditing (s : State) (step : Nat) : Bool := decide (s.cycle ≤ 383) && decide (step ≤ s.rf .pscBootStatus 3 0)

/-- The quantities W, U, K and D of an output's virtual network (R280): units on the wire, units in the receiver's buffer, credits
returning, and demotion units in use. -/
def State.linkUnits (s : State) (rt : RouterId) (o : OutPort) (vn : Nat) : Nat × Nat × Nat × Nat :=
  let k := (s.router rt).ret.get 0 (8 * o.val + vn)
  match neighbour rt o with
  | none => (0, 0, k, 0)
  | some nx =>
    let r := s.router nx
    (((r.link (facing o)).filter fun w => w.vn == vn && !w.demo).length, r.occupied (facing o) vn, k, r.demoUnits (facing o) (some vn))

/-- NET_CREDIT_AUDIT: the latched credits, wire, buffer and returning units of a link's virtual network must equal the buffer size
and the demotion units be at most 3. A deficit holds new headers until the link is empty and reloads the credits; a surplus, and a
second failure in a row, are FATAL (R280, R481, R483). -/
def execNetCreditAudit (rt : RouterId) (out : OutPort) (vn : Vn) (_w _u _r _d : Nat) (s : State) : Host.Outcome State Fault Refusal :=
  let ro := s.router rt
  let v := vnNum vn
  let key := 8 * out.val + v
  let size := netBuf v
  let c := size - (s.latched.router rt).away.get 0 key
  let (w, u, r, d) := s.latched.linkUnits rt out v
  let sum := c + w + u + r
  let ev (s : State) (sev : Nat) : State := s.bbSev 0x3030 sev none rt.plane.val (rt.node.val + out.val * 2 ^ 8 + v * 2 ^ 11)
  .next (if vn = .gtd || !(s.auditing 1) then s
    else if ro.hold.contains key && w + u + r == 0 then
      s.setRouter rt { ro with away := ro.away.set 0 key 0, hold := ro.hold.erase key, bad := ro.bad.erase key }
    else if sum = size ∧ d ≤ 3 then s.setRouter rt { ro with bad := ro.bad.erase key }
    else if size < sum ∨ 3 < d ∨ ro.bad.contains key then (ev s 4).declareFatal 0x3030
    else ev (s.setRouter rt { ro with hold := insertNat key ro.hold, bad := insertNat key ro.bad }) 1)

/-- The partitions with a GTD path to an ejection port of a plane. -/
def State.landPids (s : State) (p : Nat) (dst : Nat) : List Nat :=
  ((s.net.tokens.filter fun t => t.plane == p && agentAt p t.dst == agentAt p dst).map (·.pid.val)).foldl (fun l x => insertNat x l) []

/-- The latched units of a path that are landed or on their way there, and its LCR units in flight (R287). -/
def State.landUnits (s : State) (p src dst : Nat) : Nat × Nat :=
  ((s.latch.landQ.filter fun q => q.plane == p && q.msg.src.toNat == src && q.msg.dst.toNat == dst).foldl (fun n q => n + q.units) 0,
   (s.latch.lcr.filter fun m => fld m.arg 7 0 == src && fld m.arg 11 8 == p && m.src.toNat == dst).foldl (fun n m => n + fld m.arg 14 12) 0)

/-- LANDING_CREDIT_AUDIT: credits held, landed and returning equal 4. A deficit holds the path until its landing units are gone and
reloads 4 credits; a surplus takes every partition with a path to the ejection port down (R287, R481). -/
def execLandingCreditAudit (pl : PlaneId) (src dst _landed _flying : Nat) (s : State) : Host.Outcome State Fault Refusal :=
  let p := pl.val
  let k := landKey p src dst
  let (landed, flying) := s.landUnits p src dst
  let held := 4 - s.latch.landing.get 0 k
  let sum := held + landed + flying
  let at' : Nat × Nat := match agentAt p dst with | some (x, y, l) => (12 * y + x, 4 + l) | none => (0, 0)
  let ev (s : State) (sev : Nat) : State := s.bbSev 0x3030 sev none p (at'.1 + at'.2 * 2 ^ 8 + 4 * 2 ^ 11)
  .next (if !(s.auditing 1) then s
    else if s.net.landHold.contains k && landed == 0 then
      { s with net := { s.net with landing := s.net.landing.set 0 k 0, landHold := s.net.landHold.erase k, landBad := s.net.landBad.erase k } }
    else if sum = 4 then { s with net := { s.net with landBad := s.net.landBad.erase k } }
    else if 4 < sum ∨ s.net.landBad.contains k then
      (s.landPids p dst).foldl (fun s q => s.ucd (Fin.ofNat 16 q) 0x3030 0xFFFF 0) (ev s 3)
    else
      let s := ev s 1
      { s with net := { s.net with landHold := insertNat k s.net.landHold, landBad := insertNat k s.net.landBad } })

/-- LCR: landing credits of a path return to its injection point (R270, R287). -/
def execLcr (m : Msg) (s : State) : Host.Outcome State Fault Refusal :=
  .next (s.onArrival .lcr m fun s => s.landBack (landKey (fld m.arg 11 8) (fld m.arg 7 0) m.src.toNat) (fld m.arg 14 12))

/-- The resources of a path in order, with the slot offset of each (R281, R282): router outputs from the injecting router to the
ejection port; 11 slots lie before the resource that follows a strand. -/
def pathCells (p src dst : Nat) : List (Nat × Nat × Nat × Nat) :=
  match agentAt p src, agentAt p dst with
  | some (x0, y0, l0), some (x1, y1, l1) =>
    let (n, r) := xyRoute x0 y0 x1 y1
    let base := if src < 36 then 11 else 0
    -- walk: node, input port, heading
    let step (acc : List (Nat × Nat × Nat × Nat) × Nat × Nat × Nat × Nat) (i : Nat) : List (Nat × Nat × Nat × Nat) × Nat × Nat × Nat × Nat :=
      let (l, x, y, inp, head) := acc
      let code := r / 4 ^ i % 4
      let o := if i = 0 then code else if code = 1 then (head + 3) % 4 else if code = 2 then (head + 1) % 4 else head
      let (x', y') := match o with | 0 => (x, y - 1) | 1 => (x + 1, y) | 2 => (x, y + 1) | _ => (x - 1, y)
      (l ++ [(12 * y + x, o, inp, base + i)], x', y', (o + 2) % 4, o)
    let (l, x, y, inp, _) := (List.range n).foldl step ([], x0, y0, 4 + l0, 0)
    l ++ [(12 * y + x, 4 + l1, inp, base + n)]
  | _, _ => []

/-- The cells of a token: node, output, input and slot (R282, R283). -/
def tokenCells (t : Token) : List (Nat × Nat × Nat × Nat) :=
  (pathCells t.plane t.src t.dst).map fun c => (c.1, c.2.1, c.2.2.1, (t.slot + c.2.2.2) % 125)

/-- Put a slot entry. -/
def State.setSlot (s : State) (bankB : Bool) (p node o slot e : Nat) : State :=
  let q : Fin 32 := Fin.ofNat 32 (slot / 4)
  let r : Reg := if bankB then .netSlotB (Fin.ofNat 12 p) (Fin.ofNat 144 node) (Fin.ofNat 7 o) q
                 else .netSlotA (Fin.ofNat 12 p) (Fin.ofNat 144 node) (Fin.ofNat 7 o) q
  s.rfSet r (8 * (slot % 4) + 7) (8 * (slot % 4)) e

/-- Clear a bank of the slot tables of one plane, routers and injection points. -/
def State.clearSlots (s : State) (bankB : Bool) (p : Nat) : State :=
  let lo := 0x02000000 + p * 0x90000
  let off := if bankB then 0x500 else 0x100
  let mine (a : Nat) : Bool := decide (lo ≤ a ∧ a < lo + 0x90000) && decide (off ≤ (a - lo) % 0x1000 ∧ (a - lo) % 0x1000 < off + 0x380)
  { s with regs := s.regs.filter fun e => !(mine e.1),
           net := { s.net with inject := s.net.inject.filter fun e => !(e.1 % 2 == b2n bankB && e.1 / 2 / 256 / 4 / 256 == p) } }

/-- Write the cells and the injection entry of one token into a bank (R285, R286). -/
def State.writeToken (s : State) (bankB : Bool) (t : Token) : State :=
  let s := (tokenCells t).foldl (fun s c => s.setSlot bankB t.plane c.1 c.2.1 c.2.2.2 (1 + 2 * c.2.2.1 + 16 * t.pid.val)) s
  let (node, l) := injNode t.plane t.src
  { s with net := { s.net with inject := s.net.inject.set 0 (rteKey bankB t.plane node l t.slot)
                                           (BitVec.ofNat 64 (1 + t.pid.val * 2 + t.dst % 256 * 2 ^ 5)) } }

/-- The tokens after the next SLOT swap. -/
def State.tokensNext (s : State) : List Token := s.net.staged.getD s.net.tokens

/-- The PSC writes a bank of a plane's slot tables from the tokens it has recorded: those in force for the active bank, those staged
for the shadow bank. -/
def State.writePlane (s : State) (bankB : Bool) (p : Nat) : State :=
  let ts := if bankB == s.bank 0 then s.net.tokens else s.tokensNext
  (ts.filter fun t => t.plane == p).foldl (fun s t => s.writeToken bankB t) (s.clearSlots bankB p)

/-- Stage a token set for the next SLOT swap: the shadow bank of every plane is written and the swap is requested (R283, R288). -/
def State.stageTokens (s : State) (ts : List Token) : State :=
  let s := { s with net := { s.net with staged := some ts } }
  (List.range 12).foldl (fun s p => s.writePlane (!(s.bank 0)) p) s

/-- An owned entry of a router's output is preceded on its path by an entry of the same partition (R289). -/
def State.slotPreceded (s : State) (bankB : Bool) (rt : RouterId) (slot e : Nat) : Bool :=
  let inp : OutPort := Fin.ofNat 7 (e / 2 % 8)
  let pid := e / 16
  match neighbour rt inp with
  | some up =>
    let e' := s.slotEntry up bankB (Fin.ofNat 7 ((inp.val + 2) % 4)) ((slot + 124) % 125)
    e' % 2 == 1 && e' / 16 == pid
  | none =>
    let p := rt.plane.val
    let facet := (List.range 12).find? fun f => agentAt p (3 * f) == some (rt.node.val % 12, rt.node.val / 12, inp.val - 4)
    let v := match facet with
      | some f => s.net.inject.get 0 (rteKey bankB p (144 + f) 0 ((slot + 125 - 11) % 125))
      | none => s.net.inject.get 0 (rteKey bankB p rt.node.val (inp.val - 4) slot)
    bit v 0 && fld v 4 1 == pid

/-- The owned entries of the active bank of a plane: router, output, slot, entry. -/
def State.ownedSlots (s : State) (p : Nat) : List (RouterId × OutPort × Nat × Nat) :=
  let bankB := s.bank 0
  let lo := 0x02000000 + p * 0x90000
  let off := if bankB then 0x500 else 0x100
  s.regs.flatMap fun e =>
    if lo ≤ e.1 ∧ e.1 < lo + 0x90000 ∧ off ≤ (e.1 - lo) % 0x1000 ∧ (e.1 - lo) % 0x1000 < off + 0x380 then
      let node := (e.1 - lo) / 0x1000
      let n := ((e.1 - lo) % 0x1000 - off) / 4
      (List.range 4).filterMap fun b =>
        let x := fld e.2 (8 * b + 7) (8 * b)
        if x % 2 = 1 ∧ 4 * (n % 32) + b < 125 then
          some (({ plane := Fin.ofNat 12 p, node := Fin.ofNat 144 node } : RouterId), (Fin.ofNat 7 (n / 32) : OutPort), 4 * (n % 32) + b, x)
        else none
    else []

/-- The owned cells of each partition equal those that the PSC recorded (R289). -/
def State.slotCounts (s : State) (p : Nat) : Bool :=
  (List.range 16).all fun q =>
    ((s.ownedSlots p).filter fun x => x.2.2.2 / 16 == q).length ==
      (s.net.tokens.filter fun t => t.plane == p && t.pid.val == q).foldl (fun n t => n + (tokenCells t).length) 0

/-- SLOT_AUDIT: every latched owned entry is preceded on its path and the counts agree. A failure stops GTD injection on the plane from
this slot; the next passing audit resumes it (R289, R481). -/
def execSlotAudit (pl : PlaneId) (s : State) : Host.Outcome State Fault Refusal :=
  let p := pl.val
  let q := s.latched
  let bad := (q.ownedSlots p).find? fun x => !(q.slotPreceded (q.bank 0) x.1 x.2.2.1 x.2.2.2)
  let stop (s : State) (v : Option Nat) : State := { s with net := { s.net with slotStop := s.net.slotStop.set none p v } }
  .next (if !(s.auditing 6) then s else match bad with
    | some x => (stop s (some s.slotNow)).bb 0x3031 none p (x.1.node.val + x.2.1.val * 2 ^ 8 + x.2.2.1 * 2 ^ 11)
    | none => if q.slotCounts p then stop s none else (stop s (some s.slotNow)).bb 0x3031 none p 0)

/-- The PSC rewrites both banks of the SLOT tables of each plane that a failed audit stopped, once 45 slots have passed; a write to a
locked shadow bank is dropped (R35, R481). -/
def State.slotRecover (s : State) : State :=
  (List.range 12).foldl (fun (s : State) p =>
    if !(s.slotFree p) then s
    else
      let s := s.writePlane (s.bank 0) p
      if s.bankLocked 0 (!(s.bank 0)) then s.bankDrop 0 (0x02000000 + p * 0x90000) else s.writePlane (!(s.bank 0)) p) s

end Sys2Proof.Machine
end

