-- ==== Sys2Proof/Machine/Time.lean ====
section
/-! DEFINITION. The package tick: the reference check, swap requests and their capture, markers, the Facets' local timing, and
the re-synchronisation of a Facet (R20–R43). -/

namespace Sys2Proof.Machine

/-! ## The reference (R22) -/

/-- FREERUN with event 0x0010 and FATAL (R22). -/
def State.refLost (s : State) : State := (s.rfSet .locTickStatus 1 1 1).bbFatal 0x0010 none 0 0

/-- What the Locus sees of the reference in a tick: an offset in ppm, or none while it is absent (R22). -/
def State.refSeen (s : State) (ppm : Option Int) : State :=
  let ok := match ppm with | some p => decide (-300 ≤ p ∧ p ≤ 300) | none => false
  let v : Nat := match ppm with
    | some p => (BitVec.ofInt 16 (max (-32767) (min 32767 p))).toNat
    | none => 0x8000
  let s := (s.rfSet .locTickStatus 31 16 v).rfSet .locTickStatus 0 0 (b2n ok)
  if ok then { s with refBad := 0 } else { (s.rfSet .locTickStatus 2 2 1) with refBad := s.refBad + 1 }

/-- REFERENCE_ABSENT: no reference edge for 100 ns acts at once (R22). -/
def execReferenceAbsent (s : State) : Host.Outcome State Fault Refusal :=
  .next (if s.rb .locTickStatus 1 then s else (s.refSeen none).refLost)

/-- REF_WINDOW_TIMEOUT: 16 consecutive ticks outside ±300 ppm (R22). -/
def execRefWindowTimeout (s : State) : Host.Outcome State Fault Refusal :=
  .next (if s.refBad < 16 || s.rb .locTickStatus 1 then s else s.refLost)

/-! ## Swaps and markers (R24, R33–R35, R40, R43, R298) -/

/-- LOC_TIME_OFS as a signed number. -/
def State.timeOfs (s : State) : Int := (s.rg .locTimeOfs).toInt

/-- The Facet as data. -/
def State.facet (s : State) (f : FacetId) : Facet := s.facets.get Facet.empty f.val
def State.setFacet (s : State) (f : FacetId) (x : Facet) : State := { s with facets := s.facets.set Facet.empty f.val x }

/-- Some Facet's copies are loaded and its RESYNC is still 1 (R43). -/
def State.loading (s : State) : Bool :=
  (List.range 12).any fun f => (s.facet (Fin.ofNat 12 f)).loaded && s.rb (.fctTickStatus (Fin.ofNat 12 f)) 1

/-- Request swaps of classes: SLOT, ROUTE and GMAP wait in the PSC while a Facet is being loaded (R33, R43). -/
def State.requestSwap (s : State) (classes : Nat) : State :=
  if s.loading && classes % 8 != 0 then { s with psc := { s.psc with swapWait := s.psc.swapWait ||| classes } }
  else s.rfSet .locSwapReq 3 0 (s.rf .locSwapReq 3 0 ||| classes)

/-- A layout that changes the ownership of clusters, ways, granules or tokens goes to the Meter first; its swap is requested once the
Meter shows the new generation (R424). -/
def State.layoutSwap (s : State) (classes : Nat) : State :=
  { s with psc := { s.psc with layWait := s.psc.layWait ||| classes, layGen := (s.psc.layGen + 1) % 256 } }

/-- The PSC requests the swap once MTR_STATUS.LAYOUT_GEN shows the layout's generation (R424). -/
def State.layoutReady (s : State) : State :=
  if s.psc.layWait ≠ 0 ∧ s.rf .mtrStatus 31 24 = s.psc.layGen then
    ({ s with psc := { s.psc with layWait := 0 } }).requestSwap s.psc.layWait
  else s

/-- SWAP_REQUEST (R33, R34). -/
def execSwapRequest (classes : BitVec 4) (s : State) : Host.Outcome State Fault Refusal := .next (s.requestSwap classes.toNat)

/-- The net change of package time at the next boundary: the adjust that is captured, or a slew step (R40). -/
def State.nextAdj (s : State) : Int :=
  match s.psc.captured with
  | some (_, some (a, _)) => if 0 ≤ a then a else -1
  | _ => if s.psc.slew = 0 then 0 else -1

/-- The tick-duty window closes: the descriptors that it still owes are deferred, with LOC_TICK_OVR.DUTY and event 0x1010 (R31). -/
def State.deferDuties (s : State) : State :=
  let owed : Tbl Nat := (List.range 16).foldl (fun (t : Tbl Nat) p => t.set 0 p (s.ringOwed (Fin.ofNat 16 p))) []
  let n := owed.foldl (fun n e => n + e.2) 0
  let s := { s with psc := { s.psc with deferred := owed, beat := s.tick } }
  if n = 0 then s else (s.rfSet .locTickOvr 0 0 1).bb 0x1010 none 0 (min 255 n)

/-- SWAP_CUTOFF: duties still unfinished are deferred; the pending swap set, unless a ROUTE swap is held back, and the first
accepted adjust are captured for the next marker (R31, R33, R40, R298). The SLOT tables of a plane that a failed audit stopped have been
rewritten in the window (R481). -/
def execSwapCutoff (_deferred : Nat) (s : State) : Host.Outcome State Fault Refusal :=
  if 1792 ≤ s.cycle then .next s else
  let s := ((s.deferDuties.passTo 1792).slotRecover).layoutReady
  let req := s.rf .locSwapReq 3 0
  let set := if req / 2 % 2 = 1 && s.routeInflight then 0 else req
  .next { s with psc := { s.psc with captured := some (BitVec.ofNat 4 set, s.psc.adjusts.head?), adjusts := s.psc.adjusts.drop 1 } }

/-! ## A Facet's boundary (R25, R27, R29, R42) -/

/-- FCT_TICK_STATUS.RESYNC. -/
def State.inResync (s : State) (f : FacetId) : Bool := s.rb (.fctTickStatus f) 1

/-- Apply a marker's SWAP set and TIME_ADJ to a Facet. -/
def Facet.applyMarker (x : Facet) (m : Marker) : Facet := { x with active := x.active ^^^ m.swap, ofs := x.ofs + m.adj }

/-- A locked Facet's boundary lies within ±4 ns, 8 Net cycles, of the tick master's: before cycle 1,992 it is not due (R28). -/
def State.boundaryEarly (s : State) (f : FacetId) : Bool :=
  s.rb (.fctTickStatus f) 0 && decide ((s.facet f).tick = s.tick % 2 ^ 48) && decide (s.cycle < 1992)

/-- FACET_LOCAL_BOUNDARY: the Facet begins its next tick on the held marker, or without it, late (R25, R27–R29). -/
def execFacetLocalBoundary (f : FacetId) (s : State) : Host.Outcome State Fault Refusal :=
  let x := s.facet f
  .next (if x.inReset || !x.runs || s.boundaryEarly f then s else
    let x := match x.stepNext with
      | some _ => { x with stepNext := none, phase := 0 }
      | none => x
    match x.held with
    | some m => s.setFacet f { (x.applyMarker m) with tick := m.tick, held := none, late := false }
    | none =>
      let s := s.setFacet f { x with tick := (x.tick + 1) % 2 ^ 48, late := true }
      ((s.rfSet (.fctTickStatus f) 5 5 1).rfSet (.fctTickStatus f) 3 3 1).bb 0x4011 none f.val 0)

/-- A phase error slewed toward zero by at most 0.5 ns, in units of 0.25 ns (R27). -/
def slewed (e : Int) : Int := if 2 < e then e - 2 else if e < -2 then e + 2 else 0

/-- The first good marker of a tick reaches a Facet with an alignment error in units of 0.25 ns (R27, R29, R42). -/
def State.markAt (s : State) (f : FacetId) (m : Marker) (e : Int) : State :=
  let x := s.facet f
  let s := s.rfSet (.fctTickStatus f) 15 8 (BitVec.ofInt 8 (max (-128) (min 127 e))).toNat
  let x := { x with seen := some m.tick }
  if !x.runs then
    s.setFacet f { x with runs := true, ofs := s.timeOfs, held := some { m with swap := 0 }, stepNext := some e, good := 0 }
  else
    -- a marker of a boundary already passed acts at once
    let (x, s) : Facet × State :=
      if x.late && m.tick == x.tick then
        ({ (x.applyMarker m) with late := false }, if s.inResync f then s else s.rfSet (.fctTickStatus f) 3 3 0)
      else ({ x with held := some m }, s)
    if -16 ≤ e ∧ e ≤ 16 then
      let n := x.good + 1
      let s := s.setFacet f { x with good := n, phase := slewed e }
      if s.inResync f then
        if n = 4 then (s.rfSet (.fctTickStatus f) 0 0 1).bb 0x4012 none f.val 0 else s
      else
        let s := s.rfSet (.fctTickStatus f) 0 0 1
        if 2 ≤ n then s.rfSet (.fctTickStatus f) 2 2 0 else s
    else
      let s := s.setFacet f { x with good := 0, phase := e, stepNext := some e }
      let s := ((s.rfSet (.fctTickStatus f) 4 4 1).rfSet (.fctTickStatus f) 2 2 1).rfSet (.fctTickStatus f) 0 0 0
      s.bb 0x4010 none f.val (BitVec.ofInt 8 (max (-128) (min 127 e))).toNat

/-! ## Bringing a Facet back into step (R42, R43) -/

/-- RESYNC_START: the PSC releases the Facet's reset (R42, tick T). -/
def State.resyncStart (s : State) (f : FacetId) : State :=
  if !(s.inResync f) then s
  else
    let s := { s with chord := { s.chord with lost := s.chord.lost.erase f.val } }
    (s.rgReset (.fctTickStatus f)).setFacet f { Facet.empty with inReset := false, startAt := some s.tick }

/-- RESYNC_START (R42). -/
def execResyncStart (f : FacetId) (s : State) : Host.Outcome State Fault Refusal := .next (s.resyncStart f)

/-- RESYNC_TABLE_LOAD: the PSC writes both banks of the Facet's SLOT, ROUTE and GMAP copies with the active contents (R35, R42).
The copies are held as views of the banks, so that both banks of the Facet show the bank now active. -/
def State.resyncLoad (s : State) (f : FacetId) : State :=
  if s.inResync f && s.rb (.fctTickStatus f) 0 then
    s.setFacet f { s.facet f with loaded := true, active := BitVec.ofNat 4 (s.rf .locSwapReq 15 12) }
  else s

/-- RESYNC_TABLE_LOAD (R42). -/
def execResyncTableLoad (f : FacetId) (s : State) : Host.Outcome State Fault Refusal := .next (s.resyncLoad f)

/-- The next boundary ends the sequence: RESYNC, GTD_HOLD and REQ_HOLD are cleared (R42), and a swap that waited is requested
(R43). -/
def State.resyncDone (s : State) : State :=
  let s := (List.range 12).foldl (fun s i =>
    let f : FacetId := Fin.ofNat 12 i
    if (s.facet f).loaded && s.inResync f && s.rb (.fctTickStatus f) 0 then
      (s.rfSet (.fctTickStatus f) 3 1 0).setFacet f { s.facet f with loaded := false }
    else s) s
  if s.psc.swapWait = 0 || s.loading then s
  else { (s.rfSet .locSwapReq 3 0 (s.rf .locSwapReq 3 0 ||| s.psc.swapWait)) with psc := { s.psc with swapWait := 0 } }

/-! ## The boundary of the tick master (R33, R38–R40) -/

/-- The captured classes swap (R33, R34, R288). -/
def State.swapBanks (s : State) : State :=
  match s.psc.captured with
  | none => s
  | some (set, _) =>
    let c := set.toNat
    if c = 0 then s else
    let s := s.rfSet .locSwapReq 3 0 (s.rf .locSwapReq 3 0 &&& (15 - c))
    let s := (s.rfSet .locSwapReq 11 8 c).rfSet .locSwapReq 15 12 (s.rf .locSwapReq 15 12 ^^^ c)
    { (s.rgSet .locSwapTick (BitVec.ofNat 64 s.tick)) with net := { s.net with slotHold := s.net.slotHold || c % 2 == 1 } }

/-- The captured adjust, or one slew step, changes LOC_TIME_OFS; a new backward adjust replaces a slew in progress (R40). The
commands whose adjust is applied are returned. -/
def State.adjustTime (s : State) : State × Option Nat :=
  let d := s.nextAdj
  let (slew, job) : Nat × Option Nat := match s.psc.captured with
    | some (_, some (a, j)) => (if 0 ≤ a then 0 else a.natAbs - 1, j)
    | _ => (s.psc.slew - 1, none)
  let s := s.rgSet .locTimeOfs (BitVec.ofInt 64 (s.timeOfs + d))
  let s := s.rfSet .locTickStatus 3 3 (b2n (decide (0 < slew)))
  ({ s with psc := { s.psc with slew := slew, captured := none } }, job)

end Sys2Proof.Machine
end

