-- ==== Sys2Proof/Machine/Chord.lean ====
section
/-! DEFINITION. The Chord: strands, training, the lane map, transfer units, replay, credits, failover, heartbeats and the loss of
a Facet (R303–R326, R481). -/

namespace Sys2Proof.Machine

/-! ## Strands -/

def stKey (f : FacetId) (st : StrandId) : Nat := 6 * f.val + st.val
def State.strand (s : State) (f : FacetId) (st : StrandId) : Strand := s.chord.strands.get Strand.empty (stKey f st)
def State.setStrand (s : State) (f : FacetId) (st : StrandId) (x : Strand) : State :=
  { s with chord := { s.chord with strands := s.chord.strands.set Strand.empty (stKey f st) x } }

/-- One direction of a strand. -/
def Strand.dir (x : Strand) : Dir → ChDir
  | .fc => x.fc
  | .cf => x.cf
def Strand.setDir (x : Strand) (d : Dir) (y : ChDir) : Strand :=
  match d with | .fc => { x with fc := y } | .cf => { x with cf := y }
def flipDir : Dir → Dir
  | .fc => .cf
  | .cf => .fc
def dirNum : Dir → Nat
  | .fc => 0
  | .cf => 1

/-- STATE of a strand (R313): 0 DOWN, 1 DETECT, 2 LANES, 3 WIDTH, 4 FRAME, 5 LATENCY, 6 INIT, 7 UP, 8 DISABLED. -/
def State.stState (s : State) (f : FacetId) (st : StrandId) : Nat := s.rf (.chdStrandStatus f st) 3 0

/-- Enter a state; its time limit starts. -/
def State.setStState (s : State) (f : FacetId) (st : StrandId) (n : Nat) : State :=
  (s.rfSet (.chdStrandStatus f st) 3 0 n).setStrand f st { s.strand f st with since := s.tick }

/-- Log an event of the Chord: the Facet in INST (R487). -/
def State.bbChord (s : State) (code : Nat) (pid : Option Pid) (f : FacetId) (arg : Nat) : State := s.bb code pid f.val arg

/-- The strands of a Facet that are UP. -/
def State.upStrands (s : State) (f : FacetId) : List Nat := (List.range 6).filter fun i => s.stState f (Fin.ofNat 6 i) == 7

/-- The strand that carries a plane when the strands of `ts` are UP (R319). -/
def carrier (ts : List Nat) (p : Nat) : Nat :=
  let own := p / 2
  if ts.contains own || ts.isEmpty then own
  else
    let us := (List.range 6).filter fun u => !(ts.contains u)
    ts.getD (us.findIdx (· == own) % ts.length) own

/-- FCT_CHD_REMAP: the carriers of the planes and the strands that are UP (R319). -/
def State.setRemap (s : State) (f : FacetId) : State :=
  let ts := s.upStrands f
  let v := (List.range 12).foldl (fun v p => v + carrier ts p * 2 ^ (3 * p)) 0
  s.rgSet (.fctChdRemap f) (BitVec.ofNat 64 (v + ts.foldl (fun n t => n + 2 ^ t) 0 * 2 ^ 36))

/-- The plane list of a strand: its own pair, then the pairs appended to it in order (R304, R319). -/
def State.planeList (s : State) (f : FacetId) (st : StrandId) : List Nat :=
  let ts := s.upStrands f
  let extra := (List.range 6).filter fun u => u != st.val && carrier ts (2 * u) == st.val
  [2 * st.val, 2 * st.val + 1] ++ extra.flatMap fun u => [2 * u, 2 * u + 1]

/-! ## Credits and open packets (R306, R310, R311) -/

/-- The units that a Chord buffer holds for each plane (R310). -/
def chBuf (vn : Nat) : Nat := match vn with | 0 => 32 | 1 => 16 | 2 => 16 | 3 => 96 | 4 => 192 | 5 => 8 | _ => 0

def credKey (f : FacetId) (p vn : Nat) (d : Dir) : Nat := ((12 * f.val + p) * 8 + vn) * 2 + dirNum d
def State.cred (s : State) (f : FacetId) (p vn : Nat) (d : Dir) : ChCred := s.chord.creds.get ChCred.empty (credKey f p vn d)
def State.setCred (s : State) (f : FacetId) (p vn : Nat) (d : Dir) (c : ChCred) : State :=
  { s with chord := { s.chord with creds := s.chord.creds.set ChCred.empty (credKey f p vn d) c } }

def openKey (f : FacetId) (p : Nat) (d : Dir) : Nat := (12 * f.val + p) * 2 + dirNum d
def State.openPkt (s : State) (f : FacetId) (p : Nat) (d : Dir) : Option ChOpen := s.chord.opens.get none (openKey f p d)
def State.setOpen (s : State) (f : FacetId) (p : Nat) (d : Dir) (o : Option ChOpen) : State :=
  { s with chord := { s.chord with opens := s.chord.opens.set none (openKey f p d) o } }

/-- `n` returned credits of a direction are accepted by its sender (R307, R311). -/
def State.creditBack (s : State) (f : FacetId) (p vn : Nat) (d : Dir) (n : Nat) : State :=
  let c := s.cred f p vn d
  s.setCred f p vn d { c with away := c.away - n, rf := (c.rf + n) % 256 }

/-! ## Lanes (R303, R313) -/

/-- The good lanes of a set. -/
def laneCount (v : BitVec 25) : Nat := ((List.range 25).filter fun i => v.getLsbD i).length

/-- The width that a number of good lanes gives: 2 full, 1 half, 0 failure (R313). -/
def laneWidth (n : Nat) : Nat := if 24 ≤ n then 2 else if 12 ≤ n then 1 else 0

/-- The physical lane of a logical lane: the i-th lowest good one (R303). -/
def laneOf (v : BitVec 25) (i : Nat) : Option Nat := ((List.range 25).filter fun l => v.getLsbD l)[i]?

/-- The physical lanes that carry logical lanes: 24 at full width, 12 at half width (R303). -/
def activeLanes (v : BitVec 25) (width : Nat) : List Nat :=
  (List.range (if width = 2 then 24 else if width = 1 then 12 else 0)).filterMap (laneOf v)

/-- The lane map of a strand. -/
def laneReg (f : FacetId) (st : StrandId) : Reg := .locLaneMap (Fin.ofNat 72 (6 * f.val + st.val))

/-- The active lanes of a direction of a strand under the lane map and its width. -/
def State.lanes (s : State) (f : FacetId) (st : StrandId) : Dir → List Nat
  | .fc => activeLanes ((s.rg (laneReg f st)).extractLsb' 0 25) (s.rf (.chdStrandStatus f st) 5 4)
  | .cf => activeLanes ((s.rg (laneReg f st)).extractLsb' 25 25) (s.rf (.chdStrandStatus f st) 7 6)

/-- CHD_EYE.ACTIVE of every lane of a strand: whether it carries a logical lane. -/
def State.showLanes (s : State) (f : FacetId) (st : StrandId) : State :=
  let fc := s.lanes f st .fc
  let cf := s.lanes f st .cf
  (List.range 50).foldl (fun (s : State) l =>
    s.rfSet (.chdEye f st (Fin.ofNat 50 l)) 22 22 (b2n (if l < 25 then fc.contains l else cf.contains (l - 25)))) s

/-! ## Losing strands and Facets (R318–R320, R325) -/

/-- Every credit, open packet, waiting packet and unacknowledged unit of a Facet is gone; each credit counts as returned (R325, R482). -/
def State.chordClear (s : State) (f : FacetId) : State :=
  let mine (k n : Nat) : Bool := k / n == f.val
  let held : List NetPkt := (s.chord.tx.filter fun e => mine e.1 24).flatMap (·.2) ++ (s.chord.rx.filter fun e => mine e.1 24).flatMap (·.2)
  let s : State := held.foldl (fun (s : State) p => s.lose p.hdr) s
  let c := s.chord
  let c : Chord := { c with
    creds := c.creds.filter fun e => !(mine e.1 192), opens := c.opens.filter fun e => !(mine e.1 24),
    tx := c.tx.filter fun e => !(mine e.1 24), cur := c.cur.filter fun e => !(mine e.1 24), rx := c.rx.filter fun e => !(mine e.1 24),
    dues := c.dues.filter fun e => !(mine e.1 24), facetCut := c.facetCut.filter fun e => !(mine e.1 192),
    cut := c.cut.filter fun e => !(mine e.1 192) }
  (List.range 6).foldl (fun (s : State) i =>
    let st : StrandId := Fin.ofNat 6 i
    s.setStrand f st { s.strand f st with fc := ChDir.empty, cf := ChDir.empty, markTx := none, echoTx := false }) { s with chord := c }

/-- Every strand of a Facet leaves service; a DISABLED one stays so. -/
def State.strandsOff (s : State) (f : FacetId) : State :=
  let s := (List.range 6).foldl (fun s i =>
    let st : StrandId := Fin.ofNat 6 i
    if s.stState f st = 8 then s
    else (((s.setStState f st 0).rfSet (.chdStrandStatus f st) 7 4 0).rfSet (.chdStrandCtl f st) 1 0 0).showLanes f st) s
  s.setRemap f

/-- Answer the requests that wait for a Facet's clusters with ERR TARGET_UNAVAILABLE (R325). -/
def State.answerLost (s : State) (f : FacetId) : State :=
  let mine (x : MsgKind × Msg) : Bool := vnOfMsg (msgCode x.1) == 1 && x.2.dst.toNat / 3 == f.val && decide (x.2.dst.toNat < 36)
  (s.msgs.filter mine).foldl (fun s x => (s.arrived x.1 x.2).replyErr x.2 stUnavailable) s

/-- The partitions with a cluster on a Facet. -/
def State.facetPids (s : State) (f : FacetId) : List Nat :=
  (List.range 3).foldl (fun l c => match s.owner (Fin.ofNat 36 (3 * f.val + c)) with | some p => insertNat p.val l | none => l) []

/-- The Facet's heartbeat is lost: event 0x4028, every strand down, its units discarded, and every partition with a cluster on it
goes down (R325). -/
def State.facetLost (s : State) (f : FacetId) : State :=
  if s.chord.lost.contains f.val then s else
  let s := s.bbChord 0x4028 none f 0
  let s := ((s.strandsOff f).chordClear f).answerLost f
  let s := { s with chord := { s.chord with lost := insertNat f.val s.chord.lost } }
  (s.facetPids f).foldl (fun s p => s.ucd (Fin.ofNat 16 p) 0x4028 0xFFFF 0) s

/-- A strand in UP leaves it; its planes move to the survivors (R313, R319). -/
def State.strandEnd (s : State) (f : FacetId) (st : StrandId) : State :=
  let s := ((s.setStState f st 0).rfSet (.chdStrandStatus f st) 7 4 0).rfSet (.chdStrandCtl f st) 1 0 0
  ((s.setStrand f st { s.strand f st with markTx := none, echoTx := false, closing := none }).showLanes f st).setRemap f

/-- A strand goes down: its planes move to the survivors, and without a survivor the Facet is lost (R318, R319). Its
unacknowledged units wait for the CLOSE of the other end. -/
def State.strandDown (s : State) (f : FacetId) (st : StrandId) : State :=
  if s.stState f st != 7 then s else
  let s := s.strandEnd f st
  if (s.upStrands f).isEmpty then s.facetLost f else s

/-- An idle Facet: each of its clusters is unassigned or belongs to a parked partition, so the loss of its last strand is orderly and
is no heartbeat loss (R326). -/
def State.facetIdle (s : State) (f : FacetId) : Bool :=
  (s.facetPids f).all fun p => s.rf (.pscPartStatus (Fin.ofNat 16 p)) 2 0 == 4

/-- Every unit that a strand has sent is acknowledged, and no packet is open at its senders (R318, step 1). -/
def State.strandDrained (s : State) (f : FacetId) (st : StrandId) : Bool :=
  let x := s.strand f st
  x.fc.unacked.isEmpty && x.cf.unacked.isEmpty && (s.planeList f st).all fun p =>
    (s.chord.cur.get (0, []) (openKey f p .fc)).2.isEmpty && (s.chord.cur.get (0, []) (openKey f p .cf)).2.isEmpty

/-- An orderly take-down ends: with its units acknowledged, or 64 Net cycles after it began (R318, R326). -/
def State.takeDownEnd (s : State) (f : FacetId) (st : StrandId) : State :=
  match (s.strand f st).closing with
  | none => s
  | some t =>
    if !(s.strandDrained f st) && decide (s.now < t + 64) then s
    else if s.upStrands f == [st.val] && s.facetIdle f then s.strandEnd f st
    else s.strandDown f st

/-- TAKE_DOWN: an orderly take-down. No new packet is sent, and the strand goes down once its units are acknowledged, after 64 Net cycles
at most (R318, R326). -/
def State.takeDown (s : State) (f : FacetId) (st : StrandId) : State :=
  if s.stState f st != 7 then s else
  ((s.rfSet (.chdStrandCtl f st) 1 1 1).setStrand f st { s.strand f st with closing := some s.now }).takeDownEnd f st

/-- TAKE_DOWN (R318). -/
def execTakeDown (f : FacetId) (st : StrandId) (s : State) : Host.Outcome State Fault Refusal := .next (s.takeDown f st)
/-- STRAND_DOWN (R318). -/
def execStrandDown (f : FacetId) (st : StrandId) (s : State) : Host.Outcome State Fault Refusal := .next (s.strandDown f st)

/-! ## Training (R312–R315, R322) -/

/-- Training starts: from DOWN at once, from UP after the strand has gone down; DISABLED ignores it (R313, R318). The strands of a Facet that
is held in reset stay down, also after an abort of R42 (R43). -/
def State.train (s : State) (f : FacetId) (st : StrandId) : State :=
  let s := s.strandDown f st
  if (s.facet f).inReset then s
  else if s.stState f st = 0 then (s.setStState f st 1).rfSet (.chdStrandCtl f st) 0 0 1 else s

/-- TRAIN (R313). -/
def execTrain (f : FacetId) (st : StrandId) (s : State) : Host.Outcome State Fault Refusal := .next (s.train f st)

/-- The tick U of R42: every strand is UP or DISABLED and one is UP. -/
def State.trainedAt (s : State) (f : FacetId) : State :=
  let x := s.facet f
  if x.trainAt.isNone && !x.inReset && !(s.upStrands f).isEmpty &&
      (List.range 6).all (fun i => s.stState f (Fin.ofNat 6 i) == 7 || s.stState f (Fin.ofNat 6 i) == 8) then
    s.setFacet f { x with trainAt := some s.tick }
  else s

/-- An attempt fails: event 0x4021 with the strand's state and the cause, whose code the specification does not give; the strand
retries at once, and after three failures it is DISABLED with event 0x4022 (R314). -/
def State.trainFail (s : State) (f : FacetId) (st : StrandId) : State :=
  let (cause, s) := s.draw
  let s := s.bbChord 0x4021 none f (s.stState f st + fld cause 3 0 * 2 ^ 4)
  let n := s.rf (.chdStrandStatus f st) 25 24 + 1
  let s := ((s.rfSet (.chdStrandStatus f st) 25 24 (min 3 n)).rfSet (.chdStrandStatus f st) 7 4 0).showLanes f st
  if 3 ≤ n then
    (((s.setStState f st 8).rfSet (.chdStrandCtl f st) 0 0 0).bbChord 0x4022 none f 0).trainedAt f
  else (s.setStState f st 1).rfSet (.chdStrandCtl f st) 0 0 0

/-- STRAND_DETECT_DONE (R313). -/
def execStrandDetectDone (f : FacetId) (st : StrandId) (s : State) : Host.Outcome State Fault Refusal :=
  .next (if s.stState f st = 1 then s.setStState f st 2 else s)

/-- STRAND_LANES_DONE: the grades of both ends for both directions (R313). -/
def execStrandLanesDone (f : FacetId) (st : StrandId) (fcC fcF cfC cfF : BitVec 25) (s : State) : Host.Outcome State Fault Refusal :=
  .next (if s.stState f st = 2 then
      (s.setStState f st 3).setStrand f st { (s.setStState f st 3).strand f st with goodF := fcC &&& fcF, goodC := cfC &&& cfF }
    else s)

/-- The sequence of R42 is abandoned with event 0x4013: the Facet's strands go down and stay down, and RESYNC stays 1 (R42, R43). -/
def State.resyncAbort (s : State) (f : FacetId) : State :=
  (((s.strandsOff f).chordClear f).rfSet (.fctTickStatus f) 0 0 0 |>.setFacet f Facet.empty).bb 0x4013 none f.val 0

/-- FACET_PLL_LOCK_TIMEOUT: the PLLs have not locked by the end of tick T + 20 (R42). -/
def execFacetPllLockTimeout (f : FacetId) (s : State) : Host.Outcome State Fault Refusal :=
  let x := s.facet f
  .next (match x.startAt with
    | some t => if s.inResync f && x.trainAt.isNone && !x.inReset && decide (t + 20 < s.tick) then s.resyncAbort f else s
    | none => s)

/-- RESYNC_LOCK_TIMEOUT: four good markers have not followed one another by the end of tick U + 64 (R42). -/
def execResyncLockTimeout (f : FacetId) (s : State) : Host.Outcome State Fault Refusal :=
  let x := s.facet f
  .next (match x.trainAt with
    | some u => if s.inResync f && !(s.rb (.fctTickStatus f) 0) && decide (u + 64 < s.tick) then s.resyncAbort f else s
    | none => s)

/-- STRAND_WIDTH_DONE: the good sets enter the lane map, which training only clears, and the widths are chosen (R312, R313). -/
def execStrandWidthDone (f : FacetId) (st : StrandId) (s : State) : Host.Outcome State Fault Refusal :=
  .next (if s.stState f st ≠ 3 then s else
    let m := s.rg (laneReg f st)
    let x := s.strand f st
    let fc := m.extractLsb' 0 25 &&& x.goodF
    let cf := m.extractLsb' 25 25 &&& x.goodC
    let s := s.rgSet (laneReg f st) (BitVec.ofNat 64 (fc.toNat + cf.toNat * 2 ^ 25))
    let wf := laneWidth (laneCount fc)
    let wc := laneWidth (laneCount cf)
    if wf = 0 ∨ wc = 0 then s.trainFail f st
    else (((s.rfSet (.chdStrandStatus f st) 5 4 wf).rfSet (.chdStrandStatus f st) 7 6 wc).showLanes f st).setStState f st 4)

/-- STRAND_FRAME_DONE: framing succeeds, or fails with event 0x4029 and MISMATCH (R313, R315). -/
def execStrandFrameDone (f : FacetId) (st : StrandId) (ok : Bool) (s : State) : Host.Outcome State Fault Refusal :=
  .next (if s.stState f st ≠ 4 then s
    else if ok then s.setStState f st 5
    else ((s.bbChord 0x4029 none f 0).rfSet (.chdStrandStatus f st) 29 29 1).trainFail f st)

/-- STRAND_LATENCY_DONE: more than 160 Net cycles fails, more than 48 is SLOW; INIT begins a new epoch with sequence numbers and
position counts at 0 (R26, R308, R313, R322). -/
def execStrandLatencyDone (f : FacetId) (st : StrandId) (lat : Nat) (s : State) : Host.Outcome State Fault Refusal :=
  .next (if s.stState f st ≠ 5 then s else
    let s := (s.rfSet (.chdStrandStatus f st) 23 16 (min 255 lat)).rfSet (.chdStrandStatus f st) 26 26 (b2n (decide (48 < lat)))
    if 160 < lat then s.trainFail f st
    else
      let s := (s.setStState f st 6).rfSet (.chdStrandStatus f st) 15 8 (s.rf (.chdStrandStatus f st) 15 8 + 1)
      s.setStrand f st { s.strand f st with fc := ChDir.empty, cf := ChDir.empty })

/-- STRAND_INIT_DONE: the strand is UP with event 0x4020; planes that return to it wait for MOVE (R310, R313, R314, R319,
R321). The widths stand first in ARG; the specification gives the bypassed lanes no width there. -/
def execStrandInitDone (f : FacetId) (st : StrandId) (s : State) : Host.Outcome State Fault Refusal :=
  .next (if s.stState f st ≠ 6 then s else
    let fresh := (s.upStrands f).isEmpty
    let s := if fresh then s.chordClear f else s
    let x := s.strand f st
    let w := !fresh && !(s.inResync f)
    let s := s.setStrand f st { x with fc := { x.fc with await := w }, cf := { x.cf with await := w }, mark := s.tick, echo := s.tick }
    let s := ((s.setStState f st 7).rfSet (.chdStrandStatus f st) 25 24 0).rfSet (.chdStrandCtl f st) 0 0 0
    let (lanes, s) := s.draw
    let s := s.bbChord 0x4020 none f
      (s.rf (.chdStrandStatus f st) 5 4 + s.rf (.chdStrandStatus f st) 7 6 * 2 ^ 4 + fld lanes 39 0 * 2 ^ 8)
    (s.setRemap f).trainedAt f)

/-- The time limit of a training state in ticks (R313). -/
def trainLimit (n : Nat) : Nat := match n with | 1 => 100 | 2 => 200 | 3 => 10 | 4 => 50 | 5 => 10 | _ => 10

/-- TRAINING_TIMEOUT (R313, R314). -/
def execTrainingTimeout (f : FacetId) (st : StrandId) (s : State) : Host.Outcome State Fault Refusal :=
  let n := s.stState f st
  .next (if 1 ≤ n ∧ n ≤ 6 ∧ s.expired (s.strand f st).since (trainLimit n) then s.trainFail f st else s)

/-- LANE_MAP_WRITE: the PSC may set bits only while the strand is DOWN or DISABLED; any other write is dropped with event 0x0013
(R312). -/
def State.laneMapWrite (s : State) (f : FacetId) (st : StrandId) (v : Word) : State :=
  if s.stState f st = 0 ∨ s.stState f st = 8 then s.rgWrite (laneReg f st) false v
  else s.bb 0x0013 none 0 (f.val + st.val * 2 ^ 4)

/-- LANE_MAP_WRITE (R312). -/
def execLaneMapWrite (f : FacetId) (st : StrandId) (v : Word) (s : State) : Host.Outcome State Fault Refusal :=
  .next (s.laneMapWrite f st v)

/-! ## Transfer units (R305–R309, R322) -/

abbrev tuSeq (u : TUnit) : Nat := u.trailer.toNat / 2 ^ 16 % 256
abbrev tuRet (u : TUnit) : Nat := u.trailer.toNat / 2 ^ 24 % 32
abbrev tuEpoch (u : TUnit) : Nat := u.trailer.toNat / 2 ^ 30 % 4

/-- The trailer's CRC is good: polynomial 0x8BB7, initial value 0xFFFF, over bytes 0–31 and trailer bits [31:16] (R305). -/
def tuCrcOk (u : TUnit) : Bool :=
  crc16 0x8BB7 (crc16 0x8BB7 0xFFFF u.data.toNat 32) (u.trailer.toNat / 2 ^ 16) 2 == u.trailer.toNat % 2 ^ 16

/-- The receiver has discarded a unit out of turn: it discards until the expected one arrives, and sends NAK (R308). -/
def ChDir.nak (d : ChDir) (now : Nat) : ChDir := if d.skip then d else { d with skip := true, naks := d.naks + 1, nakAt := now }

/-- The trailer of a unit: CRC, SEQ, RET, POISON and EPOCH (R305). -/
def chTrailer (data : BitVec 256) (seq ret : Nat) (poison : Bool) (epoch : Nat) : BitVec 32 :=
  let hi := seq % 256 + ret % 32 * 2 ^ 8 + b2n poison * 2 ^ 13 + epoch % 4 * 2 ^ 14
  BitVec.ofNat 32 (crc16 0x8BB7 (crc16 0x8BB7 0xFFFF data.toNat 32) hi 2 + hi * 2 ^ 16)

/-- A credit return that waits for a plane of the strand's own pair, as its RET code: plane, network, units (R307). -/
def State.credDue (s : State) (f : FacetId) (st : StrandId) (o : Dir) : Option (Nat × Nat × Nat) :=
  ([0, 1].flatMap fun i => [0, 1, 2, 3, 5].map fun vn => (2 * st.val + i, vn)).findSome? fun x =>
    let n := (s.cred f x.1 x.2 o).pend
    if n = 0 then none else some (x.1, x.2, if x.2 = 5 then 1 else min 2 n)

/-- The return that the next sequenced unit of a direction carries for the opposite one, which is then sent: the pending ACK count ahead of a
NAK, and then a credit (R307). -/
def State.takeRet (s : State) (f : FacetId) (st : StrandId) (dir : Dir) : Nat × State :=
  let o := flipDir dir
  let x := s.strand f st
  let d := x.dir o
  if 0 < d.acks then (min 7 d.acks, s.setStrand f st (x.setDir o { d with acks := d.acks - min 7 d.acks }))
  else if 0 < d.naks then (0x1A, s.setStrand f st (x.setDir o { d with naks := d.naks - 1 }))
  else match s.credDue f st o with
    | none => (0, s)
    | some (p, vn, n) =>
      let c := s.cred f p vn o
      let s := s.setCred f p vn o { c with pend := c.pend - n, rc := (c.rc + n) % 256 }
      (if vn = 5 then 0x18 + p % 2 else (if p % 2 = 1 then 8 else 16) + 2 * vn + n - 1, s)

/-- Act on the return that an accepted unit carries for the opposite direction (R307). -/
def State.actRet (s : State) (f : FacetId) (st : StrandId) (d : Dir) (ret : Nat) : State :=
  let o := flipDir d
  let x := s.strand f st
  let y := x.dir o
  if 1 ≤ ret ∧ ret ≤ 7 then s.setStrand f st (x.setDir o { y with unacked := y.unacked.drop ret, sent := y.sent - ret, fails := 0 })
  else if 8 ≤ ret ∧ ret ≤ 0x17 then s.creditBack f (2 * st.val + ret / 8 % 2) (ret / 2 % 4) o (ret % 2 + 1)
  else if ret = 0x18 ∨ ret = 0x19 then s.creditBack f (2 * st.val + ret % 2) 5 o 1
  else if ret = 0x1A then s.setStrand f st (x.setDir o { y with nakIn := y.nakIn + 1 })
  else s

/-- A complete packet is handed on (R306, R310): at the Centroid it waits for its router, with its Chord buffer, unless the endpoint itself
consumes it; at the Facet it is delivered, and its credits wait to be returned. -/
def State.chordDone (s : State) (f : FacetId) (p : Nat) (d : Dir) (q : NetPkt) : State :=
  let vn := hVn q.hdr
  let k := openKey f p d
  if d = .fc ∧ vn ≠ 5 then
    let due : List Nat := s.chord.dues.get [] k
    let q := if vn = 4 then { q with due := due.head? } else q
    { s with chord := { s.chord with rx := s.chord.rx.set [] k (s.chord.rx.get [] k ++ [q]), dues := if vn = 4 then s.chord.dues.set [] k due.tail else s.chord.dues } }
  else
    let c := s.cred f p vn d
    let s := if vn = 4 then s else s.setCred f p vn d { c with occ := c.occ - q.units, pend := c.pend + q.units }
    match s.msgOf q.hdr with
    | some x => { s with net := { s.net with flying := s.net.flying.erase x } }
    | none => s

/-- A packet unit of a plane is taken: it counts in the receiver's buffer, and with its last unit the packet is complete (R306, R310). -/
def State.takeUnit (s : State) (f : FacetId) (st : StrandId) (p : Nat) (d : Dir) (data : BitVec 256) (poison : Bool) : State :=
  let o := s.openPkt f p d
  let hdr := match o with | some x => x.hdr | none => data
  let got := match o with | some x => x.data ++ [(data, poison)] | none => []
  let vn := hVn hdr
  let s := if hPriv hdr || vn == 5 then s else s.portCount 1 (hPid hdr) (6 * f.val + st.val) (dirNum d) 1
  let s := s.activity (10 + f.val) (hPriv hdr || vn == 5) (hPid hdr) 1
  let c := s.cred f p vn d
  let s := if vn = 4 then s else s.setCred f p vn d { c with occ := c.occ + 1 }
  if got.length < hDu hdr then s.setOpen f p d (some { hdr := hdr, data := got, last := s.tick })
  else (s.setOpen f p d none).chordDone f p d { inp := 4, hdr := hdr, data := got, demo := false, due := none }

/-! ## The sender of a strand (R304, R306–R308, R310) -/

/-- The packet that a sender may begin on a plane: the first that waits with credits for all its units and room in the replay buffer, GTD
first; none while the strand is being taken down, while the plane has not moved to the strand, or while an audit holds its
network (R306, R308, R310, R318, R321, R481). -/
def State.mayBegin (s : State) (f : FacetId) (st : StrandId) (dir : Dir) (p : Nat) : Option NetPkt :=
  let d := (s.strand f st).dir dir
  if (s.strand f st).closing.isSome || (d.await && decide (p / 2 = st.val)) then none
  else
    let q : List NetPkt := s.chord.tx.get [] (openKey f p dir)
    let ok (x : NetPkt) : Bool :=
      let vn := hVn x.hdr
      let c := s.cred f p vn dir
      decide (d.unacked.length + x.units ≤ 192) && !(s.fatal && vn != 5) && (vn == 4 || (!c.hold && decide (c.away + x.units ≤ chBuf vn)))
    (q.find? fun x => hVn x.hdr == 5 && ok x).or ((q.find? fun x => hVn x.hdr == 4 && ok x).or (q.find? ok))

/-- A sequenced unit is sent: it takes the next SEQ and the return that waits, and stays in the replay buffer (R307, R308). -/
def State.sendSeq (s : State) (f : FacetId) (st : StrandId) (dir : Dir) (p : Nat) (data : BitVec 256) (poison : Bool) : TUnit × State :=
  let (ret, s) := s.takeRet f st dir
  let x := s.strand f st
  let d := x.dir dir
  let tr := chTrailer data d.next ret poison (s.rf (.chdStrandStatus f st) 15 8)
  let u : ChUnit := { seq := d.next, plane := p, data := data, trailer := tr }
  ({ data := data, trailer := tr }, s.setStrand f st (x.setDir dir { d with
    unacked := d.unacked ++ [u], sent := d.sent + 1, next := (d.next + 1) % 256 }))

/-- A unit of a network takes its Chord credit (R310). -/
def State.takeCred (s : State) (f : FacetId) (p vn : Nat) (d : Dir) : State :=
  let c := s.cred f p vn d
  if vn = 4 then s else s.setCred f p vn d { c with away := c.away + 1 }

/-- The unit of the next position of a direction (R304, R306–R308): after a NAK the next unacknowledged unit, with its original trailer, in a
position of its plane; then the next unit of the plane's open packet, the header of a packet that may begin, a LINK RTNONLY unit for
a return that waits, or IDLE. -/
def State.chSend (s : State) (f : FacetId) (st : StrandId) (dir : Dir) : TUnit × State :=
  let x := s.strand f st
  let d := x.dir dir
  let list := s.planeList f st
  let p := list.getD (d.pos % list.length) (2 * st.val)
  let k := openKey f p dir
  let idle : TUnit × State := ({ data := 0, trailer := chTrailer 0 d.next 31 false (s.rf (.chdStrandStatus f st) 15 8) }, s)
  match d.unacked[d.sent]? with
  | some u => if u.plane = p then ({ data := u.data, trailer := u.trailer }, s.setStrand f st (x.setDir dir { d with sent := d.sent + 1 })) else idle
  | none =>
    let cur : Nat × List (BitVec 256 × Bool) := s.chord.cur.get (0, []) k
    match cur.2 with
    | u :: rest =>
      let s := { s with chord := { s.chord with cur := s.chord.cur.set (0, []) k (if rest.isEmpty then (0, []) else (cur.1, rest)) } }
      (s.takeCred f p cur.1 dir).sendSeq f st dir p u.1 u.2
    | [] =>
      match s.mayBegin f st dir p with
      | some q =>
        let c := s.chord
        let cur := c.cur.set (0, []) k (if q.data.isEmpty then (0, []) else (hVn q.hdr, q.data))
        let dues := match q.due with
          | some t => c.dues.set [] k (c.dues.get [] k ++ [t])
          | none => c.dues
        let s := { s with chord := { c with tx := c.tx.set [] k ((c.tx.get [] k).erase q), cur := cur, dues := dues } }
        (s.takeCred f p (hVn q.hdr) dir).sendSeq f st dir p q.hdr false
      | none =>
        let o := x.dir (flipDir dir)
        if d.unacked.length < 192 ∧ (0 < o.acks ∨ 0 < o.naks ∨ (s.credDue f st (flipDir dir)).isSome) then
          s.sendSeq f st dir p (BitVec.ofNat 256 (6 + 4 * 2 ^ 8 + p * 2 ^ 16)) false
        else idle

/-- TRANSFER_UNIT: the unit of the next position arrives, with the bits of `flip` changed on the way; the receiver accepts it, discards it or
asks for a replay (R304–R309, R322). A LINK unit's own effect is its own command. -/
def State.unitIn (s : State) (f : FacetId) (st : StrandId) (dir : Dir) (u : TUnit) : State :=
  let x := s.strand f st
  let d := x.dir dir
  let list := s.planeList f st
  let plane := list.getD (d.pos % list.length) (2 * st.val)
  let d := { d with pos := d.pos + 1 }
  if !(tuCrcOk u) then
    let s := s.rfInc (.chdStrandErr f st) 15 0 1
    let s := s.setStrand f st { (x.setDir dir (d.nak s.now)) with crc := x.crc + 1 }
    if x.crc = 256 then ((s.bbChord 0x4026 none f 0).rfSet (.chdStrandStatus f st) 30 30 1).bbChord 0x4024 none f 0 else s
  else if tuEpoch u ≠ s.rf (.chdStrandStatus f st) 15 8 % 4 then
    (s.rfInc (.chdStrandErr f st) 47 32 1).setStrand f st (x.setDir dir d)
  else if tuRet u = 31 then s.setStrand f st (x.setDir dir (if tuSeq u = d.exp then d else d.nak s.now))
  else if tuSeq u = d.exp then
    let isLink := (s.openPkt f plane dir).isNone && hVn u.data == 6
    let d := { d with exp := (d.exp + 1) % 256, skip := false, acks := d.acks + 1 }
    let s := s.setStrand f st (x.setDir dir d)
    let s := if isLink || (d.await && decide (plane / 2 = st.val)) then s else s.takeUnit f st plane dir u.data (u.trailer.getLsbD 29)
    s.actRet f st dir (tuRet u)
  else if (d.exp + 256 - tuSeq u) % 256 ≤ 192 then s.setStrand f st (x.setDir dir d)
  else s.setStrand f st (x.setDir dir (d.nak s.now))

/-- The unit that arrives: what the sender sends, with the bits changed on the way. -/
def tuFlip (u : TUnit) (flip : BitVec 288) : TUnit :=
  { data := u.data ^^^ flip.extractLsb' 0 256, trailer := u.trailer ^^^ flip.extractLsb' 256 32 }

/-- TRANSFER_UNIT (R305–R309, R322). -/
def execTransferUnit (f : FacetId) (st : StrandId) (dir : Dir) (flip : BitVec 288) (s : State) : Host.Outcome State Fault Refusal :=
  .next (if s.stState f st ≠ 7 then s else
    let (u, s) := s.chSend f st dir
    (s.unitIn f st dir (tuFlip u flip)).takeDownEnd f st)

/-- CHORD_NAK: the sender acts on a NAK: it resends every unacknowledged unit; 16 consecutive replays fail the strand with event 0x4025
(R308, R309). -/
def execChordNak (f : FacetId) (st : StrandId) (dir : Dir) (s : State) : Host.Outcome State Fault Refusal :=
  .next (
    let x := s.strand f st
    let d := x.dir dir
    if s.stState f st ≠ 7 || d.nakIn == 0 then s else
    let s := s.rfInc (.chdStrandErr f st) 31 16 1
    let s := s.setStrand f st (x.setDir dir { d with fails := d.fails + 1, nakIn := d.nakIn - 1, sent := 0 })
    if 16 ≤ d.fails + 1 then (s.bbChord 0x4025 none f 0).strandDown f st else s)

/-- NAK_TIMEOUT: the expected unit has not come 512 Net cycles after a NAK: NAK again (R308). -/
def execNakTimeout (f : FacetId) (st : StrandId) (dir : Dir) (s : State) : Host.Outcome State Fault Refusal :=
  let x := s.strand f st
  let d := x.dir dir
  .next (if s.stState f st = 7 && d.skip && decide (d.nakAt + 512 ≤ s.now) then
      s.setStrand f st (x.setDir dir { d with naks := d.naks + 1, nakAt := s.now })
    else s)

/-! ## LINK units (R306, R310, R311, R318, R321) -/

/-- What an audit reads of the credits of a strand's planes in one direction (R311). -/
def State.credCut (s : State) (f : FacetId) (st : StrandId) (d : Dir) : List (Nat × Option ChCred) :=
  (s.planeList f st).flatMap fun p => [0, 1, 2, 3, 5].map fun vn => (credKey f p vn d, some (s.cred f p vn d))

/-- Put latched credits into a table. -/
def putCut (t : Tbl (Option ChCred)) (l : List (Nat × Option ChCred)) : Tbl (Option ChCred) :=
  l.foldl (fun (t : Tbl (Option ChCred)) e => t.set none e.1 e.2) t

/-- LCNT: what the Facet latched at the marker reaches the Centroid for the audit of the Centroid-to-Facet direction (R311). -/
def execLcnt (f : FacetId) (st : StrandId) (_counts : List Nat) (s : State) : Host.Outcome State Fault Refusal :=
  .next (if s.stState f st ≠ 7 then s else
    let l := (s.credCut f st .cf).map fun e => (e.1, (s.chord.facetCut.get none e.1 : Option ChCred))
    { s with chord := { s.chord with cut := putCut s.chord.cut l } })

/-- CLOSE of a failed strand's direction: the units after the peer's last accepted one move, in order, to the strand that now
carries their plane, under its sequence and epoch; an open packet continues there, and the failed strand's replay buffer is empty (R318,
steps 2 to 5). A plane whose packet the receiver has dropped loses the rest of that packet (R323). -/
def execClose (f : FacetId) (st : StrandId) (dir : Dir) (lastSeq : Nat) (open2 : List (Option Nat)) (s : State) :
    Host.Outcome State Fault Refusal :=
  .next (if s.stState f st = 7 then s else
    let x := s.strand f st
    let d := x.dir dir
    let after := (d.unacked.dropWhile fun u => u.seq != lastSeq % 256).drop 1
    let rest := if d.unacked.any (fun u => u.seq == lastSeq % 256) then after else d.unacked
    let dropped (p : Nat) : Bool := open2.getD (p % 2) none == some 0
    let kept := rest.filter fun u => !(dropped u.plane && (s.openPkt f u.plane dir).isSome)
    let s := s.setStrand f st (x.setDir dir { d with unacked := [], sent := 0 })
    let s : State := [2 * st.val, 2 * st.val + 1].foldl (fun (s : State) p =>
      if dropped p then { s with chord := { s.chord with cur := s.chord.cur.set (0, []) (openKey f p dir) (0, []) } } else s) s
    let ts := s.upStrands f
    kept.foldl (fun (s : State) u =>
      let tgt : StrandId := Fin.ofNat 6 (carrier ts u.plane)
      let y := s.strand f tgt
      let e := y.dir dir
      let tr := chTrailer u.data e.next 0 (u.trailer.getLsbD 29) (s.rf (.chdStrandStatus f tgt) 15 8)
      s.setStrand f tgt (y.setDir dir { e with unacked := e.unacked ++ [{ u with seq := e.next, trailer := tr }], next := (e.next + 1) % 256 })) s)

/-- MOVE: the returning planes of a strand are taken from it again (R321). -/
def execMove (f : FacetId) (st : StrandId) (dir : Dir) (s : State) : Host.Outcome State Fault Refusal :=
  let x := s.strand f st
  .next (if s.stState f st ≠ 7 then s else s.setStrand f st (x.setDir dir { x.dir dir with await := false }))

/-- RTNONLY: a return for a plane that is not of the strand's own pair (R306, R307). -/
def execRtnonly (f : FacetId) (st : StrandId) (dir : Dir) (pl : PlaneId) (vn : Vn) (n : Nat) (s : State) : Host.Outcome State Fault Refusal :=
  let v := vnNum vn
  let c := s.cred f pl.val v (flipDir dir)
  let k := min n c.pend
  .next (if s.stState f st ≠ 7 then s else
    (s.setCred f pl.val v (flipDir dir) { c with pend := c.pend - k, rc := (c.rc + k) % 256 }).creditBack f pl.val v (flipDir dir) k)

/-! ## Alarms, stalls and heartbeats (R317, R323–R325) -/

/-- A lane of a direction has stayed below the margin for four passes (R317). -/
def Strand.marginLow (x : Strand) (dir : Dir) : Bool :=
  x.low.any fun e => decide (4 ≤ e.2) && decide (e.1 / 25 = dirNum dir)

/-- MARGIN_ALARM (R317). -/
def execMarginAlarm (f : FacetId) (st : StrandId) (dir : Dir) (s : State) : Host.Outcome State Fault Refusal :=
  .next (if s.stState f st ≠ 7 || !((s.strand f st).marginLow dir) then s else (s.rfSet (.chdStrandStatus f st) 30 30 1).bbChord 0x4024 none f 0)

/-- MID_PACKET_STALL: an open packet without a unit for 16 ticks is dropped, its credits return, its
partition gets a UCR record, and the strand goes down (R323, R471). -/
def execMidPacketStall (f : FacetId) (st : StrandId) (dir : Dir) (pl : PlaneId) (s : State) : Host.Outcome State Fault Refusal :=
  .next (match s.openPkt f pl.val dir with
  | none => s
  | some o =>
    if !(s.expired o.last 16) || !((s.planeList f st).contains pl.val) || s.stState f st != 7 then s else
    let vn := hVn o.hdr
    let n := 1 + o.data.length
    let c := s.cred f pl.val vn dir
    let s := s.setCred f pl.val vn dir { c with occ := c.occ - n, away := c.away - n }
    let s := (s.setOpen f pl.val dir none).rfSet (.chdStrandStatus f st) 27 27 1
    ((s.bbChord 0x4023 (some (hPid o.hdr)) f pl.val).rasPush (hPid o.hdr) 0x4023 false 0 0xFFFF |>.lose o.hdr).strandDown f st)

/-- STRAND_HEARTBEAT_LOSS: no marker at the Facet, or no ECHO at the Centroid, for 2 ticks (R324). -/
def execStrandHeartbeatLoss (f : FacetId) (st : StrandId) (dir : Dir) (s : State) : Host.Outcome State Fault Refusal :=
  let x := s.strand f st
  let seen := match dir with | .cf => x.mark | .fc => x.echo
  .next (if s.stState f st ≠ 7 || !(s.expired seen 2) then s else
    ((s.rfSet (.chdStrandStatus f st) 28 28 1).bbChord 0x4027 none f 0).strandDown f st)

/-- FACET_HEARTBEAT_LOSS: the Centroid has seen no ECHO on any strand of the Facet for 2 ticks (R325). -/
def execFacetHeartbeatLoss (f : FacetId) (s : State) : Host.Outcome State Fault Refusal :=
  .next (if (s.upStrands f).isEmpty || !((s.upStrands f).all fun i => s.expired (s.strand f (Fin.ofNat 6 i)).echo 2) then s
    else s.facetLost f)

/-- The sum that R311 checks, modulo 256, less the buffer's size. -/
def cutDiff (vn : Nat) (q : ChCred) : Nat :=
  (chBuf vn - q.away + q.occ + q.pend + q.rc + 256 - q.rf % 256 + 256 - chBuf vn % 256) % 256

/-- CHORD_CREDIT_AUDIT, on what the cut latched (R311, R481, R483): a deficit holds new headers until nothing is away and reloads the
credits; a surplus, a demotion reserve above 3, or a second failure in a row loses the Facet. -/
def execChordCreditAudit (f : FacetId) (pl : PlaneId) (vn : Vn) (dir : Dir) (_q : List Nat) (s : State) : Host.Outcome State Fault Refusal :=
  let v := vnNum vn
  let c := s.cred f pl.val v dir
  let st : StrandId := Fin.ofNat 6 (s.rf (.fctChdRemap f) (3 * pl.val + 2) (3 * pl.val))
  let ev (s : State) (sev : Nat) : State :=
    (s.bbSev 0x4030 sev none f.val (pl.val + v * 2 ^ 4 + dirNum dir * 2 ^ 7)).rfSet (.chdStrandStatus f st) 31 31 1
  .next (match (s.chord.cut.get none (credKey f pl.val v dir) : Option ChCred) with
    | none => s
    | some q =>
      if vn = .gtd || s.chord.lost.contains f.val || !(s.auditing 3) then s
      else if c.hold && q.occ + q.pend == 0 then
        s.setCred f pl.val v dir { c with away := 0, occ := 0, pend := 0, rf := 0, rc := 0, hold := false, bad := false }
      else if cutDiff v q = 0 ∧ q.demo ≤ 3 then s.setCred f pl.val v dir { c with bad := false }
      else if (0 < cutDiff v q ∧ cutDiff v q < 128) ∨ 3 < q.demo ∨ c.bad then (ev s 3).facetLost f
      else (ev s 1).setCred f pl.val v dir { c with hold := true, bad := true })

/-! ## Markers and echoes (R23, R24, R27, R29, R311, R324) -/

/-- The tick marker (R24, R270): TICK and SWAP in ARG, TIME_ADJ in ADDR [143:104]. -/
def markerMsg (m : Marker) : Msg :=
  { Msg.zero with src := 0x2F, dst := 0x2F, ln := (BitVec.ofInt 40 m.adj).toNat, arg := BitVec.ofNat 64 (m.tick + m.swap.toNat * 2 ^ 48) }

/-- A single MGT unit (R24). -/
def mgtUnit (kind : MsgKind) (m : Msg) (dst : Nat) : NetPkt :=
  let h : BitVec 256 := hset (hset 0 2 0 5) 8 3 (msgCode kind)
  let h := hset (hset (hset h 83 76 m.src.toNat) 95 88 dst) 149 104 m.ln
  { inp := 4, hdr := hSeal (hset h 215 152 m.arg.toNat), data := [], demo := false, due := none }

/-- A marker or an ECHO takes the next position of its strand, ahead of any queued unit of plane list[0] (R24, R306); one that still waits
there is replaced. -/
def State.mgtFirst (s : State) (f : FacetId) (st : StrandId) (d : Dir) (q : Option NetPkt) : State :=
  let k := openKey f ((s.planeList f st).headD 0) d
  let rest : List NetPkt := (s.chord.tx.get [] k).filter fun x => !(hVn x.hdr == 5 && (hMsg x.hdr == 0x38 || hMsg x.hdr == 0x39))
  { s with chord := { s.chord with tx := s.chord.tx.set [] k (q.toList ++ rest) } }

/-- TICK_MARKER_EMIT: at cycle 1,800 the marker announces the next boundary on every plane and on every strand in UP, and each Facet
emits its echo on every strand (R23, R24, R29). -/
def execTickMarkerEmit (s : State) : Host.Outcome State Fault Refusal :=
  match s.psc.captured with
  | none => .next s
  | some (set, _) =>
    let m : Marker := { tick := (s.tick + 1) % 2 ^ 48, swap := set, adj := s.nextAdj }
    let s : State := { s.passTo 1800 with marker := some m }
    let s : State := (List.range 12).foldl (fun (s : State) p => s.send .markMsg { markerMsg m with trk := BitVec.ofNat 8 p }) s
    .next ((List.range 72).foldl (fun (s : State) i =>
      let f : FacetId := Fin.ofNat 12 (i / 6)
      let st : StrandId := Fin.ofNat 6 (i % 6)
      if s.stState f st ≠ 7 then s else
      let runs := (s.facet f).runs
      let s := s.setStrand f st { s.strand f st with markTx := some m, echoTx := runs }
      let s := s.mgtFirst f st .cf (some (mgtUnit .markMsg (markerMsg m) (3 * f.val)))
      if runs then s.mgtFirst f st .fc (some (mgtUnit .echoMsg { Msg.zero with src := BitVec.ofNat 8 (3 * f.val), arg := BitVec.ofNat 64 f.val } 0x2F)) else s) s)

/-- Every unit that a direction has sent has been accepted, so that a marker or an ECHO in the stream comes next (R311). -/
def ChDir.caught (d : ChDir) : Bool := d.exp == d.next

/-- MARK: a tick marker reaches a Facet on a strand, where it is the cut for the Centroid-to-Facet credits (R311); the first one of a tick is
measured (R27). The Facet takes its first marker after training in a later tick than U (R42). -/
def execMark (f : FacetId) (st : StrandId) (e : Int) (s : State) : Host.Outcome State Fault Refusal :=
  let y := s.strand f st
  .next (match y.markTx with
  | none => s
  | some m =>
    if s.stState f st ≠ 7 || !y.cf.caught then s else
    let s := (s.setStrand f st { y with mark := s.tick, markTx := none }).mgtFirst f st .cf none
    let s := { s with chord := { s.chord with facetCut := putCut s.chord.facetCut (s.credCut f st .cf) } }
    let x := s.facet f
    let early := match x.trainAt with | some u => decide (s.tick ≤ u) | none => true
    if x.inReset || x.seen == some m.tick || (!x.runs && early) then s else s.markAt f m e)

/-- ECHO: a Facet's marker echo reaches the Centroid on a strand, which measures the Facet's skew by it: the phase error of the
Facet's tick, in units of 0.25 ns (log 30); it is the cut for the Facet-to-Centroid credits (R29, R311, R324). -/
def execEcho (f : FacetId) (st : StrandId) (s : State) : Host.Outcome State Fault Refusal :=
  let y := s.strand f st
  .next (if s.stState f st ≠ 7 || !y.echoTx || !y.fc.caught then s else
    let s := (s.setStrand f st { y with echo := s.tick, echoTx := false }).mgtFirst f st .fc none
    let s := { s with chord := { s.chord with cut := putCut s.chord.cut (s.credCut f st .fc) } }
    s.setFacet f { s.facet f with skew := (s.facet f).phase })

/-! ## The boundary on the Chord (R309, R316–R318) -/

/-- One lane's eye is measured: its width, its height where the spare's sampler scans it, and its sampling phase, which moves by at most
1/64 UI. The measurements are free values (R316). -/
def State.eyeRead (s : State) (f : FacetId) (st : StrandId) (l : Nat) (height : Bool) : State :=
  let r : Reg := .chdEye f st (Fin.ofNat 50 l)
  let (v, s) := s.draw
  let s := s.rfSet r 7 0 (fld v 7 0)
  let s := if height then s.rfSet r 15 8 (fld v 15 8) else s
  s.rfSet r 21 16 (s.rf r 21 16 + (if bit v 16 then (if bit v 17 then 1 else 63) else 0))

/-- The receivers of one direction scan (R316): with the spare unused, one lane a tick; with the spare in use, the width of each lane. -/
def State.eyeScan (s : State) (f : FacetId) (st : StrandId) (d : Dir) : State :=
  let act := s.lanes f st d
  let base := 25 * dirNum d
  if act.contains 24 then act.foldl (fun (s : State) l => s.eyeRead f st (base + l) false) s
  else match act[(s.strand f st).lane % 24]? with
    | some l => s.eyeRead f st (base + l) true
    | none => s

/-- A pass over the lanes ends: the lanes that stayed below 0.28 UI (72/256) or 20 mV are counted (R317). -/
def State.eyePass (s : State) (f : FacetId) (st : StrandId) : State :=
  let x := s.strand f st
  let low : Tbl Nat := (List.range 50).foldl (fun (t : Tbl Nat) l =>
    let r : Reg := .chdEye f st (Fin.ofNat 50 l)
    let bad := s.rb r 22 && (decide (s.rf r 7 0 < 72) || decide (s.rf r 15 8 < 20))
    t.set 0 l (if bad then x.low.get 0 l + 1 else 0)) x.low
  s.setStrand f st { x with low := low }

/-- What the Chord does at each boundary: a take-down that has waited long enough ends, the CRC counts of the tick begin again, and every strand
in UP with MON_EN scans its eyes (R309, R316–R318). -/
def State.chordTick (s : State) : State :=
  (List.range 72).foldl (fun (s : State) i =>
    let f : FacetId := Fin.ofNat 12 (i / 6)
    let st : StrandId := Fin.ofNat 6 (i % 6)
    let s := s.takeDownEnd f st
    let x := s.strand f st
    let s := s.setStrand f st { x with crc := 0 }
    if s.stState f st ≠ 7 || !(s.rb (.chdStrandCtl f st) 2) then s else
    let s := (s.eyeScan f st .fc).eyeScan f st .cf
    let x := s.strand f st
    let s := s.setStrand f st { x with lane := (x.lane + 1) % 24 }
    if (x.lane + 1) % 24 = 0 then s.eyePass f st else s) s

/-- At a SLOT swap the staged tokens are in force, and every token whose path uses the strand of a plane in a list longer than 2 is withdrawn, with event 0x1031 for
each partition (R320). -/
def State.withdrawTokens (s : State) : State :=
  let s := { s with net := { s.net with tokens := s.tokensNext, staged := none } }
  let overloaded (f p : Nat) : Bool :=
    let g : FacetId := Fin.ofNat 12 f
    let st : StrandId := Fin.ofNat 6 (s.rf (.fctChdRemap g) (3 * p + 2) (3 * p))
    decide (2 < (s.planeList g st).length)
  let gone (t : Token) : Bool := (decide (t.src < 36) && overloaded (t.src / 3) t.plane) || (decide (t.dst < 36) && overloaded (t.dst / 3) t.plane)
  let lost := s.net.tokens.filter gone
  let s := { s with net := { s.net with tokens := s.net.tokens.filter fun t => !(gone t) } }
  let s := ((List.range 12).filter fun p => lost.any fun t => t.plane == p).foldl (fun s p => s.writePlane (s.bank 0) p) s
  (List.range 16).foldl (fun s q =>
    let n := (lost.filter fun t => t.pid.val == q).length
    if n = 0 then s else s.bb 0x1031 (some (Fin.ofNat 16 q)) 0 (min 255 n)) s

end Sys2Proof.Machine
end

