-- ==== Sys2Proof/Machine/Hbm.lean ====
section
/-! DEFINITION. HBM3: addressing, the code word, scheduling, corrections, remapping, retirement, training and refresh (R327–R362). -/

namespace Sys2Proof.Machine

/-! ## Addressing (R328–R330, R350) -/

/-- The place of a unit: stack, logical pseudo-channel, unit within it, bank (16 SID + 4 BG + BA), row, and line within the row
(R329). -/
structure HbmAddr where
  m    : Nat
  k    : Nat
  q    : Nat
  deriving DecidableEq, Repr

/-- The mapping of R329. -/
def hbmAddr (ln : Nat) : HbmAddr :=
  let da := 64 * ln
  let u := da / 2 ^ 11
  { m := (da / 2 ^ 8 % 8) ^^^ (da / 2 ^ 11 % 8), k := u % 31, q := u / 31 }

/-- The bank of a unit, 16 SID + 4 BG + BA (R329). -/
def unitBank (q : Nat) : Nat :=
  let w := q / 64
  let row := w / 3
  16 * (w % 3) + 4 * ((q / 4 % 4) ^^^ (row % 4)) + ((q / 16 % 4) ^^^ (row / 4 % 4))

/-- The row of a unit. -/
def unitRow (q : Nat) : Nat := q / 64 / 3

/-- The lines of a unit of a stack's logical pseudo-channel: the inverse of R329. -/
def unitLines (m k q : Nat) : List Nat :=
  let u := 31 * q + k
  let da := u * 2 ^ 11 + (m ^^^ (u % 8)) * 2 ^ 8
  (List.range 4).map fun i => da / 64 + i

/-- HBM_LPC of a stack in a bank. -/
def lpcReg (bankB : Bool) (m k : Nat) : Reg := if bankB then .hbmLpcB (Fin.ofNat 8 m) (Fin.ofNat 32 k) else .hbmLpcA (Fin.ofNat 8 m) (Fin.ofNat 32 k)
def State.lpcPhys (s : State) (m k : Nat) : Nat := s.rf (lpcReg (s.bank 2) m k) 4 0
def State.lpcMode (s : State) (m k : Nat) : Nat := s.rf (lpcReg (s.bank 2) m k) 6 5
def State.sparePhys (s : State) (m : Nat) : Nat := s.rf (lpcReg (s.bank 2) m 31) 4 0

/-- The first rescue unit (R350). -/
def rescueBase : Nat := 3027341

/-- The thirty logical pseudo-channels of a stack other than `k`. -/
def others (k : Nat) : List Nat := (List.range 31).filter (· != k)

/-- The new placement of a unit of a retired pseudo-channel in rescue mode (R350). -/
def State.rescuePlace (s : State) (m k q : Nat) : Nat × Nat :=
  (s.lpcPhys m ((others k).getD (q % 30) 0), rescueBase + q / 30)

/-- PTR of a stack's migration. -/
def State.migPtr (s : State) (m : Nat) : Nat := s.rf (.hbmMig (Fin.ofNat 8 m)) 21 0

/-- The physical pseudo-channel and unit that hold a unit (R350, R351). -/
def State.place (s : State) (a : HbmAddr) : Nat × Nat :=
  match s.lpcMode a.m a.k with
  | 0 => (s.lpcPhys a.m a.k, a.q)
  | 1 => if a.q < s.migPtr a.m then (s.sparePhys a.m, a.q) else (s.lpcPhys a.m a.k, a.q)
  | 2 => if a.q < s.migPtr a.m then s.rescuePlace a.m a.k a.q else (s.lpcPhys a.m a.k, a.q)
  | _ => s.rescuePlace a.m a.k a.q

/-- The unit that a physical pseudo-channel holds at unit `q`: logical pseudo-channel and unit, if one lies there. -/
def State.unitAt (s : State) (m phys q : Nat) : Option (Nat × Nat) :=
  let own := (List.range 31).find? fun k => s.place { m := m, k := k, q := q } == (phys, q)
  match own with
  | some k => some (k, q)
  | none =>
    if q < rescueBase then none else
    (List.range 31).findSome? fun k =>
      if s.lpcMode m k < 2 then none else
      let k' := (others k).findIdx? fun h => s.lpcPhys m h == phys
      match k' with
      | some i =>
        let q0 := (q - rescueBase) * 30 + i
        if s.place { m := m, k := k, q := q0 } == (phys, q) then some (k, q0) else none
      | none => none

def pcOf (m phys : Nat) : PcId := Fin.ofNat 256 (32 * m + phys)
def pcStack (pc : PcId) : StackId := ⟨pc.val / 32, by omega⟩
def pcCtl (pc : PcId) : Fin 16 := ⟨pc.val % 32 / 2, by omega⟩
def pcHalf (pc : PcId) : Fin 2 := ⟨pc.val % 2, by omega⟩

/-- INST of a controller or PHY: 17m + n (R487). -/
def hbmInst (m n : Nat) : Nat := 17 * m + n
def pcInst (pc : PcId) : Nat := hbmInst (pcStack pc).val (pcCtl pc).val

def State.pcSt (s : State) (pc : PcId) : PcSt := s.hbm.pcs.get PcSt.empty pc.val
def State.setPc (s : State) (pc : PcId) (x : PcSt) : State := { s with hbm := { s.hbm with pcs := s.hbm.pcs.set PcSt.empty pc.val x } }
def State.stack (s : State) (m : Nat) : StackSt := s.hbm.stk.get StackSt.empty m
def State.setStack (s : State) (m : Nat) (x : StackSt) : State := { s with hbm := { s.hbm with stk := s.hbm.stk.set StackSt.empty m x } }

def pcErr (pc : PcId) : Reg := .hbmPcErr (pcStack pc) (pcCtl pc) (pcHalf pc)
def pcRemap (pc : PcId) (e : Nat) : Reg := .hbmRemap (pcStack pc) (pcCtl pc) (pcHalf pc) (Fin.ofNat 16 e)

/-- The logical pseudo-channel that a physical one carries, 31 for a spare (R328). -/
def State.logical (s : State) (pc : PcId) : Nat :=
  ((List.range 31).find? fun k => s.lpcPhys (pcStack pc).val k == pc.val % 32).getD 31

/-! ## Staging class GMAP (R49, R57, R355, R364) -/

/-- Where the register at an address of a bank of class GMAP has its other bank: (is bank B, the other address). The class holds the
granule map, the way masks, the port owners and the stacks' logical maps. -/
def gmapTwin (a : Nat) : Option (Bool × Nat) :=
  if 0x08100000 ≤ a ∧ a < 0x08108000 then some (false, a + 0x8000)
  else if 0x08108000 ≤ a ∧ a < 0x08110000 then some (true, a - 0x8000)
  else if 0x03000000 ≤ a ∧ a < 0x03400000 then
    let o := a % 0x10000
    if 0x100 ≤ o ∧ o < 0x180 then some (false, a + 0x80) else if 0x180 ≤ o ∧ o < 0x200 then some (true, a - 0x80) else none
  else if 0x04000000 ≤ a ∧ a < 0x05000000 ∧ a % 0x200000 / 0x10000 = 16 then
    let o := a % 0x10000
    if 0x100 ≤ o ∧ o < 0x180 then some (false, a + 0x80) else if 0x180 ≤ o ∧ o < 0x200 then some (true, a - 0x80) else none
  else if 0x05000000 ≤ a ∧ a < 0x05800000 then
    let o := a % 0x100000
    if 0x100 ≤ o ∧ o < 0x110 then some (false, a + 0x10) else if 0x110 ≤ o ∧ o < 0x120 then some (true, a - 0x10) else none
  else none

/-- The PSC writes the active contents of class GMAP into the shadow bank, before it stages a change there. -/
def State.syncGmap (s : State) : State :=
  let act := s.bank 2
  let kept := s.regs.filter fun e => match gmapTwin e.1 with | some (b, _) => b == act | none => true
  let twins := kept.filterMap fun e => match gmapTwin e.1 with | some (_, a) => some (a, e.2) | none => none
  { s with regs := twins.foldl (fun t e => t.put e.1 e.2) kept }

/-- The shadow bank of class GMAP may be staged now (R35). -/
def State.gmapFree (s : State) : Bool := !(s.rb .locSwapReq 2) && s.psc.swapWait / 4 % 2 == 0 && s.psc.layWait / 4 % 2 == 0

/-! ## The code word (R342, R343) -/

/-- Multiplication in GF(2^8) with x^8 + x^4 + x^3 + x^2 + 1. -/
def gfMul (a b : Nat) : Nat :=
  ((List.range 8).foldl (fun (st : Nat × Nat) i =>
    let (acc, x) := st
    (if b / 2 ^ i % 2 = 1 then acc ^^^ x else acc, let y := 2 * x; if 256 ≤ y then y ^^^ 0x11D else y)) (0, a)).1

/-- α^n. -/
def gfPow : Nat → Nat
  | 0 => 1
  | n + 1 => gfMul 2 (gfPow n)

/-- The generator's coefficients, descending, with the roots α^0 to α^6. -/
def rsGen : List Nat :=
  (List.range 7).foldl (fun g i =>
    let r := gfPow i
    List.zipWith (fun a b => a ^^^ gfMul r b) (g ++ [0]) (0 :: g)) [1]

/-- SIG of a line (R342). -/
def lineSig (ln : Nat) : Nat := (ln % 2 ^ 24) ^^^ (ln / 2 ^ 24)

/-- The message symbols in order of descending degree: data, META, signature (R342). -/
def rsMsg (data meta_ sig : Nat) : List Nat :=
  (List.range 64).map (fun i => data / 256 ^ i % 256) ++ [meta_ % 256, sig % 256, sig / 256 % 256, sig / 65536 % 256]

/-- The remainder of the message times x^7 by the generator: the seven check symbols. -/
def rsRem (g : List Nat) : List Nat → List Nat → List Nat
  | [], reg => reg
  | m :: t, reg =>
    let fb := m ^^^ reg.headD 0
    rsRem g t (List.zipWith (fun a b => a ^^^ gfMul fb b) (reg.drop 1 ++ [0]) (g.drop 1))

/-- The check symbols of a line (R342). -/
def rsCheck (data meta_ sig : Nat) : List Nat := rsRem rsGen (rsMsg data meta_ sig) [0, 0, 0, 0, 0, 0, 0]

/-- The stored code word of a line. -/
def encodeLine (data : Line) (poison : Bool) (ln : Nat) : CodeWord :=
  let m := if poison then 0xA5 else 0
  let c := rsCheck data.toNat m (lineSig ln)
  BitVec.ofNat 576 (data.toNat + m * 256 ^ 64 + (List.range 7).foldl (fun v i => v + c.getD i 0 * 256 ^ (65 + i)) 0)

/-- The 75 symbols of a stored word with the requested line's signature inserted. -/
def rsSymbols (raw : CodeWord) (ln : Nat) : List Nat :=
  rsMsg raw.toNat (raw.toNat / 256 ^ 64) (lineSig ln) ++ (List.range 7).map fun i => raw.toNat / 256 ^ (65 + i) % 256

/-- The value of the received polynomial at α^j. -/
def syndromeAt (sym : List Nat) (j : Nat) : Nat := sym.foldl (fun acc c => gfMul acc (gfPow j) ^^^ c) 0

/-- What the decoder finds (R343): good, poisoned, either of them after one correction, or uncorrectable; the data as read or
corrected. -/
inductive Decoded where
  | good (data : Line) (poison corrected : Bool)
  | ue (data : Line)
  deriving DecidableEq, Repr

/-- Decode a code word for a line (R343). -/
def decodeWord (raw : CodeWord) (ln : Nat) : Decoded :=
  let sym := rsSymbols raw ln
  let syn := (List.range 7).map (syndromeAt sym)
  let asRead : Line := raw.setWidth 512
  let fin (bytes : List Nat) (corr : Bool) : Decoded :=
    let d : Line := BitVec.ofNat 512 ((List.range 64).foldl (fun v i => v + bytes.getD i 0 * 256 ^ i) 0)
    let m := bytes.getD 64 0
    if m = 0 then .good d false corr else if m = 0xA5 then .good d true corr else .ue asRead
  if syn.all (· == 0) then fin sym false
  else
    let e := syn.headD 0
    match (List.range 75).find? fun deg => e != 0 && (List.range 7).all fun j => syn.getD j 0 == gfMul e (gfPow (deg * j)) with
    | none => .ue asRead
    | some deg =>
      let pos := 74 - deg
      if 65 ≤ pos ∧ pos ≤ 67 then .ue asRead
      else fin (sym.zipIdx.map fun x => if x.2 = pos then x.1 ^^^ e else x.1) true

/-! ## Retirement (R349–R355) -/

/-- A logical pseudo-channel is retired: event 0x5011 with the stack, k and a cause whose code the specification does not give; it
waits for its turn (R349). -/
def State.retirePc (s : State) (pc : PcId) : State :=
  let m := (pcStack pc).val
  let k := s.logical pc
  let x := s.stack m
  if k = 31 || x.retire.contains k || s.lpcMode m k != 0 || s.rb (pcErr pc) 45 then s
  else
    let (cause, s) := s.draw
    let s := s.bb 0x5011 none (pcInst pc) (k + fld cause 3 0 * 2 ^ 5)
    s.setStack m { s.stack m with retire := (s.stack m).retire ++ [k] }

/-- The stack holds a rescued logical pseudo-channel (R354). -/
def State.hasRescue (s : State) (m : Nat) : Bool := (List.range 31).any fun k => decide (2 ≤ s.lpcMode m k)

/-- The spare can take a pseudo-channel: neither USED nor BAD (R350). -/
def State.spareFree (s : State) (m : Nat) : Bool := s.rf (lpcReg (s.bank 2) m 31) 6 5 == 0

/-- A layout without one HBM granule. -/
def PartLayout.without (l : PartLayout) (g : Nat) : PartLayout :=
  { l with runs := l.runs.flatMap fun r =>
      if r.2.1 ≤ g ∧ g < r.2.1 + r.2.2 then
        [(r.1, r.2.1, g - r.2.1), (r.1 + (g - r.2.1) + 1, g + 1, r.2.2 - (g - r.2.1) - 1)].filter fun x => decide (0 < x.2.2)
      else [r] }

/-- A layout without the granules that the first rescue withdraws (R352). -/
def PartLayout.withoutTop (l : PartLayout) : PartLayout := (List.range 7).foldl (fun l i => l.without (179 + i)) l

/-- The L3 and directory walk over granules 179–185: their lines are written back and dropped (R56, R352). -/
def State.withdrawWalk (s : State) : State :=
  (s.lines.filter fun e => decide (179 ≤ e.1 / 2 ^ 24 ∧ e.1 / 2 ^ 24 ≤ 185)).foldl (fun (s : State) e =>
    if !(s.lineQuiet e.1) then s else
    let (s, got) := s.recall e.1
    let s := match got with | some (d, poi) => s.memPut e.1 d poi | none => s
    ((s.mbDrain e.1).l3Clean e.1).l3Drop e.1) s

/-- Granules 179–185 leave every map and the stored layout; each assigned one is reported with 0x5013 and a UCR record (R352). A
RESIZE or WIPE in progress neither maps nor frees them. The walk over their lines follows the swap that takes them out of the map. -/
def State.withdraw (s : State) : State :=
  if s.hbm.withdrawn then s else
  let shadowB := !(s.bank 2)
  let s := (List.range 7).foldl (fun s i =>
    let g := 179 + i
    match s.gmapDa (s.bank 2) g with
    | none => s
    | some v =>
      let p : Pid := Fin.ofNat 16 (fld v 7 4)
      let s := (s.bb 0x5013 (some p) 0 g).rasPush p 0x5013 false (fld v 25 8 * 2 ^ 30) 0xFFFF
      let base := 0x08100000 + (if shadowB then 0x8000 else 0)
      let s := { s with regs := s.regs.filter fun e =>
        !(decide (base ≤ e.1 ∧ e.1 < base + 0x8000) && bit e.2 0 && fld e.2 51 30 == g) }
      { s with psc := { s.psc with layouts := s.psc.layouts.mapVals PartLayout.empty fun _ l => l.without g } }) s
  let s := { s with psc := { s.psc with stored := s.psc.stored.mapVals PartLayout.empty fun _ l => l.withoutTop } }
  { s with hbm := { s.hbm with withdrawn := true },
           psc := { s.psc with
             pool := s.psc.pool.flatMap fun r =>
               (List.range r.2).filterMap fun i => if 179 ≤ r.1 + i ∧ r.1 + i ≤ 185 then none else some (r.1 + i, 1)
             resizes := s.psc.resizes.map fun r => { r with
               layouts := r.layouts.map (fun e => (e.1, e.2.withoutTop))
               grans := r.grans.filter fun g => !(decide (179 ≤ g.2.2 ∧ g.2.2 ≤ 185)) } } }

/-- RETIREMENT_BEGIN: the first waiting retirement of a stack stages its new placement; without the spare it is a rescue, before the
first of which the granules are withdrawn; a stack that already holds a rescue is lost (R350, R352, R354, R355, R362). -/
def execRetirementBegin (m : StackId) (s : State) : Host.Outcome State Fault Refusal :=
  let x := s.stack m.val
  .next (match x.retire with
  | [] => s
  | k :: rest =>
    if x.staged.isSome || s.rb (.hbmMig m) 27 || 0 < x.filling then s
    else if s.hasRescue m.val then
      (s.setStack m.val { x with retire := rest }).bbFatal 0x5014 none (pcInst (pcOf m.val (s.lpcPhys m.val k))) 0
    else if !s.gmapFree then s
    else
      let s := s.syncGmap
      let mode := if s.spareFree m.val then 1 else 2
      let s := if mode = 2 then s.withdraw else s
      let r := lpcReg (!(s.bank 2)) m.val k
      let s := s.rgSet r (setFld (s.rg r) 6 5 mode)
      (s.setStack m.val { s.stack m.val with retire := rest, staged := some (k, mode, false), moved := 0 }) |> fun s => if mode = 2 then s.layoutSwap 4 else s.requestSwap 4)

/-- MIGRATION_UNIT_COMPLETE: the next unit is moved: its lines are taken from the home copy or the owner, removed from the caches and
written at the new placement (R248, R351, R353). -/
def execMigrationUnitComplete (m : StackId) (s : State) : Host.Outcome State Fault Refusal :=
  let r : Reg := .hbmMig m
  let q := s.migPtr m.val
  .next (if !(s.rb r 27) || 3145728 ≤ q then s else
    let lns := unitLines m.val (s.rf r 26 22) q
    if !(lns.all fun ln => s.lineQuiet ln) then s else
    let s := lns.foldl (fun s ln =>
      if (s.lines.any fun e => e.1 == ln) then
        let p : Pid := match s.gmapDa (s.bank 2) (ln / 2 ^ 24) with | some v => Fin.ofNat 16 (fld v 7 4) | none => 0
        let ((d, poi), s) := s.rdo ln p
        let s := s.writeWhole ln p d poi
        if poi then s.setStack m.val { s.stack m.val with moved := (s.stack m.val).moved + 1 } else s
      else s) s
    s.rfSet r 21 0 (q + 1))

/-- MIGRATION_COMPLETE: every unit is moved; the PSC stages the final entry (R355). -/
def execMigrationComplete (m : StackId) (s : State) : Host.Outcome State Fault Refusal :=
  let r : Reg := .hbmMig m
  .next (if !(s.rb r 27) || s.migPtr m.val < 3145728 || (s.stack m.val).staged.isSome || !s.gmapFree then s else
    let k := s.rf r 26 22
    let mode := s.lpcMode m.val k
    let s := s.syncGmap
    let sh := !(s.bank 2)
    let e := lpcReg sh m.val k
    let s := if mode = 1 then
        (s.rgSet e (setFld (setFld (s.rg e) 4 0 (s.sparePhys m.val)) 6 5 0)).rfSet (lpcReg sh m.val 31) 5 5 1
      else s.rgSet e (setFld (s.rg e) 6 5 3)
    (s.setStack m.val { s.stack m.val with staged := some (k, mode, true) }).requestSwap 4)

/-- What a GMAP swap does to the stacks: a staged migration becomes active with PTR 0, a completed one ends with event 0x5012, and
the old pseudo-channel is RETIRED (R353, R355). `old` is the physical pseudo-channel before the swap. -/
def State.hbmSwap (s : State) : State :=
  (List.range 8).foldl (fun s m =>
    let x := s.stack m
    match x.staged with
    | none => s
    | some (k, mode, false) =>
      let s := s.rgSet (.hbmMig (Fin.ofNat 8 m)) (BitVec.ofNat 64 (k * 2 ^ 22 + 2 ^ 27))
      let s := if mode = 2 then s.withdrawWalk else s
      s.setStack m { x with staged := none }
    | some (k, mode, true) =>
      let old := if mode = 1 then s.rf (lpcReg (!(s.bank 2)) m k) 4 0 else s.lpcPhys m k
      let pc := pcOf m old
      let s := (s.rgSet (.hbmMig (Fin.ofNat 8 m)) 0).rfSet (pcErr pc) 45 45 1
      (s.setStack m { x with staged := none }).bb 0x5012 none (pcInst pc) (min 255 x.moved)) s

/-! ## Errors (R343–R348) -/

/-- The PID and page of an error's granule (R344). -/
def State.granulePid (s : State) (ln : Nat) : Option Pid := (s.gmapDa (s.bank 2) (ln / 2 ^ 24)).map fun v => Fin.ofNat 16 (fld v 7 4)

/-- An uncorrectable error: the code word is rewritten with the data as read and META 0xA5, counted, logged and reported, and the
pseudo-channel is retired (R344). A write that is queued behind the read stays performed over it (R339). -/
def State.hbmUe (s : State) (pc : PcId) (ln : Nat) (d : Line) (p : Option Pid) : State :=
  let s := match (s.pcSt pc).wq.find? fun r => r.ln == ln with
    | some r => if r.full then s else s.memPut ln (lineMerge d r.msg.data r.msg.arg) true
    | none => s.memPut ln d true
  let s := s.rfInc (pcErr pc) 39 32 1
  let s := match p with
    | some p =>
      (s.bb 0x5010 (some p) (pcInst pc) (ln / 64)).rasPush p 0x5010 false (s.ppaOf p (64 * ln) / 4096 * 4096) (0x200 + (pcStack pc).val)
    | none => s
  s.retirePc pc

/-- A row is remapped into a free entry with event 0x5002, or the pseudo-channel is retired; hPPR begins where the stack reports a
repair resource, which is outside the block (R347, R348). -/
def State.remapRow (s : State) (pc : PcId) (q : Nat) : State :=
  match (List.range 16).find? fun e => !(s.rb (pcRemap pc e) 0) with
  | none => s.retirePc pc
  | some e =>
    let (res, s) := s.drawBool
    let b := unitBank q
    let v := 1 + b / 16 * 2 + b / 4 % 4 * 2 ^ 3 + b % 4 * 2 ^ 5 + unitRow q % 2 ^ 14 * 2 ^ 7 + (if res then 1 else 2) * 2 ^ 21
    let s := (s.rgSet (pcRemap pc e) (BitVec.ofNat 64 v)).rfInc (pcErr pc) 44 40 1
    let s := s.bb 0x5002 none (pcInst pc) 0
    if res then s else s.bb 0x5004 none (pcInst pc) 0

/-- The row already has a remap entry. -/
def State.remapped (s : State) (pc : PcId) (q : Nat) : Bool :=
  let b := unitBank q
  (List.range 16).any fun e => s.rb (pcRemap pc e) 0 && s.rf (pcRemap pc e) 20 1 == b / 16 + b / 4 % 4 * 4 + b % 4 * 16 + unitRow q % 2 ^ 14 * 64

/-- A corrected code word of a pseudo-channel is counted and logged at most once per tick; it may remap its row or retire the
pseudo-channel. `pos` is the line's position in the physical pseudo-channel (R345, R347, R349). -/
def State.hbmCeCount (s : State) (pc : PcId) (pos : Nat) : State :=
  let x := s.pcSt pc
  let q := pos / 4
  let s := s.rfInc (pcErr pc) 15 0 1
  let win := min 65535 (s.rf (pcErr pc) 31 16 + 1)
  let s := s.rfSet (pcErr pc) 31 16 win
  let key := unitBank q * 16384 + unitRow q % 16384
  let seen : List Nat := insertNat pos (x.rowCe.get [] key)
  let logged := x.ceTick == some s.tick
  let s := s.setPc pc { x with rowCe := x.rowCe.set [] key seen, ceTick := some s.tick }
  let s := if logged then s else s.bb 0x5001 none (pcInst pc) (s.logical pc + min 255 (s.rf (pcErr pc) 15 0) * 2 ^ 5)
  let cfg : Reg := .hbmRasCfg (pcStack pc) (pcCtl pc)
  let s := if max 1 (s.rf cfg 35 32) ≤ seen.length && !(s.remapped pc q) then s.remapRow pc q else s
  if s.rf cfg 51 36 ≤ win then s.retirePc pc else s

/-- A corrected error of a line is written back unless a later write is queued, and counted (R345). -/
def State.hbmCe (s : State) (pc : PcId) (ln : Nat) (d : Line) (poison : Bool) (pos : Nat) : State :=
  (if (s.pcSt pc).wq.any (·.ln == ln) then s else s.memPut ln d poison).hbmCeCount pc pos

/-- Handle a code word read for a line (R343–R345); the data and poison mark that go out. -/
def State.hbmWord (s : State) (pc : PcId) (ln : Nat) (raw : CodeWord) (p : Option Pid) (pos : Nat) : State × Line × Bool :=
  match decodeWord raw ln with
  | .good d poi false => (s, d, poi)
  | .good d poi true => (s.hbmCe pc ln d poi pos, d, poi)
  | .ue d => (s.hbmUe pc ln d p, d, true)

/-- A 64-byte transfer of a request at its controller, reads and writes apart; PRIV counts at no port, and toward OVERHEAD in the Meter's
feed (R423, R514). -/
def State.hbmCount (s : State) (pc : PcId) (m : Msg) (cnt : Nat) : State :=
  let s := s.activity (2 + (pcStack pc).val) m.priv m.pid 1
  if m.priv then s else s.portCount 0 m.pid (16 * (pcStack pc).val + (pcCtl pc).val) cnt 1

/-- HBM_READ_DATA: a code word is decoded and answers the read that was issued for it; an ATF executes its operation, or returns
ERR with status POISON; a partial write merges its bytes into what it read (R331, R340, R341, R343, R344). -/
def execHbmReadData (pc : PcId) (ln : Nat) (raw : CodeWord) (s : State) : Host.Outcome State Fault Refusal :=
  let pos := 4 * (s.place (hbmAddr ln)).2 + ln % 4
  if 186 * 2 ^ 24 ≤ ln then .fault (.noSuchAddress (64 * ln)) else
  .next (let x := s.pcSt pc
    let r := x.issued.find? fun r => r.ln == ln
    let p := match r with | some r => if r.msg.priv then s.granulePid ln else some r.msg.pid | none => s.granulePid ln
    let (s, d, poi) := s.hbmWord pc ln raw p pos
    match r with
    | none => s
    | some r =>
      let s := s.setPc pc { s.pcSt pc with issued := (s.pcSt pc).issued.erase r }
      let back : Msg := { r.msg with src := r.msg.dst, dst := r.msg.src }
      if r.kind = .atf then
        if poi then s.replyErr r.msg stPoison
        else match s.atfRun r.msg with
          | (s, some v) => ((s.hbmCount pc r.msg 0).hbmCount pc r.msg 1).send .atr { back with data := BitVec.ofNat 512 v, poison := false, arg := 0 }
          | (s, none) => s.replyErr r.msg stPoison
      else if r.kind = .rdo then (s.hbmCount pc r.msg 0).send .dro { back with data := d, poison := poi, arg := 0 }
      else s.memPut ln (lineMerge d r.msg.data r.msg.arg) (poi || r.msg.poison))

/-- PATROL_SCRUB: every SCRUB_INT ticks the next line of a physical pseudo-channel is read and handled; a UE in the unused spare marks it BAD (R346). A place
that holds no line of a device address has no data to write back. -/
def execPatrolScrub (pc : PcId) (raw : CodeWord) (s : State) : Host.Outcome State Fault Refusal :=
  let m := (pcStack pc).val
  .next (if !(s.rb (.hbmRasCfg (pcStack pc) (pcCtl pc)) 0) then s else
    let x := s.pcSt pc
    if s.tick < x.scrubAt + max 1 (s.rf (.hbmRasCfg (pcStack pc) (pcCtl pc)) 31 8) then s else
    let q := x.scrub / 4
    let next := (x.scrub + 1) % 12582912
    -- a new pass forgets the corrections of the last one
    let s := s.setPc pc { x with scrub := next, scrubAt := s.tick, rowCe := if next = 0 then [] else x.rowCe }
    match s.unitAt m (pc.val % 32) q with
    | some (k, q0) =>
      let ln := (unitLines m k q0).getD (x.scrub % 4) 0
      (s.hbmWord pc ln raw (s.granulePid ln) x.scrub).1
    | none =>
      match decodeWord raw 0 with
      | .ue _ =>
        if s.sparePhys m = pc.val % 32 ∧ !(s.rb (lpcReg (s.bank 2) m 31) 5) then
          (s.rgSet (lpcReg false m 31) (setFld (s.rg (lpcReg false m 31)) 6 6 1)) |> fun s =>
            s.rgSet (lpcReg true m 31) (setFld (s.rg (lpcReg true m 31)) 6 6 1)
        else s
      | .good _ _ true => s.hbmCeCount pc x.scrub
      | .good _ _ false => s)

/-- HPPR_COMPLETE: the row is verified and its entry freed with event 0x5003, or the entry is permanent with 0x5004 (R348). -/
def execHpprComplete (pc : PcId) (e : Fin 16) (ok : Bool) (s : State) : Host.Outcome State Fault Refusal :=
  let r := pcRemap pc e.val
  .next (if !(s.rb r 0) || s.rf r 22 21 != 1 then s
    else if ok then ((s.rgSet r 0).rfSet (pcErr pc) 44 40 (s.rf (pcErr pc) 44 40 - 1)).bb 0x5003 none (pcInst pc) 0
    else (s.rfSet r 22 21 2).bb 0x5004 none (pcInst pc) 0)

/-! ## Requests and scheduling (R331–R341) -/

/-- The port of a request (R332): its class by source, and the ports its partition owns; PRIV uses the service port. -/
def State.hbmPortOf (s : State) (pc : PcId) (kind : MsgKind) (m : Msg) : Nat :=
  if m.priv then 64 else
  let cls := if kind = .wrh ∨ kind = .wri then 2 else if m.src.toNat < 36 then 0 else if m.src.toNat < 0x2C then 1 else 3
  let own := ((List.range 4).filter fun j => s.rb (.hbmPort (pcStack pc) (pcCtl pc) (Fin.ofNat 65 (4 * m.pid.val + j))) 12).length
  4 * m.pid.val + min cls (own - 1)

/-- A request of a home slice reaches a controller: it joins its pseudo-channel's queue on an enabled port; a write is performed
in the order of arrival, so not before an earlier read of its line, and answered with CMP; a read that finds a queued full-line write is answered from it (R331–R333, R339,
R340). A request that the port or a full queue does not take stays in flight. -/
def State.hbmArrive (s : State) (kind : MsgKind) (m : Msg) : State :=
  let a := hbmAddr m.ln
  let (phys, _) := s.place a
  let pc := pcOf a.m phys
  let x := s.pcSt pc
  let port := s.hbmPortOf pc kind m
  let back : Msg := { m with src := m.dst, dst := m.src, arg := 0 }
  let whole : Bool := kind == .wri || m.arg == BitVec.allOnes 64
  let asked : Msg := { m with arg := if kind == .wri then BitVec.allOnes 64 else m.arg }
  let req : HbmReq := { kind := kind, ln := m.ln, port := port, at_ := s.now, level := 0, full := whole, msg := asked }
  if !(s.rb (.hbmPort (pcStack pc) (pcCtl pc) (Fin.ofNat 65 port)) 12) then s
  else if (kind = .wrh ∨ kind = .wri) && (x.rq ++ x.issued).any (fun r => r.ln == m.ln) then s
  else if kind = .wrh ∨ kind = .wri then
    let mask := if kind = .wri then BitVec.allOnes 64 else m.arg
    let old := (s.memLine m.ln, (s.line m.ln).mpois)
    let poi := if mask = BitVec.allOnes 64 then m.poison else m.poison || old.2
    let merged := x.wq.any (·.ln == m.ln)
    if !merged && 64 ≤ x.wq.length then s
    else
      let s := (s.arrived kind m).memPut m.ln (lineMerge old.1 m.data mask) poi
      let join (r : HbmReq) : HbmReq :=
        let msg : Msg :=
          { r.msg with data := lineMerge r.msg.data m.data mask, arg := r.msg.arg ||| mask, poison := (r.msg.poison && !req.full) || m.poison }
        { r with full := msg.arg == BitVec.allOnes 64, msg := msg }
      let s := if merged then s.setPc pc { x with wq := x.wq.map fun r => if r.ln = m.ln then join r else r }
               else s.setPc pc { x with wq := x.wq ++ [req] }
      (s.hbmCount pc m 1).send .cmp { back with data := 0, poison := false }
  else if kind = .rdo && x.wq.any (fun r => r.ln == m.ln && r.full) then
    ((s.arrived kind m).hbmCount pc m 0).send .dro { back with data := s.memLine m.ln, poison := (s.line m.ln).mpois }
  else if 64 ≤ x.rq.length then s
  else (s.arrived kind m).setPc pc { x with rq := x.rq ++ [req] }

/-- The urgency of a request by the time it has waited and its port's TARGET (R334). -/
def State.urgency (s : State) (pc : PcId) (r : HbmReq) : Nat :=
  let t := 16 * max 1 (s.rf (.hbmPort (pcStack pc) (pcCtl pc) (Fin.ofNat 65 r.port)) 11 0)
  let e := s.now - r.at_
  if t ≤ e then 3 else if 3 * t ≤ 4 * e then 2 else if t ≤ 2 * e then 1 else 0

/-- URGENCY_ESCALATION: a request's level follows the time it has waited; reaching 3 counts LATE at its port (R334). -/
def execUrgencyEscalation (pc : PcId) (idx : Nat) (wr : Bool) (s : State) : Host.Outcome State Fault Refusal :=
  let x := s.pcSt pc
  let q := if wr then x.wq else x.rq
  .next (match q[idx]? with
  | none => s
  | some r =>
    let l := s.urgency pc r
    if l ≤ r.level then s else
    let q' := q.set idx { r with level := l }
    let s := s.setPc pc (if wr then { x with wq := q' } else { x with rq := q' })
    if l = 3 then s.rfInc (.hbmPort (pcStack pc) (pcCtl pc) (Fin.ofNat 65 r.port)) 63 32 1 else s)

/-- The mode of a pseudo-channel before a pick (R337). -/
def State.hbmMode (s : State) (pc : PcId) (x : PcSt) : Bool :=
  let cfg : Reg := .hbmSchedCfg (pcStack pc) (pcCtl pc)
  let urgentW := x.wq.any fun r => decide (2 ≤ r.level)
  if x.wmode then
    !(decide (x.wq.length ≤ s.rf cfg 27 22) || (x.rq.any (fun r => decide (3 ≤ r.level)) && !(x.wq.any fun r => decide (3 ≤ r.level))))
  else decide (s.rf cfg 21 16 ≤ x.wq.length) || urgentW

/-- The most urgent request, the oldest among equals. -/
def topReq : List HbmReq → Option HbmReq
  | [] => none
  | r :: t => some (t.foldl (fun b x => if b.level < x.level then x else b) r)

/-- A bank's chosen request (R336). -/
def State.bankChoice (s : State) (x : PcSt) (hits : Nat) (q : List HbmReq) (b : Nat) : Option HbmReq :=
  let mine := q.filter fun r => unitBank (s.place (hbmAddr r.ln)).2 == b
  match topReq mine, (x.rows.get none b : Option Nat) with
  | some top, some row =>
    let hit := mine.find? fun r => unitRow (s.place (hbmAddr r.ln)).2 == row
    match hit with
    | some h => if top.level ≤ h.level && decide (x.hits.get 0 b < max 1 hits) then some h else some top
    | none => some top
  | t, _ => t

/-- A bank under repair serves only the rows that remap entries hold (R348). -/
def State.bankRepairs (s : State) (pc : PcId) (ln : Nat) : Bool :=
  let q := (s.place (hbmAddr ln)).2
  let b := unitBank q
  let here (e : Nat) : Bool := s.rb (pcRemap pc e) 0 && s.rf (pcRemap pc e) 6 1 == b / 16 + b / 4 % 4 * 4 + b % 4 * 16
  ((List.range 16).any fun e => here e && s.rf (pcRemap pc e) 22 21 == 1) && !(s.remapped pc q)

/-- The channel of a pseudo-channel. -/
def pcCh (pc : PcId) : ChId := ⟨pc.val / 2, by omega⟩

/-- A channel is re-centred in Net cycles 0–1,599 of its tick of 128,000, and of its tick after a thermal event (R357, R358). -/
def State.recentres (s : State) (ch : ChId) : Bool :=
  let therm := match (s.stack (ch.val / 16)).thermAt with | some t => s.tick == t + 1 + ch.val % 16 | none => false
  (s.tick % 128000 == 1000 * ch.val || therm) && decide (s.cycle < 1600)

/-- The channel's requests are held: in a re-centring window, and while it is retrained, for at most 40 ticks (R357, R359). -/
def State.chHeld (s : State) (pc : PcId) : Bool :=
  s.recentres (pcCh pc) ||
  match ((s.stack (pcStack pc).val).train.get none (pcCh pc).val : Option Nat) with | some t => decide (s.tick ≤ t + 40) | none => false

/-- HBM_SCHEDULE_PICK: the pseudo-channel settles its mode and picks a bank queue by urgency, age and rotation; the bank's chosen
request is issued (R335–R337). A read that finds a queued masked write of its line waits for it, as every request waits for an access to its line
that is under way (R339, R341). While the channel is re-centred or retrained nothing is picked (R357, R359). -/
def execHbmSchedulePick (pc : PcId) (s : State) : Host.Outcome State Fault Refusal :=
  let x := s.pcSt pc
  let mode := s.hbmMode pc x
  let x := { x with wmode := mode }
  let cfg : Reg := .hbmSchedCfg (pcStack pc) (pcCtl pc)
  let q := if mode then x.wq else x.rq.filter fun r => !(x.wq.any fun w => w.ln == r.ln)
  let q := q.filter fun r => !(s.bankRepairs pc r.ln) && !(x.issued.any fun w => w.ln == r.ln)
  let picks := if s.chHeld pc then [] else (List.range 48).filterMap fun b => (s.bankChoice x (s.rf cfg 12 8) q b).map fun r => (b, r)
  .next (match x.arb.pick (s.rf cfg 7 0) (picks.map fun y => (y.1, y.2.level)) with
  | none => s.setPc pc x
  | some (b, arb) =>
    match picks.find? fun y => y.1 == b with
    | none => s.setPc pc x
    | some (_, r) =>
      let row := unitRow (s.place (hbmAddr r.ln)).2
      let isHit := (x.rows.get none b : Option Nat) == some row
      let x := { x with arb := arb, rows := x.rows.set none b (some row), hits := x.hits.set 0 b (if isHit then x.hits.get 0 b + 1 else 0) }
      if mode then s.setPc pc { x with wq := x.wq.erase r, issued := if r.full then x.issued else x.issued ++ [r] }
      else s.setPc pc { x with rq := x.rq.erase r, issued := x.issued ++ [r] })

/-- REFRESH: the bank is refreshed, which closes its row (R360). -/
def execRefresh (pc : PcId) (bank : Fin 48) (s : State) : Host.Outcome State Fault Refusal :=
  let x := s.pcSt pc
  .next (s.setPc pc { x with rows := x.rows.set none bank.val none, hits := x.hits.set 0 bank.val 0 })

/-! ## Drift, temperature and retraining (R357–R359) -/

def chStack (ch : ChId) : StackId := ⟨ch.val / 16, by omega⟩

/-- CHANNEL_RECENTRE: in the channel's window; an eye below the limits sets MARGIN with event 0x5020 (R357–R359). -/
def execChannelRecentre (ch : ChId) (low : Bool) (s : State) : Host.Outcome State Fault Refusal :=
  let m := chStack ch
  .next (if s.recentres ch && low then
    let s := s.setStack m.val { s.stack m.val with low := insertNat ch.val (s.stack m.val).low }
    (s.rfSet (.hbmPhyStatus m) 16 16 1).bb 0x5020 none (hbmInst m.val 16) 0
  else s)

/-- THERMAL_READ: every 1,000 ticks TEMP takes the reading; a change of 4 °C since the last thermal re-centring, or since the first reading where
there was none, starts one with event 0x5022 (R358). -/
def execThermalRead (m : StackId) (temp : Int) (s : State) : Host.Outcome State Fault Refusal :=
  let early := match (s.stack m.val).readAt with | some t => decide (s.tick < t + 1000) | none => false
  .next (if early then s else
    let s := s.rfSet (.hbmPhyStatus m) 15 8 (BitVec.ofInt 8 temp).toNat
    let x := { s.stack m.val with readAt := some s.tick }
    match x.temp with
    | none => s.setStack m.val { x with temp := some temp }
    | some t =>
      if 4 ≤ (temp - t).natAbs then (s.setStack m.val { x with temp := some temp, thermAt := some s.tick }).bb 0x5022 none (hbmInst m.val 16) 0
      else s.setStack m.val x)

/-- CHANNEL_RETRAIN: the PSC retrains a channel whose eyes are below the limits, after MARGIN (R359). -/
def execChannelRetrain (ch : ChId) (s : State) : Host.Outcome State Fault Refusal :=
  let m := chStack ch
  let x := s.stack m.val
  .next (if x.low.contains ch.val && (x.train.get none ch.val : Option Nat).isNone then
    (s.setStack m.val { x with train := x.train.set none ch.val (some s.tick) }).rfSet (.hbmPhyStatus m) 17 17 1
  else s)

/-- CHANNEL_RETRAIN_DONE: event 0x5021 with the result, whose code the specification does not give; three failures in a row retire
both pseudo-channels of the channel (R359). RETRAIN shows whether a channel of the stack is still in a retrain. -/
def execChannelRetrainDone (ch : ChId) (ok : Bool) (s : State) : Host.Outcome State Fault Refusal :=
  let m := chStack ch
  .next (if ((s.stack m.val).train.get none ch.val : Option Nat).isNone then s else
    let (code, s) := s.draw
    let x := s.stack m.val
    let n := if ok then 0 else s.hbm.fails.get 0 ch.val + 1
    let train := x.train.set none ch.val none
    let s := s.setStack m.val { x with train := train, low := if ok || n == 3 then x.low.erase ch.val else x.low }
    let s := (s.rfSet (.hbmPhyStatus m) 17 17 (b2n !train.isEmpty)).bb 0x5021 none (hbmInst m.val 16) (fld code 3 0)
    let s := { s with hbm := { s.hbm with fails := s.hbm.fails.set 0 ch.val n } }
    if n = 3 then
      (s.retirePc (pcOf m.val (2 * (ch.val % 16)))).retirePc (pcOf m.val (2 * (ch.val % 16) + 1))
    else s)

/-- At a tick boundary the windows of 1,000,000 ticks that have ended begin again (R345, R349). -/
def State.ceWindows (s : State) : State :=
  s.hbm.pcs.foldl (fun (s : State) e =>
    if e.2.winAt + 1000000 ≤ s.tick then
      let pc : PcId := Fin.ofNat 256 e.1
      (s.setPc pc { s.pcSt pc with winAt := s.tick / 1000000 * 1000000 }).rfSet (pcErr pc) 31 16 0
    else s) s

end Sys2Proof.Machine
end

