-- ==== Sys2Proof/Machine/Io.lean ====
section
/-! DEFINITION. PCIe, CXL, I/O translation and interrupts (R213–R216, R363–R395): the Device Region Table, root ports, upstream
requests and their translation, CXL memory, the interrupt distributor, and the completions that agents outside the clusters
receive. -/

namespace Sys2Proof.Machine

/-! ## The Device Region Table (R213–R216) -/

/-- The lowest-numbered valid region that contains a PPA (R213). -/
def State.drtFind (s : State) (p : Pid) (ppa : Nat) : Option (Fin 64) :=
  ((List.range 64).find? fun i =>
    let lo := s.rg (.drtRegionLo p (Fin.ofNat 64 i))
    let base := fld lo 47 12
    bit lo 0 && decide (base ≤ ppa / 4096 ∧ ppa / 4096 < base + fld (s.rg (.drtRegionHi p (Fin.ofNat 64 i))) 56 32)).map (Fin.ofNat 64)

/-- The timeout of a region, or the default (DRT_REGION_HI.TIMEOUT, R213). -/
def State.drtTimeout (s : State) (p : Pid) (r : Option (Fin 64)) : Nat :=
  match r with
  | none => 1000
  | some i =>
    let t := s.rf (.drtRegionHi p i) 19 0
    if t = 0 then 1000 else max 10 (min t 1000000)

/-- A valid region lies inside the MMIO window (R214). -/
def drtFits (lo hi : Word) : Bool :=
  !(bit lo 0) || decide (0xFFF000000 ≤ fld lo 47 12 ∧ fld lo 47 12 + fld hi 56 32 ≤ 2 ^ 36)

/-- A direct write to a region register (R4, R214). -/
def State.drtWrite (s : State) (p : Pid) (w : World) (i : Fin 64) (hi : Bool) (v : Word) : State :=
  let lock := s.rb (.drtCtl p) 0
  let lo0 := s.rg (.drtRegionLo p i)
  let hi0 := s.rg (.drtRegionHi p i)
  let lo1 := if hi then lo0 else regWritten (.drtRegionLo p i) lock lo0 v
  let hi1 := if hi then regWritten (.drtRegionHi p i) lock hi0 v else hi0
  if (w == .outer && (bit lo0 1 || bit lo1 1)) || !(drtFits lo1 hi1) then
    (s.rfSet (.drtCtl p) 4 4 1).bb 0x8032 (some p) (0x40 + p.val) i.val
  else (s.rgSet (.drtRegionLo p i) lo1).rgSet (.drtRegionHi p i) hi1

/-- DRT_REGION_WRITE (R214). -/
def execDrtRegionWrite (p : Pid) (w : World) (i : Fin 64) (hi : Bool) (v : Word) (s : State) : Host.Outcome State Fault Refusal :=
  .next (s.drtWrite p w i hi v)

/-- DRT_LOCK: LOCK is set (R214). -/
def execDrtLock (p : Pid) (s : State) : Host.Outcome State Fault Refusal := .next (s.rfSet (.drtCtl p) 0 0 1)

/-- DEVICE_ACCESS_TIMEOUT: the access is abandoned, the region is dead, and the core is told (R216). -/
def execDeviceAccessTimeout (id : Nat) (s : State) : Host.Outcome State Fault Refusal :=
  .next (match s.devs.find? fun a => a.id == id with
  | none => s
  | some a =>
    if !(s.expired a.armed a.timeout) then s else
    let p := s.pidOf a.core
    let page := a.ppa / 4096
    let unit := match a.port with | some n => 0x100 + n | none => 0xFFFF
    let s := match a.region with
      | none => (s.bbCoal 0x8031 p 0xFF page).rasPush p 0x8031 false a.ppa unit
      | some r =>
        let reg : Reg := .drtRegionLo p (Fin.ofNat 64 r)
        if s.rb reg 3 then s else ((s.rfSet reg 3 3 1).bb 0x8031 (some p) 0xFF page).rasPush p 0x8031 false a.ppa unit
    (s.devFail a stDeviceTimeout).sleepSettle a.core)

/-! ## The interrupt distributor (R389–R391) -/

/-- A partition that is DOWN has every route treated as EN = 0 (R475). -/
def State.irdMasked (s : State) (p : Pid) : Bool := s.partState p == 5

/-- Deliver what a route holds, now that its EN is 1 (R389, R390). -/
def State.irdFlush (s : State) (p : Pid) (i : Fin 2048) : State :=
  let r : Reg := .irdRoute p i
  let v := s.rg r
  if !(bit v 9) || !(bit v 10) || s.irdMasked p then s
  else
    let s := s.rfSet r 10 10 0
    if i.val < 16 then
      let key := 16 * p.val + i.val
      let held : List Nat := s.ipi.get [] key
      let s := { s with ipi := s.ipi.set [] key [] }
      held.foldl (fun s n =>
        if s.ownsCore p (Fin.ofNat 216 n) then s.deliver p i.val (bit v 8) (Fin.ofNat 216 n) else s.bb 0x8042 (some p) (0x40 + p.val) n) s
    else s.raiseInt p i.val

/-- A write to a route (R389, R390). -/
def State.irdWrite (s : State) (p : Pid) (w : World) (i : Fin 2048) (v : Word) : State :=
  let r : Reg := .irdRoute p i
  let old := s.rg r
  let n := fld v 7 0
  if w == .outer && (bit old 8 || bit v 8) then s.bb 0x8043 (some p) (0x40 + p.val) 0
  else if decide (16 ≤ i.val) && !(decide (n < 216) && s.ownsCore p (Fin.ofNat 216 n)) then s.bb 0x8042 (some p) (0x40 + p.val) 0
  else
    let s := s.rfSet r 9 0 (fld v 9 0)
    if bit v 9 then s.irdFlush p i
    else if bit v 10 then
      let s := s.rfSet r 10 10 0
      if i.val < 16 then { s with ipi := s.ipi.set [] (16 * p.val + i.val) [] } else s
    else s

/-- IRD_ROUTE_WRITE (R389). -/
def execIrdRouteWrite (p : Pid) (w : World) (i : Fin 2048) (v : Word) (s : State) : Host.Outcome State Fault Refusal :=
  .next (s.irdWrite p w i v)

/-- A write to IRD_IPI (R390). -/
def State.ipiWrite (s : State) (p : Pid) (v : Word) : State :=
  let n := fld v 7 0
  let i := fld v 11 8
  let r : Reg := .irdRoute p (Fin.ofNat 2048 i)
  if !(decide (n < 216) && s.ownsCore p (Fin.ofNat 216 n)) then s.bb 0x8042 (some p) (0x40 + p.val) 0
  else if s.rb r 9 && !(s.irdMasked p) then s.deliver p i (s.rb r 8) (Fin.ofNat 216 n)
  else
    let key := 16 * p.val + i
    let held : List Nat := s.ipi.get [] key
    { (s.rfSet r 10 10 1) with ipi := s.ipi.set [] key (insertNat n held) }

/-- IRD_IPI_WRITE (R390); the world of the write makes no difference. -/
def execIrdIpiWrite (p : Pid) (_w : World) (v : Word) (s : State) : Host.Outcome State Fault Refusal := .next (s.ipiWrite p v)

/-! ## Root ports -/

/-- The root complex of a port, and its agent ID (R264). -/
def portRc (port : PortId) : Fin 8 := ⟨port.val / 4, by omega⟩
def rcAgent (r : Fin 8) : BitVec 8 := BitVec.ofNat 8 (0x24 + r.val)

/-- The port takes upstream requests: it is up, or quiescing (R387). -/
def State.portTakes (s : State) (port : PortId) : Bool := s.hasPort port && (s.portState port == 2 || s.portState port == 3)

/-- The UNIT of a root port in a RAS record (R473). -/
def portUnit (port : PortId) : Nat := 0x100 + port.val

/-- Containment of a port (R388): it enters the quiesce at step 3, STATE is 4, event 0x8044, and a UCR record to its partition. -/
def State.portContain (s : State) (port : PortId) : State :=
  if !(s.hasPort port) || !(decide (1 ≤ s.portState port ∧ s.portState port ≤ 3)) then s
  else
    let p := s.portOwner port
    let s := (s.portDown port 4).bb 0x8044 p port.val 0
    match p with
    | some p => s.rasPush p 0x8044 false 0 (portUnit port)
    | none => s

/-- PORT_CONTAINMENT (R388). -/
def execPortContainment (port : PortId) (s : State) : Host.Outcome State Fault Refusal := .next (s.portContain port)

/-- DPC_RELEASE: partition software releases the containment; the port retrains (R388). -/
def execDpcRelease (port : PortId) (s : State) : Host.Outcome State Fault Refusal :=
  .next (if s.portState port = 4 && (s.portOwner port).isSome then s.setPortState port 1 else s)

/-- PCIE_REFCLK_FAULT: the complex's ports are contained (R485). -/
def execPcieRefclkFault (rc : Fin 8) (s : State) : Host.Outcome State Fault Refusal :=
  .next ((List.range 4).foldl (fun s i => s.portContain (Fin.ofNat 32 (4 * rc.val + i))) s)

/-- Step 1 of a quiesce (R387). -/
def State.quiesceStart (s : State) (port : PortId) : State :=
  (s.setPortSt port { s.portSt port with step := 1, since := s.tick }).setPortState port 3

/-- A downstream request that its target completes: every one but a write to a memory BAR (R387). -/
def DevAcc.nonPosted (a : DevAcc) : Bool := !a.write || decide (a.ppa < 0xFFF080000000)

/-- PORT_QUIESCE_WAIT_END: the downstream completions have arrived, or 1,000 ticks have passed; steps 3 and 4, and PERST# is
asserted (R387). -/
def execPortQuiesceWaitEnd (port : PortId) (s : State) : Host.Outcome State Fault Refusal :=
  let x := s.portSt port
  .next (if x.step != 1 then s
    else if (s.devs.any fun a => a.port == some port.val && a.nonPosted) && !(s.expired x.since 1000) then s
    else
      let s := s.portCut port
      s.setPortSt port { s.portSt port with step := 2, since := s.tick })

/-- The granules of a CXL port are mapped to these partitions (R47, R384). -/
def State.cxlOwners (s : State) (port : PortId) : List Nat :=
  let base := 0x08100000 + (if s.bank 2 then 0x8000 else 0)
  s.regs.foldl (fun acc e =>
    if base ≤ e.1 ∧ e.1 < base + 0x8000 ∧ bit e.2 0 then
      let g := fld e.2 51 30
      if g / 2 ^ 21 = 1 ∧ g / 2 ^ 18 % 8 = port.val / 4 ∧ g / 2 ^ 17 % 2 = port.val % 4 / 2 then insertNat (fld e.2 7 4) acc else acc
    else acc) []

/-- CXL_DEVICE_LOST: STATE 6, event 0x8050, one UCR record to each owner of the device's granules (R386). -/
def execCxlDeviceLost (port : PortId) (s : State) : Host.Outcome State Fault Refusal :=
  .next (if s.portMode port != 2 || !(s.hasPort port) || s.portState port == 6 then s
    else
      let owners := s.cxlOwners port
      let s := (s.setPortState port 6).bb 0x8050 none port.val 0
      owners.foldl (fun s p => s.rasPush (Fin.ofNat 16 p) 0x8050 false 0 (portUnit port)) s)

/-! ## The IOT's tables (R375–R378) -/

/-- IOT as data. -/
def State.iot (s : State) (p : Pid) : Iot := s.iots.get Iot.empty p.val
def State.setIot (s : State) (p : Pid) (x : Iot) : State := { s with iots := s.iots.set Iot.empty p.val x }

def iotRoot (p : Pid) (inner : Bool) : Reg := if inner then .iotCtxRootI p else .iotCtxRootO p

/-- A context without reserved bits; an inner one without stage 2 (R376, R377). -/
def ctxOk (inner : Bool) (w0 w1 : Word) : Bool :=
  bit w0 0 && fld w0 11 6 == 0 && fld w0 63 56 == 0 && fld w1 11 5 == 0 && fld w1 63 57 == 0 && !(inner && bit w0 2)

/-- The context of a RID in one world's tables (R376). -/
def ctxWalk (p : Pid) (inner : Bool) (rid : Nat) (s : State) : Res (Option (Word × Word)) :=
  (ioRead p inner (s.rf (iotRoot p inner) 47 12 * 4096 + 8 * (rid / 256)) s).bind fun b s =>
    match b with
    | .inl _ => .ok none s
    | .inr b =>
      if !(bit b 0) then .ok none s else
      let at_ := fld b 47 12 * 4096 + 16 * (rid % 256)
      (ioRead p inner at_ s).bind fun w0 s => (ioRead p inner (at_ + 8) s).bind fun w1 s =>
        match w0, w1 with
        | .inr w0, .inr w1 => .ok (if ctxOk inner w0 w1 then some (w0, w1) else none) s
        | _, _ => .ok none s

/-- The context that the IOT uses in one world: the cached one, otherwise the table's, which is then cached (R377, R380). -/
def ctxOf (p : Pid) (port : PortId) (inner : Bool) (rid : Nat) (s : State) : Res (Option (Word × Word)) :=
  let x := s.iot p
  if !(s.rb (iotRoot p inner) 0) || x.blocked.contains rid then .ok none s
  else match x.cache.find? fun e => e.kind == 0 && e.inner == inner && e.rid == rid with
    | some e => .ok (some (e.w0, e.w1)) s
    | none => (ctxWalk p inner rid s).bind fun w s =>
      match w with
      | none => .ok none s
      | some (w0, w1) =>
        let e : IotEnt := { port := port.val, kind := 0, inner := inner, rid := rid, pasid := 0, s2id := none, ipa := 0, w0 := w0, w1 := w1, xl := none }
        .ok (some (w0, w1)) (s.setIot p { s.iot p with cache := e :: (s.iot p).cache })

/-- A fault of the IOT (R381): its cause, whether stage 2 raised it, FSC and LEVEL. -/
structure IotFault where
  cause : Nat
  s2    : Bool
  fsc   : Nat
  lvl   : Nat
  deriving DecidableEq, Repr

def iotFaultOf (cause : Nat) : IotFault := { cause := cause, s2 := false, fsc := 0, lvl := 0 }

/-- A translation fault's FSC, level and stage, from the INFO layout of R189. -/
def iotFaultExc (e : Exc) : IotFault := { cause := 2, s2 := e.info / 2 ^ 6 % 2 == 1, fsc := e.info % 64, lvl := e.info / 2 ^ 9 % 8 }

/-- Stages of a context as translation registers: stage 1 with a PASID entry's root and levels, stage 2 of the context (R376, R378). -/
def ctxRegs (w0 : Word) (pe : Option Word) : TrRegs :=
  { s1Root := (match pe with | some e => BitVec.ofNat 64 (fld e 56 12 * 4096) | none => 0),
    s1Ctl := (match pe with | some e => BitVec.ofNat 64 (1 + fld e 2 1 * 2) | none => 0),
    s2Root := BitVec.ofNat 64 (fld w0 47 12 * 4096),
    s2Ctl := BitVec.ofNat 64 (b2n (bit w0 2) + fld w0 5 4 * 2 + fld w0 55 48 * 2 ^ 16) }

/-- What a request needs of the leaves (R378). -/
def upKind : UpKind → Kind
  | .read _ | .translate => .read
  | .write => .write
  | .atomic _ _ _ => .rw

/-- Stage-2 space identifier of a context, where it has stage 2. -/
def ctxS2id (w0 : Word) : Option Nat := if bit w0 2 then some (fld w0 55 48) else none

/-- The PASID entry of a request, cached or read; its address is an IPA where stage 2 applies (R376, R378). -/
def pasidEntry (p : Pid) (port : PortId) (inner : Bool) (q : UpReq) (w0 w1 : Word) (s : State) : Res (IotFault ⊕ Word) :=
  let rid := q.rid.toNat
  let n := (q.pasid.getD 0).toNat
  let x := s.iot p
  let bad : IotFault ⊕ Word := .inl (iotFaultOf 1)
  if 2 ^ fld w1 4 0 ≤ n then .ok bad s
  else match x.cache.find? fun e => e.kind == 1 && e.inner == inner && e.rid == rid && e.pasid == n with
    | some e => .ok (.inr e.w0) s
    | none =>
      let ea := fld w1 56 12 * 4096 + 8 * n
      let c : Ctx := { k := 0, pl := 0, inner := inner, tr := ctxRegs w0 none, va := ea, kind := .read, spec := false, io := some p }
      match tableAddr c true ea s with
      | .exc e s => .ok (.inl (iotFaultExc e)) s
      | .wait s => .wait s
      | .ok pa s => (ioRead p inner pa s).bind fun r s =>
        match r with
        | .inl _ => .ok bad s
        | .inr e =>
          if !(bit e 0) || fld e 11 3 ≠ 0 || fld e 63 57 ≠ 0 then .ok bad s
          else
            let ent : IotEnt := { port := port.val, kind := 1, inner := inner, rid := rid, pasid := n, s2id := ctxS2id w0, ipa := ea / 4096,
                                  w0 := e, w1 := 0, xl := none }
            .ok (.inr e) (s.setIot p { s.iot p with cache := ent :: (s.iot p).cache })

/-- Every check of R378 on the leaves of a request. -/
def upVerdict (c : Ctx) (q : UpReq) (l : Leaves) : Option Exc :=
  let x := checkLeaves c 0 l
  match q.kind with
  | .read true => x.or (checkLeaves { c with kind := .exec } 0 l)
  | _ => x

/-- The leaves of a request under its stages: from the cache, otherwise walked and cached (R378, R380). -/
def upLeaves (p : Pid) (port : PortId) (c : Ctx) (q : UpReq) (s2id : Option Nat) (s : State) : Res (IotFault ⊕ Leaves) :=
  let n := (q.pasid.getD 0).toNat
  let hit := (s.iot p).cache.findSome? fun e =>
    if e.kind = 2 ∧ e.inner = c.inner ∧ e.rid = q.rid.toNat ∧ e.pasid = n then
      match e.xl with | some t => if c.uses t then some (t.leaves c.va) else none | none => none
    else none
  let walk : Res (IotFault ⊕ Leaves) :=
    match walkBoth c true 0 s with
    | .wait s => .wait s
    | .exc e s => .ok (.inl (iotFaultExc e)) s
    | .ok l s =>
      match upVerdict c q l with
      | some e => .ok (.inl (iotFaultExc e)) s
      | none =>
        if l.l1.isNone && l.l2.isNone then .ok (.inr l) s
        else
          let ent : IotEnt := { port := port.val, kind := 2, inner := c.inner, rid := q.rid.toNat, pasid := n, s2id := s2id,
                                ipa := l.ipa c.va / 4096, w0 := 0, w1 := 0, xl := some (tlbMake c l) }
          .ok (.inr l) (s.setIot p { s.iot p with cache := ent :: (s.iot p).cache })
  match hit with
  | some l => match upVerdict c q l with | none => .ok (.inr l) s | some _ => walk
  | none => walk

/-- Resolve a request: the world of its context, the context and the leaves of its address (R370 steps 1 and 2, R377–R379). -/
def iotResolve (p : Pid) (port : PortId) (q : UpReq) (s : State) : Res (IotFault ⊕ (Bool × Word × Leaves)) :=
  let rid := q.rid.toNat
  (ctxOf p port true rid s).bind fun ci s =>
  let outer : Res (Option (Bool × Word × Word)) := match ci with
    | some (a, b) => .ok (some (true, a, b)) s
    | none => (ctxOf p port false rid s).bind fun co s => .ok (co.map fun x => (false, x.1, x.2)) s
  outer.bind fun found s =>
  match found with
  | none => .ok (.inl (iotFaultOf 0)) s
  | some (inner, w0, w1) =>
    let ats := q.translated || q.kind == .translate
    if ats && !(bit w0 3) then .ok (.inl (iotFaultOf 3)) s
    else
      let entry : Res (IotFault ⊕ Option Word) :=
        if bit w0 1 && !q.translated then (pasidEntry p port inner q w0 w1 s).bind fun r s =>
          match r with
          | .inl f => .ok (.inl f) s
          | .inr e => .ok (.inr (some e)) s
        else .ok (.inr none) s
      entry.bind fun pe s =>
      match pe with
      | .inl f => .ok (.inl f) s
      | .inr pe =>
        let c : Ctx := { k := 0, pl := if q.priv then 1 else 0, inner := inner, tr := ctxRegs w0 pe, va := q.addr, kind := (upKind q.kind),
                         spec := false, io := some p }
        (upLeaves p port c q (ctxS2id w0) s).bind fun r s =>
          match r with
          | .inl f => .ok (.inl f) s
          | .inr l => .ok (.inr (inner, w0, l)) s

/-! ## Fault records (R381) -/

/-- IOT_FAULT_LO and IOT_FAULT_HI show the oldest record. -/
def State.iotShow (s : State) (p : Pid) : State :=
  let x := s.iot p
  match x.faults with
  | [] => (s.rgSet (.iotFaultLo p) 0).rgSet (.iotFaultHi p) 0
  | (lo, hi) :: _ => (s.rgSet (.iotFaultLo p) (setFld (setFld lo 62 62 (b2n x.ovf)) 63 63 1)).rgSet (.iotFaultHi p) hi

/-- Record a fault; the first record of an empty FIFO raises the INTID of IOT_FAULT_INT. -/
def State.iotRecord (s : State) (p : Pid) (q : UpReq) (f : IotFault) : State :=
  let x := s.iot p
  let lo := q.rid.toNat + (q.pasid.getD 0).toNat * 2 ^ 16 + b2n q.pasid.isSome * 2 ^ 36 + b2n (upKind q.kind).writes * 2 ^ 37 +
    b2n f.s2 * 2 ^ 38 + f.cause * 2 ^ 39 + f.fsc * 2 ^ 42 + f.lvl * 2 ^ 48
  if 16 ≤ x.faults.length then (s.setIot p { x with ovf := true }).iotShow p
  else
    let s := (s.setIot p { x with faults := x.faults ++ [(BitVec.ofNat 64 lo, BitVec.ofNat 64 (q.addr / 4096 * 4096 % 2 ^ 57))] }).iotShow p
    if x.faults.isEmpty && s.rb (.iotFaultInt p) 11 then s.raiseInt p (s.rf (.iotFaultInt p) 10 0) else s

/-- Reading IOT_FAULT_HI removes the record. -/
def State.iotPop (s : State) (p : Pid) : State :=
  let x := s.iot p
  (s.setIot p { x with faults := x.faults.drop 1, ovf := false }).iotShow p

/-- IOT_FAULT_POP (R381); the value read is delivered in `reply`. -/
def execIotFaultPop (p : Pid) (s : State) : Host.Outcome State Fault Refusal :=
  .next ({ s with reply := natBytes (s.rg (.iotFaultHi p)).toNat 8 }.iotPop p)

/-! ## Upstream requests (R369–R374) -/

/-- Completion statuses: successful, unsupported request, completer abort. -/
def cplSc : Byte := 0
def cplUr : Byte := 1
def cplCa : Byte := 4

/-- The completion of a request that is answered at once; a posted write has none (R371). -/
def State.upCpl (s : State) (q : UpReq) (st : Byte) : State := if q.kind = .write then s else { s with reply := [st] }

/-- The lines, offsets and lengths of a run of bytes. -/
def upSegs : Nat → Nat → Nat → List (Nat × Nat × Nat)
  | 0, _, _ => []
  | n + 1, da, size =>
    if size = 0 then []
    else
      let k := min size (64 - da % 64)
      (da / 64, da % 64, k) :: upSegs n (da + k) (size - k)

/-- A root complex's message to the home of a line. -/
def rcMsg (port : PortId) (p : Pid) (inner : Bool) (ln : Nat) : Msg :=
  { Msg.zero with pid := p, inner := inner, src := rcAgent (portRc port), dst := sliceAgent (homeOf ln), ln := ln }

/-- The widths of AtomicOps in bytes: a CAS carries two operands (R365). -/
def upAtomBytes (q : UpReq) : Option Nat :=
  match q.kind with
  | .atomic op _ _ =>
    let n := if op = 2 then q.size / 2 else q.size
    if n = 4 ∨ n = 8 then some n else none
  | _ => none

/-- The payload bytes of an accepted request and of its completion (R514). -/
def State.upCount (s : State) (port : PortId) (p : Pid) (q : UpReq) : State :=
  match q.kind with
  | .read _ => s.portCount 3 p port.val 1 q.size
  | .write => s.portCount 3 p port.val 0 q.size
  | .atomic _ _ _ => (s.portCount 3 p port.val 0 q.size).portCount 3 p port.val 1 ((upAtomBytes q).getD 4)
  | .translate => s

/-- Send an accepted request to the home slices: RDO, WRH, or ATF with the far hint (R370). -/
def State.upSend (s : State) (port : PortId) (p : Pid) (inner : Bool) (q : UpReq) (da : Nat) : State :=
  let s := s.upCount port p q
  let x := s.portSt port
  let segs := upSegs q.size da q.size
  match q.kind with
  | .translate => s
  | .read _ =>
    segs.foldl (fun (s : State) g => s.send .rdo (rcMsg port p inner g.1))
      (s.setPortSt port { x with reads := x.reads ++ [segs.map fun g => { ln := g.1, off := g.2.1, len := g.2.2, got := none }] })
  | .write =>
    (segs.foldl (fun (acc : State × List Byte) g =>
      let bs := acc.2.take g.2.2
      let m : Msg := { rcMsg port p inner g.1 with
        data := linePut 0 g.2.1 g.2.2 (bytesNat bs), arg := byteMask g.2.1 g.2.2, poison := q.ep }
      (acc.1.send .wrh m, acc.2.drop g.2.2)) (s.setPortSt port { x with posted := x.posted ++ [segs.map fun g => g.1] }, q.data)).1
  | .atomic op a b =>
    let n := (upAtomBytes q).getD 4
    let code := [0, 4, 9].getD op.val 0
    let m : Msg := { rcMsg port p inner (da / 64) with
      arg := BitVec.ofNat 64 (code + b2n (n == 8) * 16),
      data := linePut (linePut (linePut 0 0 8 a.toNat) 8 8 b.toNat) 16 1 (da % 64) }
    (s.setPortSt port { x with reads := x.reads ++ [[{ ln := da / 64, off := 0, len := n, got := none }]] }).send .atf m

/-- A 128-bit CAS is completed with UR (R365). -/
def upUnsupported (q : UpReq) : Bool := match q.kind with | .atomic _ _ _ => (upAtomBytes q).isNone | _ => false

/-- Resolve and issue a request, or refuse it (R370, R371, R379). The second result says that it has left the port; a read of a table may
have to wait for a line. -/
def State.upIssue (s : State) (port : PortId) (p : Pid) (q : UpReq) : State × Bool :=
  if upUnsupported q then (s.upCpl q cplUr, true)
  else match iotResolve p port q s with
    | .wait s => (s, false)
    | .exc _ s => (s, true)
    | .ok (.inl f) s => (((s.iotRecord p q f).bbCoal 0x8021 p port.val (q.addr / 4096)).upCpl q cplUr, true)
    | .ok (.inr (inner, w0, l)) s =>
      if q.kind = .translate then
        let out := if bit w0 2 then l.ipa q.addr else l.ppa
        let n := (match l.l1 with | some x => x.pages | none => 1)
        let n := (match l.l2 with | some x => if bit w0 2 ∧ l.l1.isSome then n else x.pages | none => n)
        ({ s with reply := natBytes (out / 4096 * 4096) 8 ++ natBytes n 8 }, true)
      else if inMmio l.ppa then (((s.iotRecord p q (iotFaultOf 4)).bbCoal 0x8021 p port.val (q.addr / 4096)).upCpl q cplUr, true)
      else match s.pscDa p inner l.ppa with
        | .inr _ => ((s.bbCoal 0x8020 p port.val (l.ppa / 4096)).upCpl q cplCa, true)
        | .inl da => (s.upSend port p inner q da, true)

/-- An MSI (R391). -/
def State.msi (s : State) (p : Pid) (i : Nat) : State := s.raiseInt p i

/-- The upstream writes, or reads, that a root complex has in flight; it holds at most 512 of each (R366). -/
def State.rcFlying (s : State) (rc : Fin 8) (write : Bool) : Nat :=
  (List.range 4).foldl (fun n i =>
    let y := s.portSt (Fin.ofNat 32 (4 * rc.val + i))
    n + (if write then y.posted.length else y.reads.length)) 0

/-- The first of a port's held requests and MSIs that its order lets go (R374): a posted write with RO = 0, an MSI, and a read or AtomicOp with
RO = 0 wait for the CMP of every earlier posted write. `ahead`: an earlier posted write is still held. -/
def portFirst (clear room_ roomR : Bool) : List (UpReq ⊕ Nat) → Bool → Option (UpReq ⊕ Nat)
  | [], _ => none
  | .inr i :: t, ahead => if clear && !ahead then some (.inr i) else portFirst clear room_ roomR t ahead
  | .inl q :: t, ahead =>
    if (q.ro || (clear && !ahead)) && (if q.kind = .write then room_ else roomR) then some (.inl q)
    else portFirst clear room_ roomR t (ahead || q.kind == .write)

/-- What a port has for the Net. -/
def State.portReady (s : State) (port : PortId) : Option (UpReq ⊕ Nat) :=
  let x := s.portSt port
  portFirst x.posted.isEmpty (decide (s.rcFlying (portRc port) true < 512)) (decide (s.rcFlying (portRc port) false < 512)) x.held false

/-- The class of a partition at a root complex (R292, R366). -/
def State.rcClass (s : State) (rc : Fin 8) (p : Pid) : Nat :=
  s.rf (if s.bank 3 then .pciArbClassB rc else .pciArbClassA rc) (2 * p.val + 1) (2 * p.val)

/-- A root complex issues what its ports have, port by port as its arbiter chooses (R292, R366); a frozen arbiter grants nothing (R294).
`skip`: ports whose request waits for a table read. -/
def State.rcRun (rc : Fin 8) : Nat → List Nat → State → State
  | 0, _, s => s
  | n + 1, skip, s =>
    if s.rb (.pciArbCfg rc) 8 then s else
    let ready := (List.range 4).filterMap fun i =>
      let port : PortId := Fin.ofNat 32 (4 * rc.val + i)
      if skip.contains i then none else
      match s.portOwner port, s.portReady port with
      | some p, some h => some (i, s.rcClass rc p, p, h)
      | _, _ => none
    match (s.net.pciArb.get Arb.empty rc.val).pick (s.rf (.pciArbCfg rc) 7 0) (ready.map fun x => (x.1, x.2.1)) with
    | none => s
    | some (i, a) =>
      match ready.find? fun x => x.1 == i with
      | none => s
      | some (_, _, p, h) =>
        let port : PortId := Fin.ofNat 32 (4 * rc.val + i)
        let s : State := { s with net := { s.net with pciArb := s.net.pciArb.set Arb.empty rc.val a } }
        let gone (s : State) : State := s.setPortSt port { s.portSt port with held := (s.portSt port).held.erase h }
        match h with
        | .inr m => State.rcRun rc n skip ((gone s).msi p m)
        | .inl q =>
          match s.upIssue port p q with
          | (s, true) => State.rcRun rc n skip (gone s)
          | (s, false) => State.rcRun rc n (i :: skip) s

/-- A root complex goes on as far as it can. -/
def State.rcGo (s : State) (rc : Fin 8) : State :=
  State.rcRun rc ((List.range 4).foldl (fun n i => n + (s.portSt (Fin.ofNat 32 (4 * rc.val + i))).held.length) 4) [] s

/-- A new request joins those that a port holds. -/
def State.portRun (s : State) (port : PortId) (new : List (UpReq ⊕ Nat)) : State :=
  let x := s.portSt port
  (s.setPortSt port { x with held := x.held ++ new }).rcGo (portRc port)

/-- Every root complex goes on as far as it can. -/
def State.rcsGo (s : State) : State := if s.ports.isEmpty then s else (List.range 8).foldl (fun (s : State) r => s.rcGo (Fin.ofNat 8 r)) s

/-- The MSI page (R369, R391). -/
def inMsiPage (a : Nat) : Bool := a / 4096 == 0x7FF00

/-- A request to the MSI page (R391). -/
def State.msiAccess (s : State) (port : PortId) (p : Pid) (addr size data : Nat) (rd : Bool) : State :=
  if rd then { s with reply := [cplUr] }
  else if addr ≠ 0x7FF00000 ∨ size ≠ 4 ∨ 2 ^ 11 ≤ data ∨ data < 16 then s.bb 0x8041 (some p) port.val 0
  else (s.portCount 3 p port.val 0 size).portRun port [.inr data]

/-- UPSTREAM_MEMORY_REQUEST (R369–R374). -/
def execUpstreamMemoryRequest (port : PortId) (req : UpReq) (s : State) : Host.Outcome State Fault Refusal :=
  .next (if !(s.portTakes port) then s else
    match s.portOwner port with
    | none => s
    | some p =>
      if inMsiPage req.addr && !req.translated then s.msiAccess port p req.addr req.size (bytesNat (req.data.take req.size)) (req.kind != .write)
      else s.portRun port [.inl req])

/-- MSI_WRITE (R391). -/
def execMsiWrite (port : PortId) (addr size : Nat) (data : BitVec 32) (rd : Bool) (s : State) : Host.Outcome State Fault Refusal :=
  .next (if !(s.portTakes port) || !(inMsiPage addr) then s else
    match s.portOwner port with
    | none => s
    | some p => s.msiAccess port p addr size data.toNat rd)

/-! ## IOT registers (R375, R380–R382) -/

/-- A write to a context root; an outer one to the inner root is ignored with event 0x8043 (R375). -/
def State.iotRootWrite (s : State) (p : Pid) (w : World) (inner : Bool) (v : Word) : State :=
  if inner && w == .outer then s.bb 0x8043 (some p) (0x40 + p.val) 0 else s.rgWrite (iotRoot p inner) false v

/-- IOT_ROOT_WRITE (R375). -/
def execIotRootWrite (p : Pid) (w : World) (inner : Bool) (v : Word) (s : State) : Host.Outcome State Fault Refusal :=
  .next (s.iotRootWrite p w inner v)

/-- An entry that an invalidation removes: by SCOPE, world, RID, PASID, page range, stage-2 space (R380). -/
def iotMatches (v addr : Word) (e : IotEnt) : Bool :=
  let n := 2 ^ fld v 49 44
  let base := fld addr 56 12 / n * n
  let inRange (a k : Nat) : Bool := decide (a < base + n ∧ base < a + k)
  let rid := e.rid == fld v 23 8
  let pas := e.kind != 0 && e.pasid == fld v 43 24
  e.inner == bit v 4 &&
  match fld v 2 0 with
  | 0 => true
  | 1 => rid
  | 2 => rid && pas
  | 3 => rid && pas && (match e.xl with | some t => inRange t.base t.pages | none => false)
  | 4 => e.s2id == some (fld v 57 50)
  | 5 => e.s2id == some (fld v 57 50) && inRange e.ipa (match e.xl with | some t => t.pages | none => 1)
  | _ => false

/-- The accesses that the partition's ports have in flight. -/
def State.upFlying (s : State) (p : Pid) : List (Nat × Nat) :=
  (s.portsOf p).flatMap fun port => ((s.portSt port).posted.flatten ++ ((s.portSt port).reads.flatten.map fun g => g.ln)).map fun ln => (port.val, ln)

/-- A write to IOT_INV_CMD: ignored from the outer world with WORLD = 1, dropped while BUSY; a reserved SCOPE starts nothing. An
invalidation removes its entries at once and ends a RID's block where it names it (R380, R382). -/
def State.iotInvWrite (s : State) (p : Pid) (w : World) (v : Word) : State :=
  if w == .outer && bit v 4 then s.bb 0x8043 (some p) (0x40 + p.val) 0
  else if s.rb (.iotInvStatus p) 0 then s.rfSet (.iotInvStatus p) 3 3 1
  else if 6 ≤ fld v 2 0 then s
  else
    let x := s.iot p
    let x := { x with
      cache := x.cache.filter fun e => !(iotMatches v (s.rg (.iotInvAddr p)) e),
      blocked := if fld v 2 0 = 1 then x.blocked.erase (fld v 23 8) else x.blocked,
      inv := some { cmd := v, armed := s.tick, ats := bit v 3, waits := s.upFlying p } }
    (s.setIot p x).rfSet (.iotInvStatus p) 0 0 1

/-- A write whose SCOPE is the one that its row names. -/
def State.iotInvScope (s : State) (p : Pid) (w : World) (scope : Nat) (v : Word) : State :=
  if fld v 2 0 = scope then s.iotInvWrite p w v else s

/-- IOT_INV_ALL: SCOPE 0 (R380). -/
def execIotInvAll (p : Pid) (w : World) (v : Word) (s : State) : Host.Outcome State Fault Refusal := .next (s.iotInvScope p w 0 v)
/-- IOT_INV_RID: SCOPE 1 (R380). -/
def execIotInvRid (p : Pid) (w : World) (v : Word) (s : State) : Host.Outcome State Fault Refusal := .next (s.iotInvScope p w 1 v)
/-- IOT_INV_RID_PASID: SCOPE 2 (R380). -/
def execIotInvRidPasid (p : Pid) (w : World) (v : Word) (s : State) : Host.Outcome State Fault Refusal := .next (s.iotInvScope p w 2 v)
/-- IOT_INV_RID_PAGES: SCOPE 3 (R380). -/
def execIotInvRidPages (p : Pid) (w : World) (v : Word) (s : State) : Host.Outcome State Fault Refusal := .next (s.iotInvScope p w 3 v)
/-- IOT_INV_S2ID: SCOPE 4 (R380). -/
def execIotInvS2id (p : Pid) (w : World) (v : Word) (s : State) : Host.Outcome State Fault Refusal := .next (s.iotInvScope p w 4 v)
/-- IOT_INV_S2ID_PAGES: SCOPE 5 (R380). -/
def execIotInvS2idPages (p : Pid) (w : World) (v : Word) (s : State) : Host.Outcome State Fault Refusal := .next (s.iotInvScope p w 5 v)

/-- The running invalidation ends: BUSY clear, DONE set. -/
def State.iotInvEnd (s : State) (p : Pid) : State :=
  ((s.setIot p { s.iot p with inv := none }).rfSet (.iotInvStatus p) 0 0 0).rfSet (.iotInvStatus p) 1 1 1

/-- IOT_INV_DONE: DONE is set once every upstream access in flight at the command is performed (R381). -/
def execIotInvDone (p : Pid) (s : State) : Host.Outcome State Fault Refusal :=
  .next (match (s.iot p).inv with
  | none => s
  | some i => if i.waits.any fun a => (s.upFlying p).contains a then s else s.iotInvEnd p)

/-- ATS_INV_TIMEOUT: after 1,000,000 ticks ATS_TO is set with event 0x8046 (PID, RID), the RID's context is invalid and blocked, and
DONE is set (R382). -/
def execAtsInvTimeout (p : Pid) (rid : BitVec 16) (s : State) : Host.Outcome State Fault Refusal :=
  .next (match (s.iot p).inv with
  | none => s
  | some i =>
    if !i.ats || !(s.expired i.armed 1000000) then s else
    let x := s.iot p
    let s := s.setIot p { x with cache := x.cache.filter (·.rid != rid.toNat), blocked := insertNat rid.toNat x.blocked }
    let s := ((s.rfSet (.iotInvStatus p) 2 2 1).bb 0x8046 (some p) (0x40 + p.val) rid.toNat).rasPush p 0x8046 false 0 0xFFFF
    s.iotInvEnd p)

/-! ## CXL memory at its port (R385, R386) -/

/-- A request of a home slice at a root complex: CXL.mem read, write or read and write. A lost device answers reads with POISON and
discards writes. A request that its turn brings to the port is the one that the port's arbiter serves; a frozen arbiter takes none (R294,
R366). -/
def State.cxlArrive (s : State) (kind : MsgKind) (m : Msg) : State :=
  if s.rb (.pciArbCfg (Fin.ofNat 8 (m.dst.toNat - 0x24))) 8 then s else
  s.onArrival kind m fun s =>
  let back : Msg := { m with src := m.dst, dst := m.src, arg := 0, data := 0, poison := false }
  let (d, poi) := s.memCopy m.ln
  match kind with
  | .rdo => s.send .dro { back with data := d, poison := poi }
  | .atf =>
    if poi then s.send .err { back with arg := BitVec.ofNat 64 stPoison }
    else match s.atfRun m with
      | (s, some v) => s.send .atr { back with data := BitVec.ofNat 512 v }
      | (s, none) => s.send .err { back with arg := BitVec.ofNat 64 stPoison }
  | _ =>
    let mask := if kind = .wri then BitVec.allOnes 64 else m.arg
    (s.memPut m.ln (lineMerge d m.data mask) (m.poison || (poi && mask != BitVec.allOnes 64))).send .cmp back

/-- A request reaches its target: an HBM controller, a CXL port, or a home slice (R264, R331, R385). -/
def State.memRequest (s : State) (kind : MsgKind) (m : Msg) : State :=
  if 0x80 ≤ m.dst.toNat then (if s.delivers kind m then s.hbmArrive kind m else s.onArrival kind m id)
  else if 0x24 ≤ m.dst.toNat ∧ m.dst.toNat < 0x2C then s.cxlArrive kind m
  else s.homeRequest kind m

/-- RDO (R246, R331, R385). -/
def execRdo (m : Msg) (s : State) : Host.Outcome State Fault Refusal := .next (s.memRequest .rdo m)
/-- WRH (R247, R331, R385). -/
def execWrh (m : Msg) (s : State) : Host.Outcome State Fault Refusal := .next (s.memRequest .wrh m)
/-- WRI (R248). -/
def execWri (m : Msg) (s : State) : Host.Outcome State Fault Refusal := .next (s.memRequest .wri m)
/-- ATF (R249, R331, R385). -/
def execAtf (m : Msg) (s : State) : Host.Outcome State Fault Refusal := .next (s.memRequest .atf m)

/-! ## Completions that agents receive (R163, R235, R240, R252, R371) -/

/-- The port of a root complex that awaits an answer for a line. -/
def State.rcPort (s : State) (m : Msg) (f : PortSt → List Nat) : Option PortId :=
  if 0x24 ≤ m.dst.toNat ∧ m.dst.toNat < 0x2C then
    ((List.range 4).map fun i => (Fin.ofNat 32 (4 * (m.dst.toNat - 0x24) + i) : PortId)).find? fun p => (f (s.portSt p)).contains m.ln
  else none

/-- The lines that a port's reads still await. -/
def PortSt.readLines (x : PortSt) : List Nat := x.reads.flatten.filterMap fun g => if g.got.isNone then some g.ln else none

/-- A port goes on after a change of what it awaits. -/
def State.portNext (s : State) (port : PortId) : State := s.portRun port []

/-- The first part of a request that awaits a line takes its answer. -/
def segFill (ln : Nat) (r : UpSeg → Byte × Bool × List Byte) : List UpSeg → Option (List UpSeg)
  | [] => none
  | g :: t => if g.ln = ln ∧ g.got.isNone then some ({ g with got := some (r g) } :: t) else (segFill ln r t).map fun l => g :: l

/-- The oldest read that awaits a line takes its answer; the parts from its first on that are there are its completions, in address order, and
leave it (R373). -/
def readFill (ln : Nat) (r : UpSeg → Byte × Bool × List Byte) : List (List UpSeg) → List Byte × List (List UpSeg)
  | [] => ([], [])
  | q :: t =>
    match segFill ln r q with
    | none => let (b, l) := readFill ln r t; (b, q :: l)
    | some q =>
      let out := (q.takeWhile fun g => g.got.isSome).flatMap fun g =>
        match g.got with | some (st, ep, bs) => st :: BitVec.ofNat 8 (b2n ep) :: bs | none => []
      let rest := q.dropWhile fun g => g.got.isSome
      (out, if rest.isEmpty then t else rest :: t)

/-- An answer for a read of a root complex: its completion carries the bytes, with EP where they are poisoned (R371, R373). -/
def State.upAnswer (s : State) (m : Msg) (r : UpSeg → Byte × Bool × List Byte) : State :=
  match s.rcPort m PortSt.readLines with
  | none => s
  | some port =>
    let x := s.portSt port
    let (out, reads) := readFill m.ln r x.reads
    { (s.setPortSt port { x with reads := reads }) with reply := out }.portNext port

/-- Data for a read of a root complex. -/
def State.upData (s : State) (m : Msg) : State := s.upAnswer m fun g => (cplSc, m.poison, natBytes (lineGet m.data g.off g.len) g.len)

/-- DRO: data for an agent that caches nothing (R235, R246, R371). -/
def execDro (m : Msg) (s : State) : Host.Outcome State Fault Refusal := .next (s.onArrival .dro m fun s => s.upData m)
/-- ATR: an atomic result or RSV data reaches its agent (R235, R249, R371). -/
def execAtr (m : Msg) (s : State) : Host.Outcome State Fault Refusal := .next (s.onArrival .atr m fun s => s.upData m)

/-- The core that a message to a cluster names. -/
def msgCore (m : Msg) : CoreId := Fin.ofNat 216 (6 * (m.dst.toNat % 36) + m.score.val % 6)

/-- A maintenance operation on a line has ended. -/
def Core.maintDone (c : Core) (ln : Nat) : Core :=
  { c with maintOut := match c.maintOut.find? fun x => x.1 == ln with | some x => c.maintOut.erase x | none => c.maintOut }

/-- CMP at a cluster: an upgrade that waits becomes M and is acknowledged; otherwise a maintenance operation of the named core is
complete (R240, R252). -/
def State.cmpCluster (s : State) (m : Msg) : State :=
  let g : ClusterId := Fin.ofNat 36 m.dst.toNat
  let upgrade : Option L2Copy := match s.copy m.ln g with | some c => if c.st = .upa then some c else none | none => none
  match upgrade with
  | some c => (s.setCopy m.ln g (some { c with st := .m, prior := none })).sendCack m
  | none =>
    let k := msgCore m
    s.setCore k ((s.core k).maintDone m.ln)

/-- One line of the oldest posted write that awaits it is performed; a write whose lines all are leaves the list. -/
def postedDone (ln : Nat) : List (List Nat) → List (List Nat)
  | [] => []
  | w :: t => if w.contains ln then (if (w.erase ln).isEmpty then t else w.erase ln :: t) else w :: postedDone ln t

/-- A posted write of a root complex is performed. -/
def State.upPosted (s : State) (m : Msg) : State :=
  match s.rcPort m (·.posted.flatten) with
  | none => s
  | some port =>
    let x := s.portSt port
    (s.setPortSt port { x with posted := postedDone m.ln x.posted }).portNext port

/-- CMP (R235, R240, R247, R252, R374). -/
def execCmp (m : Msg) (s : State) : Host.Outcome State Fault Refusal :=
  .next (s.onArrival .cmp m fun s => if m.dst.toNat < 36 then (s.cmpCluster m).settleSnoops else s.upPosted m)

/-- An access in flight is the next that its target performs: no earlier access of the same core to it is in flight, and no earlier write to it
that the bridge has accepted (R209, R210). -/
def State.devFirst (s : State) (a : DevAcc) : Bool :=
  !((s.devs.takeWhile (·.id != a.id)).any fun x => x.port == a.port && (x.write || x.core == a.core))

/-- The access in flight at a target that its answer ends: of the named core, to the line, and next at its target. -/
def State.devOf (s : State) (m : Msg) (f : DevAcc → Bool) : Option DevAcc :=
  (s.devs.find? fun a => a.core == msgCore m && a.ppa / 64 == m.ln && f a).bind fun a => if s.devFirst a then some a else none

/-- The oldest issued device store of a core to a line that is not in flight beyond the bridge: the one that the bridge's own answer ends
(R210, R216). -/
def State.dqAnswered (s : State) (k : CoreId) (ln : Nat) : Option DqEnt :=
  let away : List Nat := s.devs.filterMap fun a => if a.core = k ∧ a.write = true ∧ a.early = false ∧ a.orphan = false then some a.ppa else none
  let go : List DqEnt × List Nat → DqEnt → List DqEnt × List Nat := fun acc e =>
    if acc.2.contains e.ppa then (acc.1, acc.2.erase e.ppa) else (acc.1 ++ [e], acc.2)
  (((s.core k).dq.filter fun e => e.issued && e.ppa / 64 == ln).foldl go ([], away)).1.head?

/-- ERR for a device access: the bridge's refusal of an access that it did not issue, or `device`: the failure of one that is in flight at a
device. A load takes a precise abort, a store an imprecise one (R163, R209, R216). -/
def State.errDevice (s : State) (m : Msg) (st : Nat) (device : Bool) : State :=
  let k := msgCore m
  if device then
    match s.devOf m fun _ => true with
    | some a => (s.devFail a st).sleepSettle k
    | none => s
  else
    let bare (write : Bool) (ppa : Nat) : DevAcc :=
      { id := 0, core := k, ppa := ppa, size := 0, write := write, port := none, region := none, early := false, orphan := false, armed := 0, timeout := 0 }
    match (s.core k).wait with
    | some w => if w.ppa / 64 = m.ln then s.devFail (bare false w.ppa) st else s
    | none =>
      match s.dqAnswered k m.ln with
      | some e => (s.devFail (bare true e.ppa) st).sleepSettle k
      | none => s

/-- ERR at a cluster for a coherent request: what waited for the line is undone, and a PID_MISMATCH is an imprecise abort of the core
that the message names (R51, R163); an operation that its core repeats finds the other refusals itself. An error for the blocking load ends
run-ahead (R153). -/
def State.errCluster (s : State) (m : Msg) (st : Nat) : State :=
  let g : ClusterId := Fin.ofNat 36 m.dst.toNat
  let k := msgCore m
  let ppa := s.ppaOf m.pid (64 * m.ln)
  let (write, s) : Bool × State := match s.copy m.ln g with
    | some c =>
      if c.st = .isd then (false, s.setCopy m.ln g none)
      else if c.st = .imd then (true, s.setCopy m.ln g none)
      else if c.st = .upa then (true, s.setCopy m.ln g (c.prior.map fun p => { c with st := p, prior := none }))
      else (true, s)
    | none => (true, s)
  let c := s.core k
  let maint := c.maintOut.any fun x => x.1 == m.ln
  let s := s.setCore k (c.maintDone m.ln)
  let s := match c.ra with | some r => if r.block.ln = m.ln then s.raExit k else s | none => s
  if st = stPidMismatch ∨ maint then s.abortArrives k { status := BitVec.ofNat 8 st, write := write, ppa := ppa / 4096 * 4096 } false else s

/-- A refused upstream request of a root complex: a read completes with CA, a write is dropped (R371). -/
def State.errRc (s : State) (m : Msg) : State :=
  match s.rcPort m PortSt.readLines with
  | some _ => s.upAnswer m fun _ => (cplCa, false, [])
  | none => s.upPosted m

/-- ERR: a refusal or failure with a status (R51, R163, R371). -/
def execErr (m : Msg) (s : State) : Host.Outcome State Fault Refusal :=
  let st := m.arg.toNat % 256
  let device := !(s.msgs.contains (MsgKind.err, m))
  .next (s.onArrival .err m fun s => if m.dst.toNat < 36 then (if inMmio (64 * m.ln) then s.errDevice m st device else (s.errCluster m st).settleSnoops) else s.errRc m)

end Sys2Proof.Machine
end

