-- ==== Sys2Proof/Machine/Rings.lean ====
section
/-! DEFINITION. The service rings: ring registers and doorbells, the audit, owner messages, and the commands over ports, time, slots,
the DRT and records (R40, R214, R283, R384, R387, R396–R417, R474, R490). -/

namespace Sys2Proof.Machine

/-! ## Ring registers (R396–R398, R402, R410) -/

/-- The rings belong to the inner world and the write comes from the outer one: ignored with event 0x9003 (R397). -/
def State.ringDenied (s : State) (p : Pid) (w : World) : Bool := s.ringInner p && w == .outer
def State.ringDeny (s : State) (p : Pid) : State := (s.rfSet (.pscRingStatus p) 3 3 1).bb 0x9003 (some p) 0 0

/-- A control write is dropped with event 0x9002 (R396). -/
def State.ringCtlDrop (s : State) (p : Pid) : State := (s.rfSet (.pscRingStatus p) 4 4 1).bb 0x9002 (some p) 0 0

/-- The cases in which R396 drops a write to PSC_RING_CTL. -/
def State.ringCtlBad (s : State) (p : Pid) (v : Word) : Bool :=
  let c := s.rg (.pscRingCtl p)
  let st := s.ringState p
  (st != 0 && (fld v 13 4 != fld c 13 4 || fld v 26 16 != fld c 26 16)) || (bit v 0 && !(bit c 0) && st == 2) ||
  (bit v 0 && (fld v 8 4 < 4 || 16 < fld v 8 4 || fld v 13 9 < 4 || 16 < fld v 13 9)) || (bit v 0 && bit v 14 && decide (fld v 26 16 < 16))

/-- Rings are enabled: positions and counters zero, PHASE 1, WORLD of the write, STATE ENABLED (R396). -/
def State.ringEnable (s : State) (p : Pid) (w : World) : State :=
  let s := ((s.rgReset (.pscSqTail p)).rgReset (.pscCqHead p)).rgReset (.pscRingCnt p)
  let s := (s.rgReset (.pscRingPos p)).rfSet (.pscRingCtl p) 3 1 (1 + 4 * b2n (w == .inner))
  { s with psc := { s.psc with lastEven := s.psc.lastEven.set [] p.val [], held := s.psc.held.set [] p.val [],
                               cqLost := s.psc.cqLost.erase p.val } }

/-- EN is cleared: waits not yet begun end ABORTED, completions held in FAULT go to the black box, and the rings quiesce (R410, R411). -/
def State.ringQuiesce (s : State) (p : Pid) : State :=
  let held : List Compl := s.psc.held.get [] p.val
  let s := (s.rfSet (.pscRingCtl p) 2 1 2)
  let s := { s with psc := { s.psc with held := s.psc.held.set [] p.val [] } }
  let s : State := held.foldl (fun s c => s.cqToBlackBox p c) s
  let s := s.abortJobs (.part p) fun j => j.waits && j.phase == 0
  if s.outstanding p = 0 then s.rfSet (.pscRingCtl p) 2 1 0 else s

/-- A write to PSC_RING_CTL (R396, R410). -/
def State.ringCtlWrite (s : State) (p : Pid) (w : World) (v : Word) : State :=
  if s.ringDenied p w then s.ringDeny p
  else if s.ringCtlBad p v then s.ringCtlDrop p
  else
    let was := s.rb (.pscRingCtl p) 0
    let st := s.ringState p
    let s := s.rgWrite (.pscRingCtl p) false v
    if bit v 0 && !was && st == 0 then s.ringEnable p w
    else if !(bit v 0) && was && (st == 1 || st == 3) then s.ringQuiesce p
    else s

/-- RING_ENABLE: a write of PSC_RING_CTL that sets EN (R396). -/
def execRingEnable (p : Pid) (w : World) (v : Word) (s : State) : Host.Outcome State Fault Refusal :=
  .next (if bit v 0 then s.ringCtlWrite p w v else s)
/-- RING_DISABLE: a write of PSC_RING_CTL that clears EN (R410). -/
def execRingDisable (p : Pid) (w : World) (v : Word) (s : State) : Host.Outcome State Fault Refusal :=
  .next (if bit v 0 then s else s.ringCtlWrite p w v)

/-- A write to PSC_SQ_BASE or PSC_CQ_BASE is dropped unless the rings are DISABLED (R396). -/
def State.ringBaseWrite (s : State) (p : Pid) (w : World) (cq : Bool) (v : Word) : State :=
  if s.ringDenied p w then s.ringDeny p
  else if s.ringState p ≠ 0 then s.ringCtlDrop p
  else s.rgWrite (if cq then .pscCqBase p else .pscSqBase p) false v

/-- A doorbell is dropped with event 0x9001 (R402). -/
def State.doorbellDrop (s : State) (p : Pid) : State := (s.rfSet (.pscRingStatus p) 0 0 1).bb 0x9001 (some p) 0 0

/-- A write to PSC_SQ_TAIL or PSC_CQ_HEAD (R397, R402). -/
def State.doorbell (s : State) (p : Pid) (w : World) (cq : Bool) (v : Word) : State :=
  let i := fld v 15 0
  if s.ringDenied p w then s.ringDeny p
  else if cq then
    if s.cqLen p ≤ i ∨ s.ringState p = 0 then s.doorbellDrop p
    else (s.rgWrite (.pscCqHead p) false v).heldGo p []
  else if s.sqLen p ≤ i ∨ s.ringState p ≠ 1 then s.doorbellDrop p
  else State.skipInvalid 64 (s.rgWrite (.pscSqTail p) false v) p

/-- SQ_DOORBELL: new descriptors are announced; descriptors at the head that no command names end at once (R402, R408). -/
def execSqDoorbell (p : Pid) (w : World) (v : Word) (s : State) : Host.Outcome State Fault Refusal := .next (s.doorbell p w false v)
/-- CQ_DOORBELL (R402). -/
def execCqDoorbell (p : Pid) (w : World) (v : Word) (s : State) : Host.Outcome State Fault Refusal := .next (s.doorbell p w true v)

/-- The PSC's tick duties for the tick have ended: no ring has a descriptor that the window still owes it, or the window is over (R31, R403). -/
def State.dutiesDone (s : State) : Bool :=
  decide (1792 ≤ s.cycle) || (List.range 16).all fun p => s.ringOwed (Fin.ofNat 16 p) == 0

/-- COMPLETION_INTERRUPT: one interrupt for the completions of the tick, once the tick's duties have ended and never twice in a tick (R404). -/
def execCompletionInterrupt (p : Pid) (s : State) : Host.Outcome State Fault Refusal :=
  .next (if !(s.psc.irqDue.contains p.val) || !s.dutiesDone || s.psc.irqAt.get 0 p.val == s.tick + 1 then s else
    let s := { s with psc := { s.psc with irqDue := s.psc.irqDue.erase p.val, irqAt := s.psc.irqAt.set 0 p.val (s.tick + 1) } }
    if s.rb (.pscRingCtl p) 14 then s.raiseInt p (s.rf (.pscRingCtl p) 26 16) else s)

/-- RING_AUDIT, in cycles 0–383: CONSUMED − COMPLETED = OUTSTANDING, which does not exceed the free completion slots; a failure of a ring that is
in FAULT already is only logged (R413, R481). -/
def execRingAudit (ring : Ring) (s : State) : Host.Outcome State Fault Refusal :=
  .next (if !(s.auditing 6) then s else match ring with
  | .part p =>
    if s.ringState p = 0 then s else
    let c := s.rg (.pscRingCnt p)
    let n := s.outstanding p
    if (fld c 31 0 + 2 ^ 32 - fld c 63 32) % 2 ^ 32 = n ∧ n ≤ s.cqFree p then
      { s with psc := { s.psc with auditFail := s.psc.auditFail.set 0 p.val 0 } }
    else
      let s := { s with psc := { s.psc with auditFail := s.psc.auditFail.set 0 p.val (s.psc.auditFail.get 0 p.val + 1) } }
      if s.ringState p = 3 then s.bb 0x9020 (some p) 0 0
      else ((s.bb 0x9020 (some p) 0 0).rasPush p 0x9020 false 0 0xFFFF).rfSet (.pscRingCtl p) 2 1 3
  | .owner =>
    let n := (s.psc.jobs.filter fun j => j.ring == .owner).length
    if s.psc.ownerCnt.1 = s.psc.ownerCnt.2 + n then { s with psc := { s.psc with auditFail := s.psc.auditFail.set 0 16 0 } }
    else
      let s := { s with psc := { s.psc with auditFail := s.psc.auditFail.set 0 16 (s.psc.auditFail.get 0 16 + 1) } }
      (s.bb 0x9020 none 0x10 0).abortJobs .owner fun _ => true)

/-! ## Fields of a descriptor -/

/-- The lowest bit that is set. -/
def lowBit (v : Word) : Option Nat := (List.range 64).find? fun i => bit v i

/-- The byte offset of the first reserved bit set in ARG0–ARG4, given the bits that the opcode names (R405). -/
def Job.argBad (j : Job) (masks : List Nat) : Option Nat :=
  (List.range 5).findSome? fun i => (lowBit (j.arg i &&& ~~~ BitVec.ofNat 64 (masks.getD i 0))).map fun b => 24 + 8 * i + b / 8

/-- The first offending field: reserved bits, and the fields out of range by their byte offsets (R406, R408). -/
def Job.firstBad (j : Job) (masks : List Nat) (l : List (Bool × Nat)) : Option Nat :=
  ((l.filter (·.1)).map (·.2) ++ (j.argBad masks).toList).min?

/-- No opcode is owner-only; every one is. -/
def forAll (_ : Job) : Bool := false
def ownerOnly (_ : Job) : Bool := true

/-! ## Root ports (R387, R408) -/

/-- The port that PORT_CTL names, and whether the submitter may name it. -/
def portOfArg (v : Word) (hi lo : Nat) : PortId := Fin.ofNat 32 (fld v hi lo)

def State.portNamed (s : State) (j : Job) (n : Nat) : Bool :=
  decide (n < 32) && s.hasPort (Fin.ofNat 32 n) && (match j.pid? with | some p => s.portOwner (Fin.ofNat 32 n) == some p | none => true)

/-- A RESIZE or WIPE in progress releases a resource (R409). -/
def State.portReleasing (s : State) (n : Nat) : Bool := s.psc.resizes.any fun r => r.ports.contains n
def State.cluReleasing (s : State) (g : Nat) : Bool := s.psc.resizes.any fun r => r.clusters.contains g

/-- A port is given a descriptor that waits for it. -/
def State.portWait (s : State) (port : PortId) (j : Job) (phase : Nat) : State :=
  (s.setPortSt port { s.portSt port with job := some j.id }).keepJob j phase [port.val]

/-- PORT_CTL (R408): enable and retrain train the link under a speed ceiling, disable quiesces. -/
def State.portCtl (s : State) (j : Job) : State :=
  let port := portOfArg (j.arg 0) 5 0
  let act := fld (j.arg 0) 9 8
  let ceil := fld (j.arg 0) 14 12
  let st := s.portState port
  if (j.pid?.isSome && s.portReleasing port.val) || (s.portSt port).job.isSome || st == 3 then s.complete j scBusy 0 0
  else if act = 1 then
    if st = 1 ∨ st = 2 then (s.quiesceStart port).portWait port j 1
    else (s.setPortState port 5).complete j scSuccess 0 0
  else
    let s := s.setPortSt port { s.portSt port with ceil := ceil }
    if act = 0 ∧ st = 2 then s.complete j scSuccess 0 0
    else if (act = 2 ∧ st ≠ 2) ∨ st = 4 ∨ st = 6 then s.complete j scDeviceError 0 0
    else (s.setPortState port 1).portWait port j 1

def portOp (act : Nat) : RingOp :=
  { op := 0x08, fn := fun j => fld (j.arg 0) 9 8 == act, owner := forAll,
    bad := fun s j => j.firstBad [0x733F] [(!(s.portNamed j (fld (j.arg 0) 5 0)), 24), (fld (j.arg 0) 14 12 == 7, 25)],
    usesBuf := false, work := fun s j => s.portCtl j }

/-- PORT_ENABLE (R408). -/
def execPortEnable (ring : Ring) (s : State) : Host.Outcome State Fault Refusal := .next (s.ringCommand ring (portOp 0))
/-- PORT_DISABLE (R387, R408). -/
def execPortDisable (ring : Ring) (s : State) : Host.Outcome State Fault Refusal := .next (s.ringCommand ring (portOp 1))
/-- PORT_RETRAIN (R408). -/
def execPortRetrain (ring : Ring) (s : State) : Host.Outcome State Fault Refusal := .next (s.ringCommand ring (portOp 2))

/-- The descriptor that waits for a port. -/
def State.portJob (s : State) (port : PortId) : Option Job := (s.portSt port).job.bind fun n => s.psc.jobs.find? fun j => j.id == n

/-- End the descriptor that waits for a port. -/
def State.portJobEnd (s : State) (port : PortId) (status : Nat) : State :=
  let j? := s.portJob port
  let s := s.setPortSt port { s.portSt port with job := none }
  match j? with
  | some j => s.complete j status 0 0
  | none => s

/-- WIDTH of PCI_PORT_STATUS has four bits; a 16-lane link has no coding in them, so the field is then free. -/
def State.portWidth (s : State) (w : Nat) : Nat × State :=
  if w < 16 then (w, s) else let (v, s) := s.draw; (fld v 3 0, s)

/-- PORT_LINK_UP: a training port is up with the trained width, speed and mode; an enable or retrain completes (R408). -/
def execPortLinkUp (port : PortId) (width speed : Nat) (flit : Bool) (s : State) : Host.Outcome State Fault Refusal :=
  .next (if s.portState port != 1 then s else
    let ceil := (s.portSt port).ceil
    let sp := if ceil = 0 then speed else min speed ceil
    let (w, s) := s.portWidth width
    let s := (((s.setPortState port 2).rfSet (portStatusReg port) 6 3 w).rfSet (portStatusReg port) 9 7 sp).rfSet (portStatusReg port) 10 10 (b2n flit)
    s.portJobEnd port scSuccess)

/-- The free granules behind a CXL port leave the pool. -/
def State.poolDropPort (s : State) (port : PortId) : State :=
  let base := 2 ^ 21 + port.val / 4 * 2 ^ 18 + port.val % 4 / 2 * 2 ^ 17
  { s with psc := { s.psc with pool := s.psc.pool.filter fun r => !(decide (base ≤ r.1 ∧ r.1 < base + 2 ^ 17)) } }

/-- PORT_QUIESCE_DONE: PERST# has been held for 100 ticks; the port is disabled, and a PORT_CTL or a removal of a CXL port completes
(R387). -/
def execPortQuiesceDone (port : PortId) (s : State) : Host.Outcome State Fault Refusal :=
  .next (if (s.portSt port).step != 2 || s.tick < (s.portSt port).since + 100 then s else
    let s := (s.setPortSt port { s.portSt port with step := 0 }).setPortState port 5
    let d : DomainId := ⟨264 + port.val, by omega⟩
    let s := if s.trans d then s.rfSet (.pwrStatus d) 3 3 1 else s
    match s.portJob port with
    | none => s
    | some j =>
      let s := if j.opcode = 0x0F then s.poolDropPort port else s
      s.portJobEnd port scSuccess)

/-- The wait of a descriptor: DEADLINE, or the opcode's default (R405, R408). -/
def Job.wait (j : Job) (dflt : Nat) : Nat := if j.deadline = 0 then dflt else j.deadline

/-- DEADLINE_TIMEOUT: a wait expires; POWER_REQ ends with TIMEOUT, a link that has not come up with DEVICE_ERROR (R405, R408). -/
def execDeadlineTimeout (job : Nat) (s : State) : Host.Outcome State Fault Refusal :=
  .next (match s.psc.jobs.find? fun j => j.id == job with
  | none => s
  | some j =>
    if j.phase = 0 then s
    else if j.opcode = 0x01 then (if s.expired j.armed (j.wait 1000) then s.complete j scTimeout 0 0 else s)
    else if j.opcode = 0x08 ∧ fld (j.arg 0) 9 8 ≠ 1 then
      (if s.expired j.armed (j.wait 100000) then s.portJobEnd (portOfArg (j.arg 0) 5 0) scDeviceError else s)
    else s)

/-! ## CXL_MGMT (R384, R387, R408) -/

/-- A port in CXL mode; for a tenant, one with granules of its own behind it (R384). -/
def State.cxlNamed (s : State) (j : Job) (n : Nat) : Bool :=
  decide (n < 32) && s.hasPort (Fin.ofNat 32 n) && s.portMode (Fin.ofNat 32 n) == 2 &&
  (match j.pid? with | some p => (s.cxlOwners (Fin.ofNat 32 n)).contains p.val | none => true)

/-- Data for a buffer, cut to its length; TRUNCATED when it does not fit (R407, R416). -/
def State.completeFit (s : State) (j : Job) (r0 r1 : Nat) (out : List Byte) : State :=
  let room := match j.ring with | .part _ => j.bufLen | .owner => 4096
  s.completeData j (if room < out.length then scTruncated else scSuccess) r0 r1 (out.take room)

def cxlOp (fn : Nat) (owner usesBuf : Bool) (work : State → Job → State) : RingOp :=
  { op := 0x0F, fn := fun j => fld (j.arg 0) 7 0 == fn, owner := fun _ => owner,
    bad := fun s j => j.firstBad [0x3FFF] [(!(s.cxlNamed j (fld (j.arg 0) 13 8)), 25)], usesBuf := usesBuf, work := work }

/-- CXL_HEALTH: the devices' health data, which the specification does not lay out, is copied to the buffer (R408). -/
def execCxlHealth (ring : Ring) (data : List Byte) (s : State) : Host.Outcome State Fault Refusal :=
  .next (s.ringCommand ring (cxlOp 0 false true fun s j => s.completeFit j 0 0 data))
/-- CXL_POISON_LIST (R408). -/
def execCxlPoisonList (ring : Ring) (data : List Byte) (s : State) : Host.Outcome State Fault Refusal :=
  .next (s.ringCommand ring (cxlOp 1 false true fun s j => s.completeFit j 0 0 data))

/-- The first granule of a CXL port's window (R47, R384). -/
def cxlBase (port : PortId) : Nat := 2 ^ 21 + port.val / 4 * 2 ^ 18 + port.val % 4 / 2 * 2 ^ 17

/-- Granules are wiped: every cached copy and every byte of them (R45, R56, R361). -/
def State.wipeGranules (s : State) (f : Nat → Bool) : State :=
  { s with mem := s.mem.filter fun e => !(f (e.1 / 2 ^ 30)), lines := s.lines.filter fun e => !(f (e.1 / 2 ^ 24)) }

/-- A CXL device is enumerated, its decoder programmed, its granules wiped and added to the pool (R384). -/
def State.cxlAdd (s : State) (port : PortId) (n : Nat) : State :=
  let n := min n (2 ^ 17)
  let b := cxlBase port
  let s := (s.poolDropPort port).wipeGranules fun g => decide (b ≤ g ∧ g < b + n)
  let s := s.setPortState port 2
  if n = 0 then s else { s with psc := { s.psc with pool := s.psc.pool ++ [(b, n)] } }

/-- CXL_HOT_ADD: not while granules of the port are still mapped (R384, R386); `granules` is the capacity that enumeration finds. -/
def execCxlHotAdd (ring : Ring) (granules : Nat) (s : State) : Host.Outcome State Fault Refusal :=
  .next (s.ringCommand ring (cxlOp 2 true false fun s j =>
    let port := portOfArg (j.arg 0) 13 8
    if !(s.cxlOwners port).isEmpty || s.portState port == 3 then s.complete j scBusy 0 0
    else (s.cxlAdd port granules).complete j scSuccess 0 0))

/-- CXL_REMOVE: the port is quiesced; not while its granules are mapped (R387). -/
def execCxlRemove (ring : Ring) (s : State) : Host.Outcome State Fault Refusal :=
  .next (s.ringCommand ring (cxlOp 3 true false fun s j =>
    let port := portOfArg (j.arg 0) 13 8
    let st := s.portState port
    if !(s.cxlOwners port).isEmpty || (s.portSt port).job.isSome || st == 3 then s.complete j scBusy 0 0
    else if st = 1 ∨ st = 2 then (s.quiesceStart port).portWait port j 1
    else ((s.poolDropPort port).setPortState port 5).complete j scSuccess 0 0))

/-! ## TIME_SYNC (R40, R408) -/

/-- TIME_SYNC_READ (R408). -/
def execTimeSyncRead (ring : Ring) (s : State) : Host.Outcome State Fault Refusal :=
  .next (s.ringCommand ring {
    op := 0x09, fn := fun j => !(bit (j.arg 0) 0), owner := forAll, bad := fun _ j => j.firstBad [1, 2 ^ 64 - 1] [], usesBuf := false,
    work := fun s j => s.complete j scSuccess s.tick (s.rg .locTimeOfs).toNat })

/-- A step of at most 1 s forward or 1 ms back, in units of 0.5 ns (R40). -/
def stepOk (a : Int) : Bool := decide (-2000000 ≤ a ∧ a ≤ 2000000000)

/-- TIME_SYNC_ADJUST: the step waits for its boundary (R40). -/
def execTimeSyncAdjust (ring : Ring) (s : State) : Host.Outcome State Fault Refusal :=
  .next (s.ringCommand ring {
    op := 0x09, fn := fun j => bit (j.arg 0) 0, owner := ownerOnly,
    bad := fun _ j => j.firstBad [1, 2 ^ 64 - 1] [(!(stepOk (j.arg 1).toInt), 32)], usesBuf := false,
    work := fun s j =>
      let s := s.keepJob j 1 []
      { s with psc := { s.psc with adjusts := s.psc.adjusts ++ [((j.arg 1).toInt, some j.id)] } } })

/-! ## DRT_UPDATE (R214, R408) -/

/-- The region images of a DRT_UPDATE: LO without DEAD. -/
def Job.drtLo (j : Job) : Word := j.arg 1 &&& Reg.maskRwl (.drtRegionLo 0 0)
def Job.drtHi (j : Job) : Word := j.arg 2 &&& Reg.maskRwl (.drtRegionHi 0 0)

/-- The checks of R214 on a DRT_UPDATE; the owner ring names no partition. -/
def State.drtUpdateBad (s : State) (j : Job) : Option Nat :=
  match j.pid? with
  | none => some 24
  | some p =>
    let i : Fin 64 := Fin.ofNat 64 (fld (j.arg 0) 5 0)
    let outer := !(s.ringInner p)
    j.firstBad [0x3F, 2 ^ 64 - 1, 2 ^ 64 - 1] [
      (outer && (s.rb (.drtRegionLo p i) 1 || bit (j.drtLo) 1), 32), (!(drtFits j.drtLo j.drtHi), 33), (decide (2 ^ 24 < fld (j.arg 2) 56 32), 44)]

/-- DRT_UPDATE: accepted; it takes effect at the next boundary (R214, R408). -/
def execDrtUpdate (ring : Ring) (s : State) : Host.Outcome State Fault Refusal :=
  .next (s.ringCommand ring {
    op := 0x0C, fn := fun _ => true, owner := forAll, bad := State.drtUpdateBad, usesBuf := false, work := fun s j => s.keepJob j 1 [] })

/-- At a boundary the accepted DRT_UPDATEs take effect, clear DEAD and complete. -/
def State.drtApply (s : State) : State :=
  (s.psc.jobs.filter fun j => j.opcode == 0x0C && j.phase == 1).foldl (fun s j =>
    match j.pid? with
    | none => s
    | some p =>
      let i : Fin 64 := Fin.ofNat 64 (fld (j.arg 0) 5 0)
      ((s.rgSet (.drtRegionLo p i) j.drtLo).rgSet (.drtRegionHi p i) j.drtHi).complete j scSuccess 0 0) s

/-! ## SLOT_REQ (R281–R288, R408) -/

/-- The candidate slots, up to 0xFF or 32 of them. -/
def Job.candidates (j : Job) : List Nat :=
  ((List.range 32).map fun i => fld (j.arg (1 + i / 8)) (8 * (i % 8) + 7) (8 * (i % 8))).takeWhile (· != 0xFF)

/-- The partition for which a SLOT_REQ asks: the ring's, or on the owner ring the source agent's. -/
def State.slotPid (s : State) (j : Job) : Option Pid :=
  let src := fld (j.arg 0) 7 0
  let owner : Option Pid :=
    if src < 36 then s.owner (Fin.ofNat 36 src)
    else if 0x24 ≤ src ∧ src < 0x2C then (List.range 4).findSome? fun i => s.portOwner (Fin.ofNat 32 (4 * (src - 0x24) + i))
    else none
  match j.pid? with
  | none => owner
  | some p =>
    if src < 36 then (if owner = some p then some p else none)
    else if 0x24 ≤ src ∧ src < 0x2C ∧ (List.range 4).any (fun i => s.portOwner (Fin.ofNat 32 (4 * (src - 0x24) + i)) == some p) then some p else none

/-- Fields of a SLOT_REQ that are out of range (R408). -/
def State.slotBad (s : State) (j : Job) : Option Nat :=
  let a := j.arg 0
  let n := fld a 31 24
  let badSlot := j.candidates.findIdx? fun k => decide (125 ≤ k)
  j.firstBad [0xFF3FFFFF, 2 ^ 64 - 1, 2 ^ 64 - 1, 2 ^ 64 - 1, 2 ^ 64 - 1] [
    ((s.slotPid j).isNone, 24), ((agentAt 0 (fld a 15 8)).isNone, 25), (decide (12 ≤ fld a 19 16), 26), (n == 0 || decide (32 < n), 27),
    (badSlot.isSome, 32 + badSlot.getD 0)]

/-- Every cell of a token is free (R283). -/
def cellsFree (ts : List Token) (t : Token) : Bool :=
  let used := (ts.filter fun x => x.plane == t.plane).flatMap fun x => (tokenCells x).map fun c => (c.1, c.2.1, c.2.2.2)
  -- the strands of a Facet are resources too (R281): the outbound one at the slot, the inbound one after the ejection port
  let strands (x : Token) : List (Nat × Nat × Nat) :=
    (if x.src < 36 then [(1000 + x.src / 3, 0, x.slot)] else []) ++
    (if x.dst < 36 then [(2000 + x.dst / 3, 0, (x.slot + ((tokenCells x).length) + (if x.src < 36 then 11 else 0)) % 125)] else [])
  let all := used ++ (ts.filter fun x => x.plane == t.plane).flatMap strands
  !(((tokenCells t).map fun c => (c.1, c.2.1, c.2.2.2)) ++ strands t).any fun c => all.contains c

/-- The first `n` candidates that pass, with their positions (R283). -/
def slotChoose (mk : Nat → Token) : List (Nat × Nat) → Nat → List Token → List (Nat × Token)
  | [], _, _ => []
  | _, 0, _ => []
  | (i, k) :: t, n + 1, ts =>
    if cellsFree ts (mk k) then (i, mk k) :: slotChoose mk t n (mk k :: ts) else slotChoose mk t (n + 1) ts

/-- The distinct paths that end at an ejection port (R287). -/
def pathsAt (ts : List Token) (p dst : Nat) : List (Nat × Nat) :=
  (ts.filter fun t => t.plane == p && agentAt p t.dst == agentAt p dst).foldl (fun l t => if l.contains (t.src, t.dst) then l else (t.src, t.dst) :: l) []

/-- SLOT_REQ's work: the change is staged for the next SLOT swap, after which the descriptor completes (R283, R288). -/
def State.slotReq (s : State) (j : Job) : State :=
  match s.slotPid j with
  | none => s.badField j 24
  | some p =>
    let a := j.arg 0
    let mk (k : Nat) : Token := { pid := p, plane := fld a 19 16, src := fld a 7 0, dst := fld a 15 8, slot := k }
    let ts := s.tokensNext
    if j.pid?.isSome && s.partState p == 3 then s.complete j scBusy 0 0
    else
      let cands := j.candidates.zipIdx.map fun x => (x.2, x.1)
      let (mask, next, ok) : Nat × List Token × Bool :=
        if fld a 21 20 = 0 then
          let got := slotChoose mk cands (fld a 31 24) ts
          let held := (ts.filter fun t => t.pid == p).length
          let paths := pathsAt ts (fld a 19 16) (fld a 15 8)
          let ok := got.length == fld a 31 24 && decide (held + got.length ≤ (s.psc.layouts.get PartLayout.empty p.val).ceil) &&
            (paths.contains (fld a 7 0, fld a 15 8) || decide (paths.length < 16))
          (got.foldl (fun m x => m + 2 ^ x.1) 0, ts ++ got.map (·.2), ok)
        else
          let gone := cands.filter fun x => ts.contains (mk x.2)
          (gone.foldl (fun m x => m + 2 ^ x.1) 0, ts.filter fun t => !(gone.any fun x => t == mk x.2), true)
      if !ok then s.complete j scNoResource 0 0
      else if mask = 0 then s.complete j scSuccess 0 0
      else ((s.stageTokens next).keepJob j 1 [mask]).layoutSwap 1

/-- A SLOT_REQ is taken while the SLOT shadow bank may be written (R35, R288). -/
def State.slotCommand (s : State) (r : Ring) (f : Nat) : State :=
  if s.bankLocked 0 (!(s.bank 0)) || s.psc.swapWait % 2 == 1 || s.psc.layWait % 2 == 1 then s
  else s.ringCommand r {
    op := 0x0D, fn := fun j => fld (j.arg 0) 21 20 == f, owner := forAll, bad := State.slotBad, usesBuf := false, work := State.slotReq }

/-- SLOT_GRANT (R283). -/
def execSlotGrant (ring : Ring) (s : State) : Host.Outcome State Fault Refusal := .next (s.slotCommand ring 0)
/-- SLOT_RELEASE (R408). -/
def execSlotRelease (ring : Ring) (s : State) : Host.Outcome State Fault Refusal := .next (s.slotCommand ring 1)

/-- After a SLOT swap the waiting SLOT_REQs complete. -/
def State.slotDone (s : State) : State :=
  (s.psc.jobs.filter fun j => j.opcode == 0x0D && j.phase == 1).foldl (fun s j => s.complete j scSuccess (j.aux.headD 0) 0) s

/-! ## RAS_FETCH (R473, R474) -/

/-- The 32 bytes of a RAS record; `hide`: an outer-world ring reads the address of inner memory as zero. -/
def RasRec.bytes (r : RasRec) (seqTop hide : Nat) : List Byte :=
  let addr := if r.addr < hide then 0 else r.addr
  natBytes (r.code.toNat + b2n r.ucd * 2 ^ 16 + r.seq % seqTop * 2 ^ 32 + r.count * 2 ^ 48) 8 ++ natBytes r.tick 8 ++ natBytes addr 8 ++ natBytes r.unit 8

/-- INNER_WM in bytes. -/
def State.innerWm (s : State) (p : Pid) : Nat := s.rf (.pscPartWm p) 47 30 * 2 ^ 30

/-- RAS_FETCH's work (R474). -/
def State.rasFetch (s : State) (j : Job) : State :=
  let p : Pid := match j.pid? with | some p => p | none => Fin.ofNat 16 (fld (j.arg 0) 3 0)
  let q : List RasRec := s.ras.get [] p.val
  let room := (match j.ring with | .part _ => j.bufLen | .owner => 4096) / 32
  let now := q.take room
  let rest := q.drop room
  let hide := match j.pid? with | some p => if s.ringInner p then 0 else s.innerWm p | none => 0
  let out := now.flatMap fun r => r.bytes (2 ^ 16) hide
  let s := match j.pid? with
    | some p => ({ s with ras := s.ras.set [] p.val rest }).rfSet (.pscRasCtl p) 22 16 rest.length
    | none => s
  s.completeData j (if rest.isEmpty then scSuccess else scTruncated) now.length rest.length out

/-- RAS_FETCH (R474). -/
def execRasFetch (ring : Ring) (s : State) : Host.Outcome State Fault Refusal :=
  .next (s.ringCommand ring {
    op := 0x04, fn := fun _ => true, owner := forAll,
    bad := fun _ j => j.firstBad [0xF] [((match j.pid? with | some p => fld (j.arg 0) 3 0 != 0 && fld (j.arg 0) 3 0 != p.val | none => false), 24)],
    usesBuf := true, work := State.rasFetch })

/-! ## BLACKBOX_READ (R490) -/

/-- A record's 16 bytes (R486). -/
def bbNat (c : BbCell) : Nat :=
  c.tick % 2 ^ 48 + c.code.toNat * 2 ^ 48 + (match c.pid with | some p => p.val * 2 ^ 64 + 2 ^ 68 | none => 0) + c.sev.val * 2 ^ 69 +
  c.inst.toNat * 2 ^ 72 + c.arg.toNat * 2 ^ 80

/-- The 16 bytes at a position; an empty record is zero. -/
def State.bbAt (s : State) (i : Nat) : Nat := match s.bbx.recs.get none i with | some c => bbNat c | none => 0

/-- The positions of the frozen part that hold a record: the trigger and the 2,047 before it. -/
def State.bbFrozenPart (s : State) : List Nat :=
  let trig := s.rf .bbxStatus 27 16
  ((List.range 2048).map fun i => (trig + 2049 + i) % 4096).filter fun i => (s.bbx.recs.get none i).isSome

/-- The position of the oldest record. -/
def State.bbOldest (s : State) : Nat :=
  if s.rb .bbxStatus 12 then (s.bbFrozenPart.headD (s.rf .bbxStatus 27 16))
  else
    let w := s.rf .bbxStatus 11 0
    if (s.bbx.recs.get none w).isSome then w else 0

/-- Mark positions exported; when the whole frozen part is exported the ring is LIVE again, with event 0x0022. -/
def State.bbExport (s : State) (ps : List Nat) : State :=
  let new := ps.filter fun i => (s.bbx.recs.get none i).isSome && !(s.bbx.exported.get false i)
  let s := { s with bbx := { s.bbx with exported := new.foldl (fun t i => t.set false i true) s.bbx.exported } }
  let s := s.rfSet .bbxStatus 44 32 (s.rf .bbxStatus 44 32 - new.length)
  if s.rb .bbxStatus 12 && !(s.rb .bbxStatus 13) && s.bbFrozenPart.all (fun i => s.bbx.exported.get false i) then
    (s.rfSet .bbxStatus 12 12 0).bb 0x0022 none 0 0
  else s

/-- BLACKBOX_READ (R490). -/
def execBlackboxRead (ring : Ring) (s : State) : Host.Outcome State Fault Refusal :=
  .next (s.ringCommand ring {
    op := 0x0A, fn := fun _ => true, owner := ownerOnly,
    bad := fun _ j =>
      let n := fld (j.arg 0) 28 16
      j.firstBad [0x9FFF0FFF] [(n == 0 || decide (4096 < n), 26)],
    usesBuf := true,
    work := fun s j =>
      let n := fld (j.arg 0) 28 16
      let k := min n 256
      let ps := (List.range k).map fun i => (fld (j.arg 0) 11 0 + i) % 4096
      let out := ps.flatMap fun i => natBytes (s.bbAt i) 16
      let r1 := s.bbOldest + b2n (s.rb .bbxStatus 12) * 2 ^ 12
      let s := if bit (j.arg 0) 31 then s.bbExport ps else s
      s.completeData j (if k < n then scTruncated else scSuccess) k r1 out })

/-! ## The owner ring (R416, R417) -/

/-- An owner message is discarded with event 0x9030 (R417). -/
def State.ownerDiscard (s : State) (id : Nat) : State :=
  { s with psc := { s.psc with ownerAsm := s.psc.ownerAsm.del id } }.bb 0x9030 none 0x10 0

/-- OWNER_MESSAGE: the first packet of a message that is not complete is kept with its tick; a complete one of KIND 1 and the right
length is consumed as a descriptor. With 64 outstanding, or in FATAL, it completes at once with BUSY (R416, R417, R477). -/
def execOwnerMessage (id : Nat) (kind : Byte) (desc : List Word) (data : List Byte) (complete : Bool) (s : State) :
    Host.Outcome State Fault Refusal :=
  .next (if !complete then
      (match (s.psc.ownerAsm.find? fun e => e.1 == id) with
       | some _ => s
       | none => { s with psc := { s.psc with ownerAsm := s.psc.ownerAsm.put id s.tick } })
    else
      let ws := (List.range 8).map fun i => desc.getD i 0
      let j : Job := { id := s.psc.nextId, ring := .owner, words := ws, idx := 0, data := data, armed := s.tick, phase := 0, aux := [] }
      if kind ≠ 1 ∨ desc.length ≠ 8 ∨ data.length ≠ j.bufLen then s.ownerDiscard id
      else
        let full := decide (64 ≤ s.ownerOutstanding) || s.fatal
        let s := { s with psc := { s.psc with ownerAsm := s.psc.ownerAsm.del id, jobs := s.psc.jobs ++ [j], nextId := s.psc.nextId + 1,
                                              ownerCnt := (s.psc.ownerCnt.1 + 1, s.psc.ownerCnt.2) } }
        if full then s.complete j scBusy 0 0
        else if !(opcodeOk j.opcode) || j.rowless.isSome then s.refuseUnnamed j
        else s)

/-- OWNER_MESSAGE_TIMEOUT: a message incomplete 10,000 ticks after its first packet is discarded (R417). -/
def execOwnerMessageTimeout (id : Nat) (s : State) : Host.Outcome State Fault Refusal :=
  .next (match s.psc.ownerAsm.find? fun e => e.1 == id with
  | some e => if s.expired e.2 10000 then s.ownerDiscard id else s
  | none => s)

/-- I3C_BUS_RESET: only messages still being assembled are discarded (R417). -/
def execI3cBusReset (s : State) : Host.Outcome State Fault Refusal := .next { s with psc := { s.psc with ownerAsm := [] } }

/-- OWNER_COMPLETION_READ: the BMC reads the oldest completion; its descriptor is no longer outstanding (R417). -/
def execOwnerCompletionRead (s : State) : Host.Outcome State Fault Refusal :=
  .next (match s.psc.ownerOut with
  | [] => s
  | c :: t => { s with psc := { s.psc with ownerOut := t }, ibi := s.ibi - 1, reply := natBytes (wordsNat (c.words false)) 32 ++ c.data })

end Sys2Proof.Machine
end

