-- ==== Sys2Proof/Machine/Partitions.lean ====
section
/-! DEFINITION. Partitions: the granule map, debug enables, the layout record and its checks, the resize sequence, WIPE, and starting a
partition's cores (R44–R66, R414, R415, R497, R498). -/

namespace Sys2Proof.Machine

/-! ## The granule map (R47, R48) -/

def gmapReg (bankB : Bool) (i : Fin 4096) : Reg := if bankB then .gmapEntryB i else .gmapEntryA i
def gmapBase (bankB : Bool) : Nat := 0x08100000 + (if bankB then 0x8000 else 0)

/-- The valid entries of a bank, with their indices. -/
def State.gmapList (s : State) (bankB : Bool) : List (Nat × Word) :=
  s.regs.filterMap fun e =>
    if gmapBase bankB ≤ e.1 ∧ e.1 < gmapBase bankB + 0x8000 ∧ bit e.2 0 then some ((e.1 - gmapBase bankB) / 8, e.2) else none

def entPid (v : Word) : Nat := fld v 7 4
def entPpa (v : Word) : Nat := fld v 25 8
def entDa (v : Word) : Nat := fld v 51 30

/-- A run of granules holds a granule. -/
def inRuns (runs : List (Nat × Nat)) (g : Nat) : Bool := runs.any fun r => decide (r.1 ≤ g ∧ g < r.1 + r.2)

/-- The granule exists: an HBM granule that is not withdrawn, or a CXL granule that is free, mapped or being released (R47, R352, R384). -/
def State.granuleExists (s : State) (g : Nat) : Bool :=
  if g < 2 ^ 21 then decide (g < (if s.hbm.withdrawn then 179 else 186))
  else inRuns s.psc.pool g || (s.gmapDa (s.bank 2) g).isSome || s.psc.resizes.any fun r => r.grans.any fun x => x.2.2 == g

/-- The cases in which R48 drops the write of a valid entry. -/
def State.gmapBad (s : State) (bankB : Bool) (i : Nat) (v : Word) : Bool :=
  bit v 0 &&
  ((s.gmapList bankB).any (fun e => e.1 != i && ((entPid e.2 == entPid v && entPpa e.2 == entPpa v) || entDa e.2 == entDa v)) ||
   decide (0x3FFC0 ≤ entPpa v) || !(s.granuleExists (entDa v)))

/-- A write to a granule-map entry (R35, R48). -/
def State.gmapWrite (s : State) (bank : Bool) (idx : Fin 4096) (v : Word) : State :=
  let r := gmapReg bank idx
  if s.bankLocked 2 bank then ((s.bankDrop 2 r.addr).rfSet .gmapStatus 1 1 1).rfSet .gmapStatus 27 16 idx.val
  else if s.gmapBad bank idx.val v then
    ((s.rfSet .gmapStatus 0 0 1).rfSet .gmapStatus 27 16 idx.val).bb 0x1020 none 0 idx.val
  else s.rgWrite r false v

/-- GMAP_ENTRY_WRITE (R48). -/
def execGmapEntryWrite (bank : Bool) (idx : Fin 4096) (v : Word) (s : State) : Host.Outcome State Fault Refusal :=
  .next (s.gmapWrite bank idx v)

/-! ## Debug enables (R65, R66) -/

/-- A write to PSC_DBG_CTL. -/
def State.dbgWrite (s : State) (p : Pid) (w : World) (v : Word) : State :=
  let old := s.rg (.pscDbgCtl p)
  let s := s.rfSet (.pscDbgCtl p) 3 2 (fld v 3 2)
  match w with
  | .inner =>
    let s := if bit old 6 then s else s.rfSet (.pscDbgCtl p) 5 4 (fld v 5 4)
    if bit v 6 then s.rfSet (.pscDbgCtl p) 6 6 1 else s
  | .outer =>
    if (fld v 5 4 ≠ fld old 5 4 ∧ !(bit old 6)) ∨ (bit v 6 && !(bit old 6)) then s.bb 0x1021 (some p) 0 0 else s

/-- DBG_CTL_WRITE (R66). -/
def execDbgCtlWrite (p : Pid) (w : World) (v : Word) (s : State) : Host.Outcome State Fault Refusal := .next (s.dbgWrite p w v)

/-! ## The layout record (R414, R415) -/

/-- An entry: its offset in the buffer, TYPE, PID, A and B. -/
structure LayEnt where
  off : Nat
  typ : Nat
  pid : Nat
  a   : Nat
  b   : Nat
  deriving DecidableEq, Repr

/-- What a record says: the PIDs described, their new layouts, bifurcation codes, CXL ports, and the entries themselves. -/
structure LayRec where
  pids  : List Nat
  lays  : Tbl (Option PartLayout)
  bifur : List (Nat × Nat)
  cxl   : List Nat
  ents  : List LayEnt
  deriving DecidableEq, Repr

/-- `n` bytes of a buffer from an offset. -/
def bufNat (bs : List Byte) (off n : Nat) : Nat := bytesNat ((bs.drop off).take n)

/-- The fields that a TYPE names, and what they may hold: the offset of the first malformed one. -/
def LayEnt.bad (e : LayEnt) : Option Nat :=
  let at_ (okA okB : Bool) : Option Nat := if !okA then some (e.off + 4) else if !okB then some (e.off + 8) else none
  let da := e.b % 2 ^ 22
  let n := e.b / 2 ^ 32
  match e.typ with
  | 1 => at_ (e.a == 0) (decide (e.b < 2 ^ 36))
  | 2 => at_ (decide (e.a < 2 ^ 18 ∧ e.a + n ≤ 0x3FFC0)) (decide (e.b / 2 ^ 22 % 2 ^ 10 = 0 ∧ n < 2 ^ 16 ∧ 0 < n ∧ da + n ≤ 2 ^ 22))
  | 3 => at_ (decide (e.a < 2 ^ 16)) (e.b == 0)
  | 4 => at_ (decide (e.a % 2 ^ 6 < 32 ∧ e.a / 2 ^ 6 % 4 = 0 ∧ (e.a / 2 ^ 8 = 1 ∨ e.a / 2 ^ 8 = 2))) (e.b == 0)
  | 5 => at_ (decide (1 ≤ e.a ∧ e.a ≤ 4)) (decide (e.b < 2 ^ 48))
  | 6 => at_ (e.a == 0) (decide (e.b < 2 ^ 18))
  | 7 => at_ (decide (e.a < 4)) (e.b == 0)
  | 8 => at_ true (decide (e.b < 2 ^ 48))
  | 9 => at_ (decide (e.a % 16 < 8 ∧ e.a < 2 ^ 7 ∧ e.a / 16 ≤ 4)) (e.b == 0)
  | 10 => at_ (decide (e.a < 2 ^ 16)) (e.b == 0)
  | 11 => at_ (decide (1 ≤ e.a ∧ e.a ≤ 255)) (e.b == 0)
  | _ => some e.off

/-- Add an entry to the layout of its PID. -/
def LayEnt.addTo (e : LayEnt) (l : PartLayout) : PartLayout :=
  match e.typ with
  | 1 => { l with clusters := l.clusters ||| e.b }
  | 2 => { l with runs := l.runs ++ [(e.a, e.b % 2 ^ 22, e.b / 2 ^ 32)] }
  | 3 => { l with ways := l.ways ||| e.a }
  | 4 => if e.a / 2 ^ 8 = 1 then { l with ports := insertNat (e.a % 64) l.ports } else l
  | 5 => { l with hbm := (List.range e.a).map fun i => (i, e.b / 2 ^ (12 * i) % 2 ^ 12) }
  | 6 => { l with wm := e.b }
  | 7 => { l with dbg := e.a }
  | 8 => { l with boot := some (e.a, e.b) }
  | 10 => { l with ceil := e.a }
  | 11 => { l with quota := e.a }
  | _ => l

/-- A root port in CXL mode names no partition (R415). -/
def LayEnt.isCxl (e : LayEnt) : Bool := e.typ == 4 && e.a / 2 ^ 8 == 2

/-- Add an entry to a record, or give the offset of its first offending field. -/
def LayRec.add (r : LayRec) (e : LayEnt) (zero : Bool) : Nat ⊕ LayRec :=
  if !zero then .inl (e.off + 2)
  else match e.bad with
    | some o => .inl o
    | none =>
      let r := { r with ents := r.ents ++ [e] }
      if e.isCxl then .inr { r with cxl := insertNat (e.a % 64) r.cxl }
      else if !(r.pids.contains e.pid) then .inl (e.off + 1)
      else
        let l := (r.lays.get none e.pid).getD PartLayout.empty
        if e.typ = 8 ∧ l.boot.isSome then .inl e.off
        else
          let r := if e.typ = 9 then { r with bifur := r.bifur ++ [(e.a % 16, e.a / 16)] } else r
          .inr { r with lays := r.lays.set none e.pid (some (e.addTo l)) }

/-- The entries of a record from the `i`-th on. -/
def layEntries (bs : List Byte) : Nat → Nat → LayRec → Nat ⊕ LayRec
  | 0, _, r => .inr r
  | n + 1, i, r =>
    let off := 16 + 16 * i
    let e : LayEnt := { off := off, typ := bufNat bs off 1, pid := bufNat bs (off + 1) 1, a := bufNat bs (off + 4) 4, b := bufNat bs (off + 8) 8 }
    match r.add e (bufNat bs (off + 2) 2 == 0) with
    | .inl o => .inl o
    | .inr r => layEntries bs n (i + 1) r

/-- Read a layout record (R414): the offset of the first offending field, or what it says. -/
def layParse (bs : List Byte) : Nat ⊕ LayRec :=
  let n := bufNat bs 4 4
  if bs.length < 16 ∨ bufNat bs 0 1 ≠ 1 then .inl 0
  else if bufNat bs 1 1 ≠ 0 then .inl 1
  else if bs.length < 16 + 16 * n then .inl 4
  else if bufNat bs 8 8 ≠ 0 then .inl 8
  else if (bs.drop (16 + 16 * n)).any (· != 0) then .inl (16 + 16 * n)
  else layEntries bs n 0 { pids := (List.range 16).filter fun p => bufNat bs 2 2 / 2 ^ p % 2 == 1, lays := [], bifur := [], cxl := [], ents := [] }

/-! ## What a layout asks for -/

/-- The granules of a layout as (PPA_G, DA_G). -/
def PartLayout.grans (l : PartLayout) : List (Nat × Nat) := l.runs.flatMap fun r => (List.range r.2.2).map fun i => (r.1 + i, r.2.1 + i)
/-- The clusters of a mask. -/
def maskBitsOf (m n : Nat) : List Nat := (List.range n).filter fun g => m / 2 ^ g % 2 == 1
def PartLayout.clus (l : PartLayout) : List Nat := maskBitsOf l.clusters 36

def State.layout (s : State) (p : Nat) : PartLayout := s.psc.layouts.get PartLayout.empty p

/-- The partition exists. -/
def State.existsPart (s : State) (p : Nat) : Bool := (s.layout p).clusters != 0

/-- The code of a complex after the record. -/
def State.codeOf (s : State) (codes : List (Nat × Nat)) (r : Nat) : Nat :=
  match codes.reverse.find? fun x => x.1 == r with
  | some x => x.2
  | none => s.rf (.pciCfg (Fin.ofNat 8 r)) 2 0

/-- A port of at least eight lanes (R364). -/
def portWide (code i : Nat) : Bool := (code == 0 && i == 0) || (code == 1 && (i == 0 || i == 2)) || (code == 2 && i == 0) || (code == 3 && i == 2)

/-- The layout of a PID after the record; the boot image that a record leaves out is kept (R415). -/
def State.layoutAfter (s : State) (r : LayRec) (p : Nat) : PartLayout :=
  if !(r.pids.contains p) then s.layout p
  else match r.lays.get none p with
    | none => PartLayout.empty
    | some l => if l.boot.isNone then { l with boot := (s.layout p).boot } else l

/-- The offset of the first entry of a TYPE for a PID, or of the PID mask. -/
def LayRec.where_ (r : LayRec) (p typ : Nat) : Nat := match r.ents.find? fun e => e.pid == p && e.typ == typ with | some e => e.off | none => 2

/-- The boot image fails a check of R497; `dir` is the image directory: index and length. -/
def PartLayout.bootBad (l : PartLayout) (dir : List (Nat × Nat)) : Bool :=
  match l.boot with
  | none => false
  | some (i, ppa) =>
    match dir.find? fun e => e.1 == i with
    | none => true
    | some (_, len) =>
      let last := (ppa + max len 1 - 1) / 2 ^ 30
      ppa % 4096 != 0 || decide (2 ^ 26 < len) ||
      !((List.range (last + 1 - ppa / 2 ^ 30)).all fun i => l.grans.any fun g => g.1 == ppa / 2 ^ 30 + i) ||
      (l.wm != 0 && decide (l.wm * 2 ^ 30 < ppa + len))

/-- R44, R497 and R415 for one described partition: the offset of the first offending entry. -/
def State.layoutBad (s : State) (r : LayRec) (dir : List (Nat × Nat)) (others p : Nat) : Option Nat :=
  let l := s.layoutAfter r p
  let gs := l.grans
  if (r.lays.get none p).isNone then none
  else if l.clus.isEmpty || decide (36 < l.clus.length + others) then some (r.where_ p 1)
  else if gs.isEmpty || !((gs.map (·.1)).Nodup : Bool) || !((gs.map (·.2)).Nodup : Bool) || gs.any (fun g => !(s.granuleExists g.2)) then some (r.where_ p 2)
  else if l.ways = 0 || decide (16 < (maskBitsOf l.ways 16).length + others) then some (r.where_ p 3)
  else if l.ports.any (fun i => !(portExists (s.codeOf r.bifur (i / 4)) (i % 4))) then some (r.where_ p 4)
  else if l.hbm.isEmpty then some (r.where_ p 5)
  else if l.boot.isNone || ((r.ents.any fun e => e.pid == p && e.typ == 8) && l.bootBad dir) then some (r.where_ p 8)
  else none

/-- A code is changed while the layouts leave a port of the complex in use (R364), or a port enters CXL mode that is not x8 or x16. -/
def State.bifurBad (s : State) (r : LayRec) : Option Nat :=
  let used (c : Nat) : Bool := ((List.range 16).any fun p => (s.layoutAfter r p).ports.any fun i => i / 4 == c) ||
    r.cxl.any (fun i => i / 4 == c) || (List.range 4).any fun i => s.portMode (Fin.ofNat 32 (4 * c + i)) == 2
  (r.ents.find? fun e => (e.typ == 9 && e.a / 16 != s.rf (.pciCfg (Fin.ofNat 8 (e.a % 16))) 2 0 && used (e.a % 16)) ||
    (e.isCxl && !(portWide (s.codeOf r.bifur (e.a % 64 / 4)) (e.a % 4)))).map (·.off)

/-- The layouts that commands in progress give to partitions which a record does not describe. -/
def State.pendingOthers (s : State) (r : LayRec) : List (Nat × PartLayout) :=
  (s.psc.resizes.flatMap (·.layouts)).filter fun e => !(r.pids.contains e.1)

/-- Two partitions would hold one resource, or a port that is in CXL mode or enters it; what a command in progress gives to another
partition is that partition's already (R45, R55: CONFLICT). -/
def State.layoutConflict (s : State) (r : LayRec) : Bool :=
  let ls := (List.range 16).map fun p => s.layoutAfter r p
  let clus := ls.flatMap (·.clus)
  let das := ls.flatMap fun l => l.grans.map (·.2)
  let ways := ls.flatMap fun l => maskBitsOf l.ways 16
  let ports := ls.flatMap (·.ports) ++ r.cxl
  !((clus.Nodup : Bool) && (das.Nodup : Bool) && (ways.Nodup : Bool) && (ports.Nodup : Bool)) ||
  (ls.any fun l => l.ports.any fun i => s.portMode (Fin.ofNat 32 i) == 2) ||
  (s.pendingOthers r).any fun e => r.pids.any fun p =>
    let l := s.layoutAfter r p
    (l.clus.any e.2.clus.contains) || (l.grans.any fun g => e.2.grans.any fun h => h.2 == g.2) || l.ways &&& e.2.ways != 0 ||
      (l.ports.any e.2.ports.contains) || r.cxl.any e.2.ports.contains

/-- The map would need more entries than it has, or a layout adds a cluster of a Facet that is out of step (R43, R496), or a granule
that is neither free nor held by a described partition (R55: NO_RESOURCE). -/
def State.layoutShort (s : State) (r : LayRec) : Bool :=
  let ls := (List.range 16).map fun p => s.layoutAfter r p
  decide (4096 < (ls.flatMap (·.grans)).length) ||
  (r.pids.any fun p => (s.layoutAfter r p).clus.any fun g =>
    !((s.layout p).clus.contains g) && s.rb (.fctTickStatus (Fin.ofNat 12 (g / 3))) 1) ||
  (r.pids.any fun p => (s.layoutAfter r p).grans.any fun g =>
    !(inRuns s.psc.pool g.2) && match s.gmapDa (s.bank 2) g.2 with
      | some v => !(r.pids.contains (entPid v))
      | none => true)

/-- The partitions that a record changes. -/
def State.changed (s : State) (r : LayRec) : List Nat := r.pids.filter fun p => s.layoutAfter r p != s.layout p

/-- The clusters that a record releases. -/
def State.releasedClus (s : State) (r : LayRec) : List Nat :=
  r.pids.flatMap fun p => (s.layout p).clus.filter fun g => !((s.layoutAfter r p).clus.contains g)

/-- An inner-world claim holds on a domain of a cluster (R55, R450). -/
def State.cluClaimed (s : State) (g : Nat) : Bool :=
  s.rb (.pwrCtl (clusterDom (Fin.ofNat 36 g))) 4 || (List.range 6).any fun i => s.rb (.pwrCtl (coreDom (Fin.ofNat 216 (6 * g + i)))) 4

/-- A RESIZE or WIPE in progress involves a partition. -/
def State.resizing (s : State) (p : Nat) : Bool := s.psc.resizes.any fun r => r.pids.any fun x => x.1 == p

/-- The first check of R55 that a record fails, as a status and RESULT0. -/
def State.resizeRefuse (s : State) (r : LayRec) (dir : List (Nat × Nat)) : Option (Nat × Nat) :=
  let exist := ((List.range 16).filter fun p => (s.layoutAfter r p).clusters != 0).length
  match ((r.pids.findSome? fun p => s.layoutBad r dir (exist - 1) p).or (s.bifurBad r)) with
  | some o => some (scInvalidField, 2 ^ 63 + o)
  | none =>
    if s.layoutConflict r then some (scConflict, 0)
    else if s.layoutShort r then some (scNoResource, 0)
    else if (s.releasedClus r).any s.cluClaimed then some (scClaimed, 0)
    else if r.pids.any s.resizing then some (scBusy, 0)
    else none

/-! ## The resize sequence (R56–R61, R64) -/

/-- The granules of a partition that lose their contents: released, or turned from inner to outer (R56, R64). -/
def State.lostGrans (s : State) (p : Nat) (l : PartLayout) : List (Nat × Nat × Nat) :=
  (s.gmapList (s.bank 2)).filterMap fun e =>
    if entPid e.2 ≠ p then none
    else match l.grans.find? fun g => g.2 == entDa e.2 with
      | some g => if bit e.2 1 && decide (l.wm ≤ g.1) then some (p, entPpa e.2, entDa e.2) else none
      | none => some (p, entPpa e.2, entDa e.2)

/-- A token keeps its place under a layout (R45). -/
def tokenKept (l : PartLayout) (t : Token) : Bool :=
  if t.src < 36 then l.clus.contains t.src else l.ports.any fun i => i / 4 + 36 == t.src

/-- The tokens that stay. -/
def Resize.tokens (r : Resize) (ts : List Token) : List Token :=
  ts.filter fun t => match r.layouts.find? fun x => x.1 == t.pid.val with
    | some (_, l) => tokenKept l t
    | none => true

/-- An entry of the map stays under the new layouts. -/
def Resize.keeps (r : Resize) (v : Word) : Bool :=
  match r.layouts.find? fun x => x.1 == entPid v with
  | some (_, l) => l.grans.contains (entPpa v, entDa v) && !(r.grans.any fun g => g.2.2 == entDa v)
  | none => true

/-- Something is released by the sequence (R60). -/
def State.releases (s : State) (r : Resize) : Bool :=
  !r.clusters.isEmpty || !r.ports.isEmpty || (s.gmapList (s.bank 2)).any (fun e => !(r.keeps e.2)) ||
  (r.layouts.any fun x => (s.layout x.1).ways &&& x.2.ways != (s.layout x.1).ways) || r.tokens s.tokensNext != s.tokensNext

def wayReg (bankB : Bool) (sl : SliceId) (p : Pid) : Reg := if bankB then .l3sWaymaskB sl p else .l3sWaymaskA sl p

/-- Stage a way mask in every slice (R57). -/
def State.setWays (s : State) (bankB : Bool) (p m : Nat) : State :=
  (List.range 64).foldl (fun s i => s.rfSet (wayReg bankB (Fin.ofNat 64 i) (Fin.ofNat 16 p)) 15 0 m) s

def ownerReg (bankB : Bool) (i : Nat) : Reg :=
  if bankB then .pciPortOwnerB (Fin.ofNat 8 (i / 4)) (Fin.ofNat 4 i) else .pciPortOwnerA (Fin.ofNat 8 (i / 4)) (Fin.ofNat 4 i)

/-- Tick B − 1: released granules, ways, tokens and ports leave the shadow banks, and the swaps are requested in one write (R56). -/
def State.stageB (s : State) (r : Resize) : State :=
  let s := s.syncGmap
  let sh := !(s.bank 2)
  let s := (s.gmapList sh).foldl (fun s e => if r.keeps e.2 then s else s.rgSet (gmapReg sh (Fin.ofNat 4096 e.1)) 0) s
  let s := r.layouts.foldl (fun s x => s.setWays sh x.1 ((s.layout x.1).ways &&& x.2.ways)) s
  let s := r.ports.foldl (fun s i => s.rgSet (ownerReg sh i) 0) s
  let ts := r.tokens s.tokensNext
  if ts = s.tokensNext then s.layoutSwap 4 else (s.stageTokens ts).layoutSwap 5

/-- Map a granule in the lowest free entry of a bank. -/
def State.mapGranule (s : State) (bankB : Bool) (v : Word) : State :=
  let used := (s.gmapList bankB).map (·.1)
  match (List.range 4096).find? fun i => !(used.contains i) with
  | some i => s.gmapWrite bankB (Fin.ofNat 4096 i) v
  | none => s

/-- The entry of a granule of a partition (R47, R64). -/
def gmapWord (p wm : Nat) (g : Nat × Nat) : Word :=
  BitVec.ofNat 64 (1 + b2n (decide (g.1 < wm)) * 2 + p * 2 ^ 4 + g.1 * 2 ^ 8 + g.2 * 2 ^ 30)

/-- Write a partition's layout into a bank of class GMAP, with the checks of every map write, and its new clusters' owners (R48, R56,
tick C − 1). -/
def State.stageLayout (s : State) (bankB : Bool) (p : Nat) (l : PartLayout) : State :=
  let s := l.grans.foldl (fun s g =>
    let v := gmapWord p l.wm g
    match (s.gmapList bankB).find? fun e => entPid e.2 == p && entPpa e.2 == g.1 with
    | some e => s.gmapWrite bankB (Fin.ofNat 4096 e.1) v
    | none => s.mapGranule bankB v) s
  let s := s.setWays bankB p l.ways
  let s := l.ports.foldl (fun s i => s.rgSet (ownerReg bankB i) (BitVec.ofNat 64 (p + 16))) s
  l.clus.foldl (fun s g =>
    let c : ClusterId := Fin.ofNat 36 g
    if s.rf (.cluOwner c) 4 0 == p % 16 + 16 then s else s.rgSet (.cluOwner c) (BitVec.ofNat 64 (p + 16))) s

/-- Tick C − 1: the targets' new entries, masks and ports (R56). -/
def State.stageC (s : State) (r : Resize) : State :=
  let s := s.syncGmap
  let sh := !(s.bank 2)
  let s := r.layouts.foldl (fun s x => s.stageLayout sh x.1 x.2) s
  (r.cxl.foldl (fun s i => s.rgSet (ownerReg sh i) 0x20) s).layoutSwap 4

def State.setResize (s : State) (r : Resize) : State :=
  { s with psc := { s.psc with resizes := s.psc.resizes.map fun x => if x.id = r.id then r else x } }
def State.dropResize (s : State) (id : Nat) : State := { s with psc := { s.psc with resizes := s.psc.resizes.filter fun x => x.id != id } }
def State.getResize (s : State) (id : Nat) : Option Resize := s.psc.resizes.find? fun r => r.id == id

/-- A reset of a partition is in progress; work on the partition is serialised with it (R409). -/
def State.resetting (s : State) (p : Nat) : Bool := s.psc.resets.any fun x => x.kind == 1 && x.id == p

/-- Tick A: the partitions enter RESIZING, or BUILDING at creation, and released ports are quiesced (R56). -/
def State.resizeAccept (s : State) (r : Resize) : State :=
  let r : Resize := { r with pids := r.pids.map fun (x : Nat × Nat) => if x.2 = 0 then x else (x.1, s.partState (Fin.ofNat 16 x.1)) }
  let s := r.pids.foldl (fun s x => s.setPartState (Fin.ofNat 16 x.1) (if x.2 = 0 then 1 else 3)) s
  let s := r.ports.foldl (fun s i =>
    let port : PortId := Fin.ofNat 32 i
    if s.portState port = 1 ∨ s.portState port = 2 then s.quiesceStart port else s) s
  s.setResize { r with phase := 1 }

/-- The partitions that a record destroys (R60). -/
def Resize.destroyed (r : Resize) : List Nat := (r.layouts.filter fun x => x.2.clusters == 0).map (·.1)

/-- Take a sequence one step further where nothing is missing for it. -/
def State.resizeStep (s : State) (id : Nat) : State :=
  match s.getResize id with
  | none => s
  | some r =>
    if r.phase = 0 then
      (if (r.pids.any fun x => s.resetting x.1) then s else if r.clusters.all fun g => s.rf (.pwrStatus (clusterDom (Fin.ofNat 36 g))) 1 0 == 3 && !(s.trans (clusterDom (Fin.ofNat 36 g))) then s.resizeAccept r else s)
    else if r.phase = 1 then
      (if !(r.ports.all fun i => (s.portSt (Fin.ofNat 32 i)).step == 0) then s
       else if !(s.releases r) then s.setResize { r with phase := 6 }
       else if s.gmapFree && !(s.bankLocked 0 (!(s.bank 0))) && s.psc.swapWait % 2 == 0 && s.psc.layWait % 2 == 0 then
         let s := (r.destroyed.foldl (fun s p => s.ringsEnd (Fin.ofNat 16 p) true) s)
         (s.stageB r).setResize { r with phase := 2 }
       else s)
    else if r.phase = 6 then (if s.gmapFree && r.destroyed.all (fun p => s.outstanding (Fin.ofNat 16 p) == 0) then (s.stageC r).setResize { r with phase := 7 } else s)
    else s

/-- Take a sequence as far as it goes. -/
def State.resizeGo (s : State) (id : Nat) : State := ((s.resizeStep id).resizeStep id).resizeStep id

/-- CLUSTERS and GRANULES of PSC_PART_STATUS. -/
def State.partCounts (s : State) (p : Nat) : State :=
  let pid : Pid := Fin.ofNat 16 p
  (s.rfSet (.pscPartStatus pid) 13 8 (s.clustersOf pid).length).rfSet (.pscPartStatus pid) 26 14 (((s.gmapList (s.bank 2)).filter fun e => entPid e.2 == p).length)

/-- What a partition owns under the tables in force: clusters, granules, ways, root ports, slot tokens, and the traffic classes of its
HBM ports (R44). -/
def State.resOf (s : State) (p : Pid) : List Nat × List (Nat × Nat) × Nat × List PortId × List Token × List Bool :=
  (s.clustersOf p, (s.gmapList (s.bank 2)).filterMap (fun e => if entPid e.2 = p then some (entPpa e.2, entDa e.2) else none),
   s.rf (if s.bank 2 then .l3sWaymaskB 0 p else .l3sWaymaskA 0 p) 15 0, s.portsOf p, s.net.tokens.filter (fun t => t.pid == p),
   (List.range 4).map fun j => s.rb (.hbmPort 0 0 (Fin.ofNat 65 (4 * p.val + j))) 12)

/-- GEN counts, modulo 16, each boundary whose swaps have changed the partition's resources; `was` is the state before it (R46). -/
def State.genStep (s : State) (was : State) : State :=
  (List.range 16).foldl (fun s i =>
    let p : Pid := Fin.ofNat 16 i
    if s.partState p == 0 || s.resOf p == was.resOf p then s
    else s.rfSet (.pscPartStatus p) 31 28 (s.rf (.pscPartStatus p) 31 28 + 1)) s

/-- The sequence began with an EMPTY partition. -/
def Resize.creates (r : Resize) (p : Nat) : Bool := r.pids.any fun x => x.1 == p && x.2 == 0

/-- Swap B: the sources have lost what they release; released clusters are reset; a parked partition loses the wake sources on released
ports (R56, R69). -/
def State.swapB (s : State) (r : Resize) : State :=
  let s := r.clusters.foldl (fun s g => (s.resetCluster (Fin.ofNat 36 g)).rgSet (.cluOwner (Fin.ofNat 36 g)) 0) s
  let s := r.pids.foldl (fun s x => if r.creates x.1 then s else s.partCounts x.1) s
  let parks := s.psc.parks.mapVals none fun _ q => q.map fun (q : Park) =>
    { q with srcs := q.srcs.filter fun w => !(w.typ == 2 && r.ports.contains w.index) }
  ({ s with psc := { s.psc with parks := parks } }).setResize { r with phase := 3 }

/-- The registers of an address range return to their reset values. -/
def State.clearRange (s : State) (lo n : Nat) : State := { s with regs := s.regs.filter fun e => !(decide (lo ≤ e.1 ∧ e.1 < lo + n)) }

/-- IOT[p], IRD[p], DRT[p] and CTR[p] are reset (R60, R491). -/
def State.resetBlocks (s : State) (p : Pid) : State :=
  let s := (((s.clearRange (0x06000000 + 0x100000 * p.val) 0x100000).clearRange (0x07000000 + 0x100000 * p.val) 0x100000).clearRange
    (0x08000000 + 0x1000 * p.val) 0x1000).clearRange (0x09000000 + 0x10000 * p.val) 0x10000
  { s with iots := s.iots.set Iot.empty p.val Iot.empty, ipi := s.ipi.filter (fun e => e.1 / 16 != p.val),
           dumps := s.dumps.set none p.val none, snaps := s.snaps.set [] p.val [], ctrs := s.ctrs.filter fun e => e.1 / 512 % 16 != p.val }

/-- The end of a destruction at swap C: the blocks and the whole ring page are reset and the partition is EMPTY (R60, R398, R474, R500). -/
def State.destroyPart (s : State) (p : Pid) : State :=
  let s := (s.resetBlocks p).ringsEnd p true
  let s := s.clearRange (0x0A001000 + 0x1000 * p.val) 0x1000
  let psc := { s.psc with measured := s.psc.measured.set 0 p.val 0, parks := s.psc.parks.set none p.val none,
                          onHold := s.psc.onHold.erase p.val }
  ({ s with psc := psc, ras := s.ras.set [] p.val [], refused := s.refused.erase p.val }.rgReset (.pscRasCtl p)).setPartState p 0

/-- The HBM ports of a partition: TARGET and EN for its classes (R332). -/
def State.setHbmPorts (s : State) (p : Nat) (l : PartLayout) : State :=
  (List.range 128).foldl (fun s c =>
    (List.range 4).foldl (fun s j =>
      let r : Reg := .hbmPort (Fin.ofNat 8 (c / 16)) (Fin.ofNat 16 c) (Fin.ofNat 65 (4 * p + j))
      match l.hbm.find? fun x => x.1 == j with
      | some (_, t) => (s.rfSet r 11 0 t).rfSet r 12 12 1
      | none => s.rgReset r) s) s

/-- What a layout sets beside the banked resources: watermark, owner grants, quota, HBM ports (R63–R65, R332, R415). -/
def State.applyAttrs (s : State) (p : Nat) (l : PartLayout) : State :=
  let pid : Pid := Fin.ofNat 16 p
  let s := ((s.rfSet (.pscPartWm pid) 47 30 l.wm).rfSet (.pscDbgCtl pid) 1 0 l.dbg).rfSet (.pscRingStatus pid) 23 16 l.quota
  { (s.setHbmPorts p l) with psc := { s.psc with layouts := s.psc.layouts.set PartLayout.empty p l } }

/-- A complex takes a new bifurcation code, and its ports train (R364). -/
def State.setBifur (s : State) (rc code : Nat) : State :=
  let s := s.rfSet (.pciCfg (Fin.ofNat 8 rc)) 2 0 code
  (List.range 4).foldl (fun s i => s.setPortState (Fin.ofNat 32 (4 * rc + i)) (if portExists code i then 1 else 0)) s

/-- The owner's layout goes to the SPI NOR (R54). -/
def State.storeLayouts (s : State) : State :=
  { s with psc := { s.psc with
    stored := s.psc.layouts,
    storedBif := (List.range 8).foldl (fun t r => t.set 0 r (s.rf (.pciCfg (Fin.ofNat 8 r)) 2 0)) [],
    storedCxl := (List.range 32).filter fun i => s.portMode (Fin.ofNat 32 i) == 2 } }

/-- Swap C: the targets hold their new resources, wiped granules are free unless mapped again, the partitions return to their
states, and the owner gets the completion (R56, R60). -/
def State.swapC (s : State) (r : Resize) : State :=
  let s := r.bifur.foldl (fun s x => if s.rf (.pciCfg (Fin.ofNat 8 x.1)) 2 0 = x.2 then s else s.setBifur x.1 x.2) s
  let s := if r.wipe then s else r.layouts.foldl (fun s x => s.applyAttrs x.1 x.2) s
  let mapped := (s.gmapList (s.bank 2)).map fun e => entDa e.2
  let free := (s.psc.pool.flatMap fun x => (List.range x.2).map fun i => x.1 + i) ++ r.grans.map fun g => g.2.2
  let s := { s with psc := { s.psc with pool := (free.filter fun g => !(mapped.contains g)).map fun g => (g, 1) } }
  let s : State := r.pids.foldl (fun (s : State) x =>
    let p : Pid := Fin.ofNat 16 x.1
    if r.destroyed.contains x.1 && !r.wipe then s.destroyPart p
    else
      let s : State := s.partCounts x.1
      let s : State := if r.creates x.1 then { (s.rgReset (.pscRasCtl p)) with ras := s.ras.set [] x.1 [] } else s
      if s.partState p = 3 then s.setPartState p x.2 else s) s
  let s := if r.persist then s.storeLayouts else s
  let s := s.dropResize r.id
  match s.psc.jobs.find? fun j => j.id == r.id with
  | some j => s.complete j scSuccess (b2n r.persist) 0
  | none => s

/-- At the boundary of a GMAP swap, the sequences whose swap it was go on. -/
def State.resizeSwapped (s : State) : State :=
  s.psc.resizes.foldl (fun s r => if r.phase = 2 then s.swapB r else if r.phase = 7 then s.swapC r else s) s

/-- At a boundary, sequences that wait for something try again. -/
def State.resizeAll (s : State) : State := s.psc.resizes.foldl (fun s r => s.resizeGo r.id) s

/-! ## The commands -/

/-- An accepted RESIZE begins (R55, R56). -/
def State.resizeBegin (s : State) (j : Job) (r : LayRec) : State :=
  let ps := s.changed r
  let z : Resize := {
    id := j.id, wipe := false, pids := ps.map fun p => (p, s.partState (Fin.ofNat 16 p)), layouts := ps.map fun p => (p, s.layoutAfter r p),
    bifur := r.bifur, cxl := r.cxl, persist := bit (j.arg 0) 0, clusters := s.releasedClus r,
    grans := ps.flatMap fun p => s.lostGrans p (s.layoutAfter r p),
    ports := ps.flatMap (fun p => (s.layout p).ports.filter fun i => !((s.layoutAfter r p).ports.contains i)), phase := 0 }
  let s := s.keepJob j 1 []
  ({ s with psc := { s.psc with resizes := s.psc.resizes ++ [z] } }).resizeGo j.id

/-- RESIZE: the record is checked and the sequence starts (R55, R56, R414, R415); `dir` is the image directory of the SPI NOR. -/
def execResize (ring : Ring) (dir : List (Nat × Nat)) (s : State) : Host.Outcome State Fault Refusal :=
  .next (s.ringCommand ring {
    op := 0x06, fn := fun _ => true, owner := ownerOnly, bad := fun _ j => j.firstBad [1] [], usesBuf := true,
    work := fun s j =>
      match layParse j.data with
      | .inl o => s.complete j scInvalidField (2 ^ 63 + o) 0
      | .inr r =>
        match s.resizeRefuse r dir with
        | some (st, r0) => s.complete j st r0 0
        | none => s.resizeBegin j r })

/-- RESIZE_KS3_DEADLINE: a released cluster is not in KS3 by the deadline (R55). -/
def execResizeKs3Deadline (job : Nat) (s : State) : Host.Outcome State Fault Refusal :=
  .next (match s.getResize job, s.psc.jobs.find? fun j => j.id == job with
  | some r, some j => if r.phase = 0 && s.expired j.armed (j.wait 1000000) then (s.dropResize job).complete j scBusy 0 0 else s
  | _, _ => s)

/-- A source's request for a released granule is open at its home. -/
def State.openOn (s : State) (r : Resize) : Bool :=
  s.lines.any fun e => r.grans.any (fun g => g.2.2 == e.1 / 2 ^ 24) &&
    ((match e.2.tr with | some t => r.pids.any (fun x => x.1 == t.req.pid.val) | none => false) ||
     e.2.queue.any fun q => r.pids.any fun x => x.1 == q.2.pid.val)

/-- RESIZE_TRACKERS_IDLE (R56). -/
def execResizeTrackersIdle (job : Nat) (s : State) : Host.Outcome State Fault Refusal :=
  .next (match s.getResize job with
  | some r => if r.phase = 3 && !(s.openOn r) then s.setResize { r with phase := 4 } else s
  | none => s)

/-- A line of a released granule leaves every cache without writeback, and every reservation on it is gone (R56, R69). -/
def State.purgeLine (s : State) (ln : Nat) : State :=
  let s := (List.range 36).foldl (fun s g => s.loseCopy ln (Fin.ofNat 36 g)) s
  let s := (s.wrote ln)
  (s.setLine ln { s.line ln with dir := none, l3 := none, mb := none, tr := none, queue := [] }).settleSnoops

/-- The walk of a slice over one line (R56). -/
def State.walkLine (s : State) (r : Resize) (ln : Nat) : State :=
  if r.grans.any fun g => g.2.2 == ln / 2 ^ 24 then s.purgeLine ln
  else match (s.line ln).l3 with
    | some c =>
      match r.layouts.find? fun x => x.1 == c.pid.val with
      | some (_, l) => if l.ways / 2 ^ c.way.val % 2 = 1 then s else (s.l3Clean ln).l3Drop ln
      | none => s
    | none => s

/-- The controllers begin or end a fill of HBM granules (R361, R362). -/
def State.fillCount (s : State) (up : Bool) : State :=
  (List.range 8).foldl (fun s m => let x := s.stack m; s.setStack m { x with filling := if up then x.filling + 1 else x.filling - 1 }) s

def Resize.hbmWork (r : Resize) : Bool := r.grans.any fun g => decide (g.2.2 < 2 ^ 21)

/-- RESIZE_WALK_COMPLETE (R56, R361). -/
def execResizeWalkComplete (job : Nat) (s : State) : Host.Outcome State Fault Refusal :=
  .next (match s.getResize job with
  | some r =>
    if r.phase ≠ 4 then s else
    let s := s.lines.foldl (fun s e => s.walkLine r e.1) s
    if r.grans.isEmpty then (s.setResize { r with phase := 6 }).resizeGo job
    else ((if r.hbmWork then s.fillCount true else s)).setResize { r with phase := 5 }
  | none => s)

/-- GRANULE_WIPE_COMPLETE: every released granule is zero; the targets' banks are staged and swap C requested (R56, R59). -/
def execGranuleWipeComplete (job : Nat) (s : State) : Host.Outcome State Fault Refusal :=
  .next (match s.getResize job with
  | some r =>
    if r.phase ≠ 5 then s else
    let s := s.wipeGranules fun g => r.grans.any fun x => x.2.2 == g
    let s := if r.hbmWork then s.fillCount false else s
    (s.setResize { r with phase := 6 }).resizeGo job
  | none => s)

/-- The granules that a WIPE names. -/
def Job.wipeRun (j : Job) : List Nat := (List.range (fld (j.arg 1) 47 32)).map fun i => fld (j.arg 1) 21 0 + i

/-- Fields of a WIPE: an existing partition, and granules that it owns (R61, R408). -/
def State.wipeBad (s : State) (j : Job) : Option Nat :=
  let p := fld (j.arg 0) 3 0
  j.firstBad [0xF, 0xFFFF003FFFFF] [
    (!(s.existsPart p), 24), (j.wipeRun.any (fun g => match s.gmapDa (s.bank 2) g with | some v => entPid v != p | none => true), 32),
    (j.wipeRun.isEmpty, 36)]

/-- WIPE (R61). -/
def execWipe (ring : Ring) (s : State) : Host.Outcome State Fault Refusal :=
  .next (s.ringCommand ring {
    op := 0x07, fn := fun _ => true, owner := ownerOnly, bad := State.wipeBad, usesBuf := false,
    work := fun s j =>
      let p := fld (j.arg 0) 3 0
      if s.resizing p then s.complete j scBusy 0 0
      else
        let gs := (s.gmapList (s.bank 2)).filterMap fun e => if j.wipeRun.contains (entDa e.2) then some (p, entPpa e.2, entDa e.2) else none
        let z : Resize := {
          id := j.id, wipe := true, pids := [(p, s.partState (Fin.ofNat 16 p))], layouts := [(p, s.layout p)], bifur := [], cxl := [],
          persist := false, clusters := [], grans := gs, ports := [], phase := 0 }
        let s := s.keepJob j 1 []
        ({ s with psc := { s.psc with resizes := s.psc.resizes ++ [z] } }).resizeGo j.id })

/-! ## Starting a partition (R497, R498) -/

/-- The registers of a core that starts (R498): everything zero but the pc, A0, D1 and the vector bases. -/
def Core.started (c : Core) (pc : Word) (pid : Pid) (pl3 : Bool) : Core :=
  let base := pc &&& ~~~ 0x7FF#64
  let c0 : Core := { Core.reset with
    held := false, cs := 0, pc := pc, a := Tbl.set 0 [] 0 pc, d := Tbl.set 0 [] 1 (BitVec.ofNat 64 pid.val), pl := if pl3 then 3 else 1, inner := pl3,
    haltReq := c.haltReq, tlbOut := c.tlbOut, maintOut := c.maintOut }
  ((c0.wsys 0x405 base).wsys 0x805 base).wsys 0xC05 base

/-- Start a core; wake-ups that waited in the Locus are merged before its first instruction (R394), and HALT_ON_RESET halts it where
invasive debug is enabled for its world (R495). -/
def State.startCore (s : State) (k : CoreId) (pc : Word) (pl3 : Bool) : State :=
  let s := s.setCore k ((s.core k).started pc (s.pidOf k) pl3)
  let g := clusterOf k
  let s := if s.rf (.pwrStatus (clusterDom g)) 1 0 = 0 then s else s.wakeCluster g
  let s := (s.mergeWake k).setPwr (coreDom k) 0 false false
  if s.rb (.coreDbgCtl k) 4 && s.invasive (s.pidOf k) pl3 then s.halt k else s

/-- The boot core of a partition: the lowest core of its lowest cluster. -/
def State.bootCore (s : State) (p : Pid) : Option CoreId := (s.clustersOf p).head?.map fun g => Fin.ofNat 216 (6 * g)

/-- Release the boot core at its load PPA; STATE reads RUNNING (R498, R538). -/
def State.releaseBoot (s : State) (p : Pid) : State :=
  match s.bootCore p, (s.layout p.val).boot with
  | some k, some (_, ppa) => (s.startCore k (BitVec.ofNat 64 ppa) ((s.layout p.val).wm != 0)).setPartState p 2
  | _, _ => s

/-- The cores to be released at this boundary. -/
def State.releaseDue (s : State) : State :=
  let due := s.psc.release
  let s := due.foldl (fun s p => if s.partState (Fin.ofNat 16 p) = 1 then s.releaseBoot (Fin.ofNat 16 p) else s) s
  { s with psc := { s.psc with release := due.filter fun p => s.partState (Fin.ofNat 16 p) == 3 } }

/-- Write an image into a partition's memory, granule by granule. -/
def State.loadImage (s : State) (p : Pid) (ppa : Nat) (bs : List Byte) : State :=
  s.writeBytes p true ppa bs (bs.length / 64 + 1)

/-- The PSC loads a boot image: the bytes, their SHA-384 as the measurement, PSC_START_CTL, and the release at the next boundary
(R60, R497, R498, R500). -/
def State.bootLoad (s : State) (p : Pid) (image : List Byte) : State :=
  match (s.layout p.val).boot with
  | none => s
  | some (_, ppa) =>
    let s := s.loadImage p ppa image
    let start := setFld (BitVec.ofNat 64 (ppa % 2 ^ 48)) 0 0 (b2n ((s.layout p.val).wm != 0))
    let s := s.rgSet (.pscStartCtl p) start
    { s with psc := { s.psc with measured := s.psc.measured.set 0 p.val (sha384 image), release := insertNat p.val s.psc.release } }

/-- PARTITION_BOOT_LOAD: the image of a partition that is being built (R60, R497). -/
def execPartitionBootLoad (p : Pid) (image : List Byte) (s : State) : Host.Outcome State Fault Refusal :=
  .next (if s.partState p = 1 && !(s.resizing p.val) && !(s.psc.onHold.contains p.val) && !s.fatal && s.existsPart p.val &&
    !(s.resetting p.val) then s.bootLoad p image else s)

end Sys2Proof.Machine
end

