-- ==== Sys2Proof/Machine/Power.lean ====
section
/-! DEFINITION. Power: votes, POWER_REQ, parked partitions, frequency, temperature, and the inputs that the Locus checks (R447–R468,
R485). -/

namespace Sys2Proof.Machine

/-! ## Domains (R448) -/

def portDom (port : PortId) : DomainId := ⟨264 + port.val, by omega⟩

/-- The partition whose accesses reach a domain. -/
def State.domPid (s : State) (d : DomainId) : Option Pid :=
  if d.val < 216 then s.owner (Fin.ofNat 36 (d.val / 6))
  else if d.val < 252 then s.owner (Fin.ofNat 36 (d.val - 216))
  else if d.val < 264 then none
  else s.portOwner (Fin.ofNat 32 (d.val - 264))

/-- The instance exists: a root port's does where the bifurcation code creates the port (R448). -/
def State.hasDom (s : State) (d : DomainId) : Bool := decide (d.val < 264) || s.hasPort (Fin.ofNat 32 (d.val - 264))

/-- A value of 2 is stored as 3 in a Facet uncore or root-port domain (R449). -/
def domState (d : DomainId) (v : Nat) : Nat := if 252 ≤ d.val ∧ v % 4 = 2 then 3 else v % 4

/-! ## Clock frequency (R458, R459, R463) -/

/-- PWR_PERF.FREQ of every cluster follows (R458–R460). -/
def State.refreq (s : State) : State :=
  (List.range 36).foldl (fun (s : State) i => s.refreqOne (Fin.ofNat 36 i)) s

/-! ## Votes (R449) -/

/-- The links of a root port follow its domain: off goes through the quiesce, L0 and L1 at once, and an off port trains again (R387,
R448, R457). -/
def State.portPower (s : State) (port : PortId) (t : Nat) : State :=
  let d := portDom port
  let now := s.rf (.pwrStatus d) 1 0
  if s.trans d || now = t then s
  else if t = 3 then
    let s := s.rfSet (.pwrStatus d) 2 2 1
    if s.portState port = 1 ∨ s.portState port = 2 then s.quiesceStart port else s.rfSet (.pwrStatus d) 3 3 1
  else (if now = 3 then s.setPortState port 1 else s).setPwr d t false false

/-- A domain takes notice of its effective target: a saved core in CS2 or CS3 that should be shallower wakes (R451). -/
def State.applyTarget (s : State) (d : DomainId) : State :=
  if d.val < 216 then
    let k : CoreId := Fin.ofNat 216 d.val
    if 2 ≤ (s.core k).cs.val && !(s.trans d) && !(s.parking (s.pidOf k)) && decide (s.coreTarget k < (s.core k).cs.val) then s.raiseCore k else s
  else if d.val < 252 then s.refreq
  else if d.val < 264 then s.setPwr d (s.rf (.pwrCtl d) 9 8) false false
  else s.portPower (Fin.ofNat 32 (d.val - 264)) (s.rf (.pwrCtl d) 9 8)

/-- A write that LOCK ignores (R449). -/
def State.pwrLocked (s : State) (d : DomainId) : State := s.bbCoal 0xA010 ((s.domPid d).getD 0) 0 (0xFFF00E000 + d.val)

/-- A write to PWR_CTL (R449). -/
def State.pwrCtlWrite (s : State) (d : DomainId) (w : World) (v : Word) : State :=
  let r : Reg := .pwrCtl d
  if !(s.hasDom d) then s
  else if w == .outer && s.rb r 5 then s.pwrLocked d
  else
    let old := s.rg r
    let x := setFld old 1 0 (domState d (fld v 1 0))
    let x := if w == .inner then setFld (setFld (setFld x 3 2 (domState d (fld v 3 2))) 4 4 (fld v 4 4)) 5 5 (fld old 5 5 ||| fld v 5 5) else x
    ((s.setPwrCtl d x).applyTarget d).powerDone

/-- PWR_CTL_WRITE (R449). -/
def execPwrCtlWrite (d : DomainId) (w : World) (v : Word) (s : State) : Host.Outcome State Fault Refusal := .next (s.pwrCtlWrite d w v)

/-- A write to PWR_PERF (R449, R458). -/
def State.perfWrite (s : State) (d : DomainId) (w : World) (v : Word) : State :=
  if d.val < 216 ∨ 252 ≤ d.val then s
  else if w == .outer && s.rb (.pwrCtl d) 5 then s.pwrLocked d
  else
    let s := s.rfSet (.pwrPerf d) 5 0 (fld v 5 0)
    (if w == .inner then s.rfSet (.pwrPerf d) 13 8 (fld v 13 8) else s).refreq

/-! ## POWER_REQ (R450, R468) -/

/-- The domain that a POWER_REQ names; `none`: subject 3, or an index without a domain. -/
def Job.powerDom (j : Job) : Option DomainId :=
  let i := fld (j.arg 0) 15 8
  match fld (j.arg 0) 1 0 with
  | 0 => if i < 216 then some (Fin.ofNat 296 i) else none
  | 1 => if i < 36 then some (Fin.ofNat 296 (216 + i)) else none
  | 2 => if i < 32 then some (Fin.ofNat 296 (264 + i)) else none
  | _ => none

/-- Fields of a POWER_REQ (R408, R450). -/
def State.powerBad (s : State) (j : Job) : Option Nat :=
  let a := j.arg 0
  let sub := fld a 1 0
  let mine : Bool :=
    if sub = 3 then (match j.pid? with | some p => fld a 15 8 == p.val | none => decide (fld a 15 8 < 16) && s.existsPart (fld a 15 8))
    else match j.powerDom with
      | none => false
      | some d => s.hasDom d && (match j.pid?, s.domPid d with | some p, q => q == some p | none, q => q.isSome)
  j.firstBad [0x307FF03] [
    (!mine, 25), (decide (3 < fld a 18 16) || (sub == 3 && fld a 18 16 != 0), 26),
    ((bit a 24 || bit a 25) && (!(s.jobInner j) || (bit a 24 && bit a 25)), 27)]

/-- A domain that a RESIZE past swap B releases (R409). -/
def State.domReleased (s : State) (d : DomainId) : Bool :=
  s.psc.resizes.any fun r =>
    if d.val < 216 then decide (2 < r.phase) && r.clusters.contains (d.val / 6)
    else if d.val < 252 then decide (2 < r.phase) && r.clusters.contains (d.val - 216)
    else decide (264 ≤ d.val) && r.ports.contains (d.val - 264)

/-- A core without a saved state starts on its partition's own request for CS0 (R58, R498). -/
def State.mayStart (s : State) (j : Job) (k : CoreId) (st : Nat) : Bool :=
  j.pid?.isSome && st == 0 && (s.core k).held && (s.saves.get none k.val : Option SaveSlot).isNone &&
  (s.partState (s.pidOf k) == 2 || s.partState (s.pidOf k) == 3)

/-- Start such a core at PSC_START_CTL (R498). -/
def State.startAt (s : State) (k : CoreId) : State :=
  let v := s.rg (.pscStartCtl (s.pidOf k))
  s.startCore k (v &&& 0xFFFFFFFFFFFE#64) (bit v 0)

/-- Wake a parked partition: ports, clusters and cores, PSC_WAKE_CAUSE, and RUNNING unless a failed save slot has taken it down (R452,
R467). -/
def State.wakePart (s : State) (p : Pid) (entry : Option Nat) (int owner : Bool) : State :=
  match (s.psc.parks.get none p.val : Option Park) with
  | none => s
  | some k =>
    let s := { s with psc := { s.psc with parks := s.psc.parks.set none p.val none } }
    let s : State := k.ports.foldl (fun (s : State) x => s.portPower (Fin.ofNat 32 x.1) x.2) s
    let s : State := (s.clustersOf p).foldl (fun (s : State) g =>
      (List.range 6).foldl (fun (s : State) i => s.raiseCore (Fin.ofNat 216 (6 * g + i))) s) s
    let cause := (entry.getD 0) + b2n entry.isSome * 2 ^ 4 + b2n int * 2 ^ 5 + b2n owner * 2 ^ 6 + s.tick % 2 ^ 32 * 2 ^ 32
    let s := s.rgSet (.pscWakeCause p) (BitVec.ofNat 64 cause)
    (if s.partState p = 5 then s else s.setPartState p 2).powerDone

/-- POWER_REQ's work (R409, R450, R468). -/
def State.powerReq (s : State) (j : Job) : State :=
  let a := j.arg 0
  let st := fld a 18 16
  match j.powerDom with
  | none =>
    let p : Pid := Fin.ofNat 16 (fld a 15 8)
    let s := if s.partState p = 4 && j.pid?.isNone then s.wakePart p none false true else s
    s.complete j scSuccess 0 0
  | some d =>
    if s.domReleased d then s.complete j scBusy 0 0
    else
      let st := domState d st
      let v := s.rg (.pwrCtl d)
      let v := if s.jobInner j then
          let v := setFld v 3 2 st
          if bit a 24 then setFld v 4 4 1 else if bit a 25 then setFld v 4 4 0 else v
        else setFld v 1 0 st
      let s := s.setPwrCtl d v
      if effTarget v < st then (s.applyTarget d).complete j scClaimed 0 0
      else
        let k : CoreId := Fin.ofNat 216 d.val
        let s := if d.val < 216 && s.mayStart j k st && effTarget v == 0 then s.startAt k else s.applyTarget d
        (s.keepJob j 1 [d.val, st]).powerDone

/-- POWER_REQ (R450). -/
def execPowerReq (ring : Ring) (s : State) : Host.Outcome State Fault Refusal :=
  .next (s.ringCommand ring {
    op := 0x01, fn := fun _ => true, owner := forAll, bad := State.powerBad, usesBuf := false, work := State.powerReq })

/-! ## Parked partitions (R464–R467) -/

/-- The cores of a partition. -/
def State.coresOfPart (s : State) (p : Pid) : List CoreId :=
  (s.clustersOf p).flatMap fun g => (List.range 6).map fun i => Fin.ofNat 216 (6 * g + i)

/-- Every power domain of a partition. -/
def State.domsOf (s : State) (p : Pid) : List DomainId :=
  (s.coresOfPart p).map coreDom ++ (s.clustersOf p).map (fun g => clusterDom (Fin.ofNat 36 g)) ++ (s.portsOf p).map portDom

/-- One entry of a wake-source list, or the offset of its first offending field. -/
def State.wakeEntry (s : State) (p : Pid) (bs : List Byte) (off : Nat) : Nat ⊕ WakeSrc :=
  let w : WakeSrc := { typ := bufNat bs off 1, index := bufNat bs (off + 1) 1, op := bufNat bs (off + 2) 1, mask := bufNat bs (off + 4) 4,
                       value := bufNat bs (off + 8) 8 }
  let ok : Bool := match w.typ with
    | 1 => decide (w.index < 16)
    | 2 => decide (w.index < 32) && s.portOwner (Fin.ofNat 32 w.index) == some p
    | 3 => decide (w.index < 12) && (s.clustersOf p).any (fun g => g / 3 == w.index)
    | 4 => true
    | _ => false
  if 4 < w.typ then .inl off else if !ok then .inl (off + 1) else if 3 < w.op then .inl (off + 2)
  else if bufNat bs (off + 3) 1 ≠ 0 then .inl (off + 3) else .inr w

/-- The wake sources of a buffer (R464). -/
def State.wakeList (s : State) (p : Pid) (bs : List Byte) : Nat → Nat → Nat ⊕ List WakeSrc
  | 0, off => if bufNat bs off 1 = 0 then .inr [] else .inl off
  | n + 1, off =>
    if bufNat bs off 1 = 0 then .inr []
    else match s.wakeEntry p bs off with
      | .inl o => .inl o
      | .inr w => match s.wakeList p bs n (off + 16) with
        | .inl o => .inl o
        | .inr l => .inr (w :: l)

/-- A core that waits in CS1 or CS2 goes on to CS3 (R465). -/
def State.deepen (s : State) (k : CoreId) : State :=
  let c := s.core k
  if c.wfi && (c.cs == 1 || c.cs == 2) then (s.setCore k { c with cs := 0 }).sleepStart k else s

/-- PARK's work (R464, R465). -/
def State.parkStart (s : State) (j : Job) : State :=
  match j.pid? with
  | none => s.badField j 24
  | some p =>
    match s.wakeList p j.data 16 0 with
    | .inl o => s.complete j scInvalidField (2 ^ 63 + o) 0
    | .inr srcs =>
      if (s.domsOf p).any fun d => s.rb (.pwrCtl d) 4 then s.complete j scClaimed 0 0
      else if s.parking p then s.complete j scBusy 0 0
      else
        let k : Park := {
          job := some j.id, since := s.tick, parked := none, ms := fld (j.arg 1) 23 0, srcs := srcs, next := 1,
          ports := (s.portsOf p).map fun i => (i.val, s.rf (.pwrStatus (portDom i)) 1 0), hit := none }
        let s := s.keepJob j 1 []
        let s := { s with psc := { s.psc with parks := s.psc.parks.set none p.val (some k) } }
        (s.coresOfPart p).foldl State.deepen s

def parkMasks : List Nat := [1, 2 ^ 24 - 1]

/-- PARK (R464, R465). -/
def execPark (ring : Ring) (s : State) : Host.Outcome State Fault Refusal :=
  .next (s.ringCommand ring {
    op := 0x0E, fn := fun j => bit (j.arg 0) 0, owner := forAll,
    bad := fun _ j => j.firstBad parkMasks [(fld (j.arg 1) 23 0 == 0 || decide (10000 < fld (j.arg 1) 23 0), 32), (j.pid?.isNone, 24)],
    usesBuf := true, work := State.parkStart })

/-- UNPARK: a park in progress ends, its completion ABORTED; root ports that it had begun to move return to their state (R465). -/
def execUnpark (ring : Ring) (s : State) : Host.Outcome State Fault Refusal :=
  .next (s.ringCommand ring {
    op := 0x0E, fn := fun j => !(bit (j.arg 0) 0), owner := forAll, bad := fun _ j => j.firstBad parkMasks [], usesBuf := false,
    work := fun s j =>
      let s : State := match j.pid? with
        | none => s
        | some p =>
          match (s.psc.parks.get none p.val : Option Park) with
          | some k =>
            if k.parked.isSome then s
            else
              let s := { s with psc := { s.psc with parks := s.psc.parks.set none p.val none } }
              let s : State := k.ports.foldl (fun (s : State) x => s.portPower (Fin.ofNat 32 x.1) x.2) s
              match k.job.bind fun n => s.psc.jobs.find? fun x => x.id == n with
              | some x => s.complete x scAborted 0 0
              | none => s
          | none => s
      s.complete j scSuccess 0 0 })

/-- The clusters of a partition are in KS3 with their edges closed. -/
def State.allKs3 (s : State) (p : Pid) : Bool :=
  (s.clustersOf p).all fun g => let d := clusterDom (Fin.ofNat 36 g); s.rf (.pwrStatus d) 1 0 == 3 && !(s.trans d)

/-- The state that a park gives a root port (R465). -/
def Park.portState (k : Park) (i : PortId) : Nat := if k.srcs.any fun w => w.typ == 2 && w.index == i.val then 1 else 3

/-- PARK_COMPLETE: the clusters are in KS3; the root ports enter L1 or go off, and once they have, the partition is PARKED: the
completion is written without an interrupt, event 0xA020 (R465). -/
def execParkComplete (p : Pid) (s : State) : Host.Outcome State Fault Refusal :=
  .next (match (s.psc.parks.get none p.val : Option Park) with
  | none => s
  | some k =>
    if k.parked.isSome || !(s.allKs3 p) then s
    else
      let s : State := (s.portsOf p).foldl (fun (s : State) i => s.portPower i (k.portState i)) s
      if !((s.portsOf p).all fun i => s.rf (.pwrStatus (portDom i)) 1 0 == k.portState i && !(s.trans (portDom i))) then s
      else
        let s := { s with psc := { s.psc with parks := s.psc.parks.set none p.val (some { k with parked := some s.tick, job := none }) } }
        let s := s.setPartState p 4
        let s : State := match k.job.bind fun n => s.psc.jobs.find? fun j => j.id == n with
          | some j => s.complete { j with words := (j.word 0 ||| 0x200#64) :: j.words.drop 1 } scSuccess 0 0
          | none => s
        s.bb 0xA020 (some p) 0 0)

/-- A core that has not drained when a park ends: ABANDON and event 0xA001 (R454, R465). -/
def State.undrained (s : State) (k : CoreId) : State :=
  let c := s.core k
  if c.held then s
  else if c.wfi && c.cs == 0 then s.abandonCore k
  else if c.cs ≠ 3 then (s.rfSet (.pwrStatus (coreDom k)) 4 4 1).bb 0xA001 (some (s.pidOf k)) 0 (min 255 (c.sq.length + c.dq.length))
  else s

/-- PARK_DRAIN_TIMEOUT: not every cluster is in KS3 at T + 64; the park is abandoned, every core that has reached CS3 is woken
(R465). -/
def execParkDrainTimeout (p : Pid) (s : State) : Host.Outcome State Fault Refusal :=
  .next (match (s.psc.parks.get none p.val : Option Park) with
  | none => s
  | some k =>
    if k.parked.isSome || !(s.expired k.since 64) || s.allKs3 p then s
    else
      let s := { s with psc := { s.psc with parks := s.psc.parks.set none p.val none } }
      let s : State := (s.coresOfPart p).foldl State.undrained s
      let s : State := (s.coresOfPart p).foldl (fun (s : State) i => if (s.core i).cs = 3 then s.raiseCore i else s) s
      match k.job.bind fun n => s.psc.jobs.find? fun j => j.id == n with
      | some j => s.complete j scDrainTimeout 0 0
      | none => s)

/-- The package time in ns (R39). -/
def State.ptimeNs (s : State) : Int := (2000 * (s.tick : Int) + s.cycle + s.timeOfs) / 2

/-- An entry matches the value sampled for it (R464, R466). -/
def State.wakeMatch (s : State) (w : WakeSrc) (v : Int) : Bool :=
  let v : Int := match w.typ with
    | 2 => if (s.portSt (Fin.ofNat 32 w.index)).pme then (BitVec.ofInt 64 v ||| 1#64).toNat else v
    | 4 => s.ptimeNs
    | _ => v
  let x := BitVec.ofInt 64 v
  let x := if w.mask = 0 then x else x &&& BitVec.ofNat 64 w.mask
  let y := BitVec.ofNat 64 w.value
  let lt := if w.typ = 3 then x.slt y else x.ult y
  match w.op with
  | 0 => x == y
  | 1 => !lt
  | 2 => lt
  | _ => x != 0

/-- PARK_SAMPLE: at its tick the Locus reads every source; a match logs 0xA021 with the entry and hands the wake to the PSC (R466,
R467). The entry that the record names for the implicit source is not given: a free value. -/
def execParkSample (p : Pid) (smp : List Int) (s : State) : Host.Outcome State Fault Refusal :=
  .next (match (s.psc.parks.get none p.val : Option Park) with
  | none => s
  | some k =>
    match k.parked with
    | none => s
    | some t =>
      if k.hit.isSome || s.tick < t + k.next * 1000 * k.ms then s
      else
        let entry := (k.srcs.zipIdx.find? fun x => s.wakeMatch x.1 (smp.getD x.2 0)).map (·.2)
        let int := (s.coresOfPart p).any fun c => !(s.wakeO.get [] c.val).isEmpty || !(s.wakeI.get [] c.val).isEmpty || (s.wakeAb.get none c.val).isSome
        let s : State := k.srcs.foldl (fun (s : State) w => if w.typ = 2 then
            s.setPortSt (Fin.ofNat 32 w.index) { s.portSt (Fin.ofNat 32 w.index) with pme := false } else s) s
        let hit := entry.isSome || int
        let k := { k with next := k.next + 1, hit := if hit then some (entry, int, false) else none }
        let s := { s with psc := { s.psc with parks := s.psc.parks.set none p.val (some k) } }
        if !hit then s else
          match entry with
          | some e => s.bb 0xA021 (some p) 0 e
          | none => let (v, s) := s.draw
                    s.bb 0xA021 (some p) 0 (fld v 7 0))

/-- PARTITION_WAKE: the PSC wakes a partition whose sources have matched (R467). -/
def execPartitionWake (p : Pid) (s : State) : Host.Outcome State Fault Refusal :=
  .next (match (s.psc.parks.get none p.val : Option Park) with
  | some k => match k.hit with
    | some (e, i, o) => s.wakePart p e i o
    | none => s
  | none => s)

/-- PME_MESSAGE: the port latches a wake event (R466). -/
def execPmeMessage (port : PortId) (s : State) : Host.Outcome State Fault Refusal :=
  .next (if s.hasPort port then s.setPortSt port { s.portSt port with pme := true } else s)

/-! ## Boost, droop and temperature (R459–R463) -/

/-- BOOST_UPDATE: every 100 ticks one boost frequency is set; the estimate behind it is not given, so the step is free (R459). -/
def execBoostUpdate (s : State) : Host.Outcome State Fault Refusal :=
  .next (if s.tick < s.pwr.boostAt + 100 then s else
    let (v, s) := s.draw
    ({ s with pwr := { s.pwr with boost := 29 + v.toNat % 6, boostAt := s.tick, total := (s.rg .mtrTotal).toNat } }).refreq)

/-- DROOP_STRETCH: the stretched cycles are counted (R461). -/
def execDroopStretch (g : ClusterId) (n : Nat) (s : State) : Host.Outcome State Fault Refusal := .next (s.rfInc (.pwrDroop g) 31 0 n)

/-- The throttle and trip limits in °C (R535). -/
def throttleAt : ThermUnit → Int
  | .die _ => 100
  | .stack _ => 95
def tripAt : ThermUnit → Int
  | .die _ => 115
  | .stack _ => 105

/-- THERMAL_THROTTLE: a unit reaches its throttle limit; event 0xA040 once for the excursion (R463). The code that names the die or stack
is not given. -/
def execThermalThrottle (u : ThermUnit) (temp : Int) (s : State) : Host.Outcome State Fault Refusal :=
  .next (if temp < throttleAt u || s.pwr.hot.contains u then s else
    let (v, s) := s.draw
    (({ s with pwr := { s.pwr with hot := s.pwr.hot ++ [u] } }).bb 0xA040 none 0 (fld v 7 0)).refreq)

/-- THROTTLE_RELEASE: the unit is 5 °C below its limit (R463). -/
def execThrottleRelease (u : ThermUnit) (temp : Int) (s : State) : Host.Outcome State Fault Refusal :=
  .next (if throttleAt u - 5 < temp then s else ({ s with pwr := { s.pwr with hot := s.pwr.hot.erase u } }).refreq)

/-- THERMAL_TRIP: main power is removed, event 0xA041, FATAL (R463, R533). -/
def execThermalTrip (u : ThermUnit) (temp : Int) (s : State) : Host.Outcome State Fault Refusal :=
  .next (if temp < tripAt u then s else
    let (v, s) := s.draw
    let s := { s with pwr := { s.pwr with low := false } }
    ((s.rfSet .locRailStatus 56 56 0).rfSet .locRailStatus 55 55 1).bbFatal 0xA041 none 0 (fld v 7 0))

/-- SENSOR_CHECK: every 1,000 ticks a reading is compared with the median of the others; 16 consecutive differences above 15 °C fail the
sensor with event 0x0031 (R485). -/
def execSensorCheck (die sensor : Nat) (reading median : Int) (s : State) : Host.Outcome State Fault Refusal :=
  let key := 64 * die + sensor
  let early := match (s.pwr.readAt.get none key : Option Nat) with | some t => decide (t ≤ s.tick ∧ s.tick < t + 1000) | none => false
  .next (if s.pwr.failed.contains key || early then s else
    let s := { s with pwr := { s.pwr with readAt := s.pwr.readAt.set none key (some s.tick) } }
    if (reading - median).natAbs ≤ 15 then { s with pwr := { s.pwr with odd := s.pwr.odd.set 0 key 0 } }
    else
      let n := s.pwr.odd.get 0 key + 1
      if n < 16 then { s with pwr := { s.pwr with odd := s.pwr.odd.set 0 key n } }
      else ({ s with pwr := { s.pwr with odd := s.pwr.odd.set 0 key 0, failed := insertNat key s.pwr.failed } }).bb 0x0031 none 0 0)

/-- SPI_TIMEOUT: the package SPI NOR fails after its retries: FATAL at boot; a layout store leaves RESULT0 [0] at 0; a partition whose
image is being read stays BUILDING (R485, R496, R538). -/
def execSpiTimeout (ctx : SpiCtx) (s : State) : Host.Outcome State Fault Refusal :=
  .next (match ctx with
  | .boot => if s.rf .pscBootStatus 3 0 = 8 then s else s.bbFatal 0x1050 none 0 0
  | .layoutStore job =>
    match s.getResize job with
    | some r => if r.persist then (s.setResize { r with persist := false }).bb 0x1051 none 0 0 else s
    | none => s
  | .partImage p =>
    if s.partState p = 1 then ({ s with psc := { s.psc with release := s.psc.release.erase p.val, onHold := insertNat p.val s.psc.onHold } }).bb 0x1051 (some p) 0 0
    else s)

end Sys2Proof.Machine
end

