-- ==== Sys2Proof/Machine/Meter.lean ====
section
/-! DEFINITION. The sealed Meter: feeds, the apportionment rule, the ledger, channel failures, checkpoints and gaps, parameter loads,
METER_READ and the Evonisum port (R418–R446). -/

namespace Sys2Proof.Machine

/-! ## Small operations -/

/-- The life-cycle state (R501). -/
def State.lifeCycle (s : State) : Nat := s.rf .pscBootStatus 7 5

/-- Change a field of what MTR_STATUS will show. -/
def State.mtrSt (s : State) (hi lo x : Nat) : State := { s with meter := { s.meter with st := setFld s.meter.st hi lo x, stale := true } }

/-- EPOCH, PSET, AUDIT and FAULT as the Meter holds them (R443). -/
def State.epoch (s : State) : Nat := fld s.meter.st 63 32
def State.mtrFault (s : State) : Bool := bit s.meter.st 1

/-- MTR_STATUS.GAP follows the open gap records. -/
def State.mtrGapBit (s : State) : State := s.mtrSt 2 2 (b2n (s.meter.gaps.any fun g => g.stop.isNone))

/-- Open a gap record (R446). -/
def State.gapOpen (s : State) (cause chan : Nat) : State :=
  let g : GapRec := { epoch := s.epoch, tick := s.tick, stop := none, cause := cause, chan := chan }
  ({ s with meter := { s.meter with gaps := s.meter.gaps ++ [g] } }).mtrGapBit

/-- Close the open gap records of a cause and channel (R446). -/
def State.gapClose (s : State) (cause chan : Nat) : State :=
  let f (g : GapRec) : GapRec := if g.stop.isNone ∧ g.cause = cause ∧ g.chan = chan then { g with stop := some (s.epoch, s.tick) } else g
  ({ s with meter := { s.meter with gaps := s.meter.gaps.map f } }).mtrGapBit

/-- Add a metrological event record (R441). -/
def State.mtrEvent (s : State) (code unit : Nat) : State :=
  { s with meter := { s.meter with events := s.meter.events ++ [{ epoch := s.epoch, tick := s.tick, code := code, unit := unit }] } }

/-- A channel has failed (R432). -/
def State.chFailed (s : State) (c : Nat) : Bool := s.meter.fail / 2 ^ c % 2 == 1

/-! ## What the Meter learns (R423–R425) -/

/-- The layout in force: cluster owners, ways, HBM granules and tokens (R423, R424). -/
def State.mtrLay (s : State) : MtrLay :=
  let pids := List.range 16
  let grans := (s.gmapList (s.bank 2)).filter fun e => decide (entDa e.2 < 2 ^ 21)
  { owner := (List.range 36).foldl (fun t g => match s.owner (Fin.ofNat 36 g) with | some p => Tbl.set 0 t g (p.val + 1) | none => t) []
    ways := pids.foldl (fun t p => Tbl.set 0 t p ((List.range 16).filter fun w => s.wayMask 0 (Fin.ofNat 16 p) / 2 ^ w % 2 == 1).length) []
    grans := pids.foldl (fun t p => Tbl.set 0 t p (grans.filter fun e => entPid e.2 == p).length) []
    toks := pids.foldl (fun t p => Tbl.set 0 t p (s.net.tokens.filter fun k => k.pid.val == p).length) [] }

/-- FEED_MESSAGE: a message that passes its CRC-32C is taken for the tick; its counts are what the hardware has counted of the units, lookups
and transfers that commands showed, which the latch adds, and those of the operand, for the traffic that no command shows (log 84; R423,
R425). -/
def execFeedMessage (fd : Feed) (s : State) : Host.Outcome State Fault Refusal :=
  let n := s.meter.now
  .next (if !fd.ok then s else
    let n := match fd.kind.val with
      | 0 => { n with net := some (fd.counts.getD 0 []) }
      | 1 => { n with l3 := some (fd.counts.getD 0 []) }
      | 2 => { n with hbm := some fd.counts }
      | 3 => { n with chord := some fd.counts }
      | _ => { n with main := some fd.main }
    { s with meter := { s.meter with now := n } })

/-- LAYOUT_FEED: the Meter has the layout of a generation, and LAYOUT_GEN will show it (R424). -/
def execLayoutFeed (gen : Byte) (s : State) : Host.Outcome State Fault Refusal := .next (s.mtrSt 31 24 gen.toNat)

/-- A feed missing at the latch: event 0x2010, at most once per feed in 1,000,000 ticks (R425). -/
def State.feedMissing (s : State) (k : Nat) : State :=
  let quiet := match s.meter.missed.get none k with | some t => decide (t ≤ s.tick ∧ s.tick < t + 1000000) | none => false
  if quiet then s
  else (({ s with meter := { s.meter with missed := s.meter.missed.set none k (some s.tick) } }).mtrEvent 0x2010 k).bb 0x2010 none 0xFF k

/-- The feeds of the last tick that are missing, by number (R425). -/
def Feeds.absent (f : Feeds) : List Nat :=
  (if f.net.isNone then [0] else []) ++ (if f.l3.isNone then [1] else []) ++ (if f.hbm.isNone then [2] else []) ++
  (if f.chord.isNone then [3] else []) ++ (if f.main.isNone then [4] else [])

/-! ## The apportionment rule (R426–R429) -/

/-- A split of an energy over weights by largest remainder (R426). -/
def split (e : Nat) (ws : List Nat) : List Nat :=
  let w := ws.sum
  if w = 0 then ws.map fun _ => 0 else
  let rs := (ws.map fun x => e * x % w).zipIdx
  let left := e - (ws.map fun x => e * x / w).sum
  (ws.zip rs).map fun (x, r, i) =>
    let ahead := (rs.filter fun q => decide (r < q.1 ∨ (q.1 = r ∧ q.2 < i))).length
    e * x / w + (if ahead < left then 1 else 0)

/-- Shares to be added to buckets: (bucket, nJ). -/
abbrev Shares := List (Nat × Nat)

/-- The bucket of a cluster: its owner, or IDLE (R427). -/
def MtrLay.bucket (l : MtrLay) (g : Nat) : Nat := match l.owner.get 0 g with | 0 => 17 | p + 1 => p

/-- Channel energies of a tick: of channel `c`, or 0 where it is not measured. -/
abbrev Energies := List Nat

/-- Step 1's weights for Facet `f`: a single failed output is what the others leave of VIN_F; with two failed, or all zero, each
counts 1 (R427, R429, R432). -/
def facetWeights (failed : Nat → Bool) (es : Energies) (f : Nat) : List Nat :=
  let outs := [3 * f, 3 * f + 1, 3 * f + 2, 36 + f]
  let bad := outs.filter failed
  let known := outs.map fun c => if failed c then 0 else es.getD c 0
  let ws := if bad.length = 1 then outs.map fun c => if failed c then es.getD (48 + f) 0 - known.sum else es.getD c 0 else known
  if 2 ≤ bad.length ∨ ws.sum = 0 then [1, 1, 1, 1] else ws

/-- Steps 1–3 for a Facet: its shares, whether an output was substituted, and whether the Chord feed was missing (R427, R429). -/
def facetShares (failed : Nat → Bool) (es : Energies) (fd : Feeds) (f : Nat) : Shares × Bool × Bool :=
  if failed (48 + f) then ([], false, false) else
  let outs := [3 * f, 3 * f + 1, 3 * f + 2, 36 + f]
  let sh := split (es.getD (48 + f) 0) (facetWeights failed es f)
  let clu : Shares := (List.range 3).map fun c => (fd.lay.bucket (3 * f + c), sh.getD c 0)
  let un := sh.getD 3 0
  let units : List Nat := match fd.chord with | some rows => (rows.getD f []).take 17 | none => []
  let core : Shares := if units.sum = 0 then (split un [1, 1, 1]).zipIdx.map fun (x, c) => (fd.lay.bucket (3 * f + c), x)
    else (split un units).zipIdx.map fun (x, b) => (b, x)
  (clu ++ core, outs.any failed, fd.chord.isNone)

/-- The static weights of a rail (R428). -/
def staticWeights (l : MtrLay) (usable : Nat) (r : RailW) : List Nat :=
  let pids := List.range 16
  let ways := (pids.map fun p => l.ways.get 0 p).sum
  let grans := (pids.map fun p => l.grans.get 0 p).sum
  (pids.map fun p => r.aWay * l.ways.get 0 p + r.aTok * l.toks.get 0 p + r.aGran * l.grans.get 0 p) ++
  [r.kOvh, r.aWay * (16 - ways) + r.aGran * (usable - grans)]

/-- The activity weights of a rail; `none`: a feed that they need is missing (R428). -/
def activityWeights (fd : Feeds) (r : RailW) (stk : List Nat) : Option (List Nat) :=
  let row (o : Option (List Nat)) (w : Nat) : Option (Nat → Nat) := if w = 0 then some fun _ => 0 else o.map fun l b => w * l.getD b 0
  let h : Option (Nat → Nat) := if r.wHbm = 0 then some fun _ => 0
    else fd.hbm.map fun rows b => r.wHbm * (stk.map fun m => (rows.getD m []).getD b 0).sum
  match row fd.net r.wNet, row fd.l3 r.wL3, h with
  | some n, some l, some h => some ((List.range 17).map fun b => n b + l b + h b)
  | _, _, _ => none

/-- Steps 4 and 5 for a Centroid or HBM rail: its shares, and whether a feed was missing (R427, R429). -/
def railShares (e : Nat) (fd : Feeds) (usable : Nat) (r : RailW) (stk : List Nat) : Shares × Bool :=
  let st := staticWeights fd.lay usable r
  let es := e * r.sigma / 65536
  let act := activityWeights fd r stk
  let ws := match act with | some a => if a.sum = 0 then st else a | none => st
  (((split es st).zipIdx ++ (split (e - es) ws).zipIdx).map fun (x, b) => (b, x), act.isNone)

/-- The stacks whose transfers a rail's activity counts: VDD_IO counts all, stack m its own (R428). -/
def railStacks (c : Nat) : List Nat := if 64 ≤ c then [c - 64] else List.range 8

/-- The 24 total channels (R420). -/
def totalChannels : List Nat := (List.range 24).map fun i => 48 + i

/-- The shares of a tick, and its SUBST and SPLIT_EST flags (R427, R433). -/
def apportion (failed : Nat → Bool) (es : Energies) (fd : Feeds) (main : Bool) (usable : Nat) (rails : List RailW) : Shares × Bool × Bool :=
  if !main then ((totalChannels.filter fun c => !(failed c)).map fun c => (18, es.getD c 0), false, false) else
  let fs : List (Shares × Bool × Bool) := (List.range 12).map fun f => facetShares failed es fd f
  let cs : List (Shares × Bool) := ((List.range 12).filter fun i => !(failed (60 + i))).map fun i =>
    railShares (es.getD (60 + i) 0) fd usable (rails.getD (min i 4) { sigma := 0, aWay := 0, aTok := 0, aGran := 0, kOvh := 1, wNet := 0, wL3 := 0, wHbm := 0 })
      (railStacks (60 + i))
  ((fs.flatMap fun a => a.1) ++ cs.flatMap fun a => a.1, fs.any fun a => a.2.1, (fs.any fun a => a.2.2) || cs.any fun a => a.2)

/-! ## Closing the entry (R421, R422, R427–R433) -/

/-- The usable HBM granules (R10, R352). -/
def State.usableGrans (s : State) : Nat := if s.hbm.withdrawn then 179 else 186

/-- A channel's full scale in watts (R420). -/
def fullScale (c : Nat) : Int :=
  if c < 36 then 40 else if c < 48 then 15 else if c < 60 then 150 else if c < 62 then 80 else if c = 62 then 180 else if c = 63 then 10 else 30

/-- The load points of a channel, as the energy of one tick in units of 1/1,024 nJ, and the temperatures in °C (R435). -/
def calLoads (c : Nat) : List Int := [5, 25, 50, 100, 120].map fun (p : Int) => p * 10240 * fullScale c
def calTemps : List Int := [25, 60, 95]

/-- The segment between two points that a value lies in, or the nearest: the number of inner points at or below it (R435). -/
def calSeg (ps : List Int) (x : Int) : Nat := ((ps.drop 1).dropLast.filter fun p => decide (p ≤ x)).length

/-- The correction at a load point and a temperature, in units of 1/1,024 nJ (R435, R437). -/
def Meter.calAt (m : Meter) (c i j : Nat) : Int :=
  match m.cal with
  | some l => l.getD (15 * c + 3 * i + j) 0
  | none => Config.calFactory (15 * c + 3 * i + j)

/-- The sample x_c: the raw sample with its correction, linear in load and in temperature on the nearest segments, clamped at zero; how
a fraction of a unit is rounded is free (R421, R435). -/
def Meter.calibrated (m : Meter) (c : Nat) (raw temp : Int) : Nat :=
  let ps := calLoads c
  let i := calSeg ps raw
  let j := calSeg calTemps temp
  let a := raw - ps.getD i 0
  let dl := ps.getD (i + 1) 0 - ps.getD i 0
  let b := temp - calTemps.getD j 0
  let num := (m.calAt c i j * (dl - a) + m.calAt c (i + 1) j * a) * (35 - b) + (m.calAt c i (j + 1) * (dl - a) + m.calAt c (i + 1) (j + 1) * a) * b
  let den := dl * 35
  (raw + num / den + if num % den ≠ 0 ∧ Config.calUp c raw temp then 1 else 0).toNat

/-- Channel energies and residues of the tick; a channel that has failed is not measured (R422, R432). -/
def State.channelEnergies (s : State) (x : List Nat) : Energies × Tbl Nat :=
  (List.range 72).foldl (fun (a : Energies × Tbl Nat) c =>
    if s.chFailed c then (a.1 ++ [0], a.2)
    else
      let v := x.getD c 0 + a.2.get 0 c
      (a.1 ++ [v / 1024], a.2.set 0 c (v % 1024))) ([], s.meter.rho)

/-- An uncorrected reading within −1% and 125% of full scale (R432). -/
def rawGood (c : Nat) (raw : Int) : Bool := decide (-10240 * fullScale c ≤ raw ∧ raw ≤ 1280000 * fullScale c)

/-- The consecutive ticks of good readings by channel (R432). -/
def State.goodCount (s : State) (raw : List Int) : Tbl Nat :=
  (List.range 72).foldl (fun (t : Tbl Nat) c => t.set 0 c (if rawGood c (raw.getD c 0) then t.get 0 c + 1 else 0)) s.meter.good

/-- The consecutive ticks in which a Facet's outputs exceed its VIN_F by more than 2% (R432). -/
def State.overCount (s : State) (es : Energies) : Tbl Nat :=
  (List.range 12).foldl (fun (t : Tbl Nat) f =>
    let outs := ([3 * f, 3 * f + 1, 3 * f + 2, 36 + f].map fun c => es.getD c 0).sum
    t.set 0 f (if !(s.chFailed (48 + f)) && decide (102 * es.getD (48 + f) 0 < 100 * outs) then t.get 0 f + 1 else 0)) s.meter.exceed

/-- The entry of the last tick is closed with its flags. -/
def State.entryClosed (s : State) (flags : Nat) : State :=
  { s with meter := { s.meter with closed := some (s.tick - 1), due := false, flags := flags, stale := true } }

/-- Close the entry of the last tick from the 72 raw samples in units of 1/1,024 nJ and the island's temperature in °C. -/
def State.ledgerClose (s : State) (raw : List Int) (temp : Int) : State :=
  let fd := s.meter.last
  let s : State := fd.absent.foldl State.feedMissing s
  let (main, s) : Bool × State := match fd.main with | some m => (m, s) | none => s.drawBool
  let base := 8 * b2n (!main) + 16 * b2n fd.free + 32 * b2n fd.pset
  let gap := totalChannels.any s.chFailed
  let s := { s with meter := { s.meter with good := s.goodCount raw } }
  if s.mtrFault then s.entryClosed (base + 1) else
  let (es, rho) := s.channelEnergies ((List.range 72).map fun c => s.meter.calibrated c (raw.getD c 0) temp)
  let s := { s with meter := { s.meter with exceed := s.overCount es } }
  let (sh, subst, est) := apportion s.chFailed es fd main s.usableGrans s.meter.rails
  let led : Tbl Nat := sh.foldl (fun t (a : Nat × Nat) => t.set 0 a.1 (t.get 0 a.1 + a.2)) s.meter.led
  let sum := (totalChannels.map fun c => es.getD c 0).sum
  let s := { s with meter := { s.meter with rho := rho, led := led, total := s.meter.total + sum, inc := (sh.map fun (a : Nat × Nat) => a.2).sum } }
  s.entryClosed (base + b2n gap + 2 * b2n subst + 4 * b2n est)

/-- METER_LEDGER_CLOSE: once in each tick, by cycle 1,599 (R23, R30, R421, R427, R435). -/
def execMeterLedgerClose (raw : List Int) (temp : Int) (s : State) : Host.Outcome State Fault Refusal :=
  .next (if !s.meter.due ∨ 1600 ≤ s.cycle then s else s.ledgerClose raw temp)

/-- METER_CONSERVATION_CHECK: the second adder's measured total is compared with the bucket increments of the entry (R431). -/
def execMeterConservationCheck (sum : Nat) (s : State) : Host.Outcome State Fault Refusal :=
  .next (if s.mtrFault || sum == s.meter.inc then s
    else (((s.mtrSt 1 1 1).mtrEvent 0x2030 0xFF).gapOpen 2 0xFF).bb 0x2030 none 0xFF 0)

/-! ## Channels (R432) -/

/-- CHANNEL_FAIL: a channel was bad for 16 consecutive ticks; a total channel opens a gap. -/
def execChannelFail (c : Fin 72) (s : State) : Host.Outcome State Fault Refusal :=
  .next (if s.chFailed c.val then s else
    let s := { s with meter := { s.meter with fail := s.meter.fail + 2 ^ c.val, stale := true } }
    let s := (s.mtrEvent 0x2001 c.val).bb 0x2001 none c.val 0
    if 48 ≤ c.val then s.gapOpen 1 c.val else s)

/-- CHANNEL_RESTORE: a failed channel was good for 1,000 consecutive ticks; before that nothing is restored. -/
def execChannelRestore (c : Fin 72) (s : State) : Host.Outcome State Fault Refusal :=
  .next (if !(s.chFailed c.val) || decide (s.meter.good.get 0 c.val < 1000) then s else
    let s := { s with meter := { s.meter with fail := s.meter.fail - 2 ^ c.val, stale := true } }
    let s := (s.mtrEvent 0x2002 c.val).bb 0x2002 none c.val 0
    if 48 ≤ c.val then s.gapClose 1 c.val else s)

/-- FACET_CROSSCHECK: a Facet's outputs exceeded its VIN_F by more than 2% for 64 consecutive ticks; its channels stay in use. -/
def execFacetCrosscheck (f : FacetId) (s : State) : Host.Outcome State Fault Refusal :=
  .next (if s.meter.exceed.get 0 f.val < 64 then s else s.bb 0x2012 none 0xFF f.val)

/-! ## Checkpoints, restarts and gaps (R443–R446) -/

/-- Counters, residues and EPOCH go into the island's non-volatile store. -/
def State.checkpoint (s : State) : State :=
  { s with meter := { s.meter with ck := { led := s.meter.led, total := s.meter.total, rho := s.meter.rho, epoch := s.epoch, tick := s.tick } } }

/-- METER_CHECKPOINT: at every tick with TICK mod 1,000,000 = 0 (R444). -/
def execMeterCheckpoint (s : State) : Host.Outcome State Fault Refusal := .next (if s.tick % 1000000 = 0 then s.checkpoint else s)

/-- WARNING_CHECKPOINT: VDD_MTR fell below its warning threshold (R444, R531). -/
def execWarningCheckpoint (s : State) : Host.Outcome State Fault Refusal := .next s.checkpoint

/-- METER_RESTORE: VDD_MTR returns after a loss (R431, R445, R446). -/
def execMeterRestore (s : State) : Host.Outcome State Fault Refusal :=
  let ck := s.meter.ck
  let e := (ck.epoch + 1) % 2 ^ 32
  let g : GapRec := { epoch := ck.epoch, tick := ck.tick, stop := some (e, s.tick), cause := 0, chan := 0xFF }
  let s := { s with meter := { s.meter with
    led := ck.led, total := ck.total, rho := ck.rho, now := Feeds.empty, last := Feeds.empty, acts := [], good := [], exceed := [], missed := [], signAt := none, addr := none,
    gaps := s.meter.gaps ++ [g] } }
  .next ((((s.mtrSt 63 32 e).mtrSt 1 1 0).gapClose 2 0xFF).bb 0x2020 none 0xFF 0)

/-- A restart of LOC_TICK_NUM while VDD_MTR is present: a new epoch and a gap record of cause 3 (R443, R446). `was` is the tick
before the restart. -/
def State.epochRestart (s : State) (was : Nat) : State :=
  let e := (s.epoch + 1) % 2 ^ 32
  let g : GapRec := { epoch := s.epoch, tick := was, stop := some (e, s.tick), cause := 3, chan := 0xFF }
  ({ s with meter := { s.meter with gaps := s.meter.gaps ++ [g], now := Feeds.empty, last := Feeds.empty } }).mtrSt 63 32 e

/-- METER_SEALING: the seal fuse is blown in BLANK; the counters start at 0 (R430, R437). -/
def execMeterSealing (s : State) : Host.Outcome State Fault Refusal :=
  .next (if s.lifeCycle ≠ 0 ∨ bit s.meter.st 0 then s
    else ({ s with meter := { s.meter with led := [], total := 0 } }).mtrSt 0 0 1)

/-! ## The parameter image (R437–R440) -/

/-- The image takes effect at a boundary; the tick that begins carries the PSET flag (R439). -/
def State.paramApply (s : State) : State :=
  match s.meter.next with
  | none => s
  | some i =>
    ({ s with meter := { s.meter with rails := i.rails, cal := some i.cal, next := none, sum := i.checksum, now := { s.meter.now with pset := true } } }).mtrSt 15 8 i.pset.toNat

/-- The response frame of the Evonisum port: STATUS, LEN, payload and CRC-16 (R441). -/
def State.answer (s : State) (status : Nat) (payload : List Byte) : State :=
  let head := [BitVec.ofNat 8 status, BitVec.ofNat 8 payload.length, BitVec.ofNat 8 (payload.length / 256)] ++ payload
  let crc := crc16 0x1021 0xFFFF (bytesNat head) head.length
  { s with reply := head ++ natBytes crc 2 }

/-- PARAM_LOAD is permitted: in BLANK before sealing; afterwards in SERVICE, signed, PSET not lower, and room in the audit counter. -/
def State.loadOk (s : State) (i : ParamImage) : Bool :=
  if !(bit s.meter.st 0) then s.lifeCycle == 0
  else s.lifeCycle == 3 && i.signed && decide (fld s.meter.st 15 8 ≤ i.pset.toNat) && decide (fld s.meter.st 23 16 < 255)

/-- PARAM_LOAD (R438, R439). -/
def execParamLoad (img : ParamImage) (s : State) : Host.Outcome State Fault Refusal :=
  .next (if !(s.loadOk img) then (s.bb 0x2041 none 0xFF 0).answer 4 []
    else
      let m := s.meter
      let s := { s with meter := { m with next := some img } }
      if !(bit m.st 0) then s.answer 0 []
      else
        let r : ParRec := { epoch := s.epoch, tick := s.tick, pOld := fld m.st 15 8, pNew := img.pset.toNat, cOld := m.sum.toNat, cNew := img.checksum.toNat }
        let s := ({ s with meter := { s.meter with plog := s.meter.plog ++ [r] } }).mtrSt 23 16 (fld m.st 23 16 + 1)
        (s.bb 0x2040 none 0xFF 0).answer 0 [])

/-! ## The Evonisum port (R441, R442) -/

/-- Free bytes: signatures are made with a key that never leaves the island. -/
def State.drawBytes : Nat → State → List Byte × State
  | 0, s => ([], s)
  | n + 1, s =>
    let (v, s) := s.draw
    let (t, s) := State.drawBytes n s
    (natBytes v.toNat 8 ++ t, s)

/-- A signed record of 280 bytes: the fields, the body padded to 152 bytes, NONCE and the signature (R442). -/
def State.signed (s : State) (typ epoch tick flags : Nat) (body : List Byte) (nonce : Word) : State :=
  let m := s.meter
  let head := natBytes typ 2 ++ natBytes 280 2 ++ natBytes epoch 4 ++ natBytes tick 8 ++ natBytes (fld (s.rg .mtrId) 15 0) 2 ++
    natBytes m.sum.toNat 2 ++ natBytes (fld m.st 23 16) 2 ++ natBytes flags 2
  let (sig, s) := State.drawBytes 12 s
  ({ s with meter := { s.meter with signAt := some s.tick } }).answer 0
    (head ++ (body ++ List.replicate (152 - body.length) 0) ++ natBytes nonce.toNat 8 ++ sig)

/-- The Meter signs at most one record in 1,000 ticks (R442). -/
def State.signBusy (s : State) : Bool := match s.meter.signAt with | some t => decide (t ≤ s.tick ∧ s.tick < t + 1000) | none => false

/-- Answer a request for a record: NO_RECORD, BUSY, or the signed record. -/
def State.record (s : State) (r : Option (State → State)) : State :=
  match r with
  | none => s.answer 5 []
  | some f => if s.signBusy then s.answer 1 [] else f s

/-- A record of a ring of 1,024 by its running number (R441). -/
def ringRec {α : Type} (l : List α) (i : Nat) : Option α := if l.length ≤ i + 1024 then l[i]? else none

/-- IDENT (R441). -/
def execIdent (s : State) : Host.Outcome State Fault Refusal :=
  let m := s.meter
  .next (s.answer 0 (natBytes (fld (s.rg .mtrId) 15 0) 2 ++ natBytes m.sum.toNat 2 ++ natBytes (fld m.st 15 8) 1 ++ natBytes s.lifeCycle 1 ++
    natBytes (fld m.st 23 16) 2 ++ natBytes s.epoch 4 ++ natBytes Config.serial.toNat 8 ++ natBytes (m.closed.getD 0) 8 ++ natBytes m.flags 4))

/-- LEDGER: the last closed entry (R441, R442). -/
def execLedger (nonce : Word) (s : State) : Host.Outcome State Fault Refusal :=
  let m := s.meter
  .next (s.record (m.closed.map fun t s => s.signed 1 s.epoch t m.flags ((List.range 19).flatMap fun b => natBytes (m.led.get 0 b) 8) nonce))

/-- GAP (R441, R442). -/
def execGap (idx : Nat) (nonce : Word) (s : State) : Host.Outcome State Fault Refusal :=
  .next (s.record ((ringRec s.meter.gaps idx).map fun g s =>
    let stop := g.stop.getD (0, 0)
    s.signed 2 g.epoch g.tick 0 (natBytes g.epoch 4 ++ natBytes g.tick 8 ++ natBytes stop.1 4 ++ natBytes stop.2 8 ++ natBytes g.cause 1 ++ natBytes g.chan 1) nonce))

/-- EVENT (R441, R442). -/
def execEvent (idx : Nat) (nonce : Word) (s : State) : Host.Outcome State Fault Refusal :=
  .next (s.record ((ringRec s.meter.events idx).map fun e s => s.signed 3 e.epoch e.tick 0 (natBytes e.code 2 ++ natBytes e.unit 1) nonce))

/-- PARAMLOG: a log of 255 records that never overwrites one (R439, R441, R442). -/
def execParamlog (idx : Nat) (nonce : Word) (s : State) : Host.Outcome State Fault Refusal :=
  .next (s.record (s.meter.plog[idx]?.map fun r s =>
    s.signed 4 r.epoch r.tick 0 (natBytes r.pOld 1 ++ natBytes r.pNew 1 ++ natBytes r.cOld 2 ++ natBytes r.cNew 2) nonce))

/-- CERT: 256 bytes of the certificate chain, or none past its end (R441). -/
def execCert (part : Byte) (s : State) : Host.Outcome State Fault Refusal :=
  .next (s.answer 0 (if part.toNat < Config.meterCertParts then (List.range 256).map fun i => Config.meterCert (256 * part.toNat + i) else []))

/-- EVONISUM_FRAME_TIMEOUT: an incomplete or bad frame is discarded (R441). -/
def execEvonisumFrameTimeout (s : State) : Host.Outcome State Fault Refusal := .next (s.bb 0x2050 none 0xFF 0)

/-- DYNAMIC_ADDRESS_ASSIGNMENT: SETDASA or ENTDAA gives the port a dynamic address (R441). -/
def execDynamicAddressAssignment (addr : BitVec 7) (s : State) : Host.Outcome State Fault Refusal :=
  .next { s with meter := { s.meter with addr := some addr } }

/-! ## METER_READ (R408, R443) -/

/-- METER_READ: the bucket at the last closed entry that the mirrors show; a read that meets their change repeats until it is done. -/
def execMeterRead (ring : Ring) (s : State) : Host.Outcome State Fault Refusal :=
  let s := if 1600 ≤ s.cycle then s.passTo 1616 else s
  .next (s.ringCommand ring
    { op := 0x02, fn := fun _ => true
      owner := fun j => match j.pid? with | some p => decide (fld (j.arg 0) 4 0 ≠ p.val) | none => false
      bad := fun _ j => j.firstBad [0x1F] [(decide (18 < fld (j.arg 0) 4 0), 24)]
      usesBuf := false
      work := fun s j => s.complete j scSuccess (s.rg (.mtrLedger (Fin.ofNat 19 (fld (j.arg 0) 4 0)))).toNat
        (fld (s.rg .mtrLedgerTick) 47 0) })

end Sys2Proof.Machine
end

