-- ==== Sys2Proof/Machine/Counters.lean ====
section
/-! DEFINITION. Counter dumps, the dump engine, and instruction sampling (R32, R514–R522). -/

namespace Sys2Proof.Machine

/-! ## CTR_DUMP_CFG (R516, R517) -/

/-- The sections that a selection names: the size of each in bytes, for `c` core entries (R517). -/
def dumpBytes (sel c : Nat) : Nat :=
  64 + (if sel % 2 = 1 then (80 * c + 63) / 64 * 64 else 0) + (if sel / 2 % 2 = 1 then 2048 else 0) + (if sel / 4 % 2 = 1 then 1152 else 0) +
  (if sel / 8 % 2 = 1 then 2304 else 0) + (if sel / 16 % 2 = 1 then 512 else 0)

/-- The clusters of a partition, and its cores in ascending order. -/
def State.partCores (s : State) (p : Pid) : List CoreId :=
  ((List.range 216).map fun k => Fin.ofNat 216 k).filter fun k => s.ownsCore p k

/-- The engine's configuration of a descriptor; T₀ is set when it takes effect. -/
def State.dumpOf (s : State) (p : Pid) (j : Job) : Dump :=
  let c := (s.partCores p).length
  { base := (j.arg 0).toNat, log2 := fld (j.arg 1) 4 0, n := fld (j.arg 1) 31 8, sel := fld (j.arg 2) 4 0, cores := c,
    reclen := dumpBytes (fld (j.arg 2) 4 0) c, t0 := 0, inner := s.jobInner j, last := none, gen := none }

/-- The ring lies wholly in granules that the partition owns, on its world's side of INNER_WM (R516). -/
def State.dumpRingOk (s : State) (p : Pid) (d : Dump) : Bool :=
  let stop := d.base + 2 ^ d.log2 * d.reclen
  let grans := (List.range ((stop - 1) / 2 ^ 30 + 1 - d.base / 2 ^ 30)).map fun i => d.base / 2 ^ 30 + i
  (if d.inner then decide (stop ≤ s.innerWm p) else decide (s.innerWm p ≤ d.base)) && decide (stop ≤ 2 ^ 48) &&
  grans.all fun g => (s.gmapPpa (s.bank 2) p g).isSome

/-- The first bad field of a CTR_DUMP_CFG; the owner ring names no partition (R408, R516). -/
def State.dumpBad (s : State) (j : Job) : Option Nat :=
  let run := bit (j.arg 1) 32
  j.firstBad [2 ^ 64 - 64, 0x1FFFFFF1F, 0x1F]
    [(j.pid?.isNone, 24),
     (run && (match j.pid? with | some p => !(s.dumpRingOk p (s.dumpOf p j)) | none => false), 24),
     (decide (fld (j.arg 1) 4 0 < 4 ∨ 16 < fld (j.arg 1) 4 0), 32), (run && fld (j.arg 1) 31 8 == 0, 33), (run && fld (j.arg 2) 4 0 == 0, 40)]

/-- CTR_DUMP_CFG: an accepted configuration waits for the next boundary, with the number of core entries of now (R516, R517). -/
def execCtrDumpCfg (ring : Ring) (s : State) : Host.Outcome State Fault Refusal :=
  .next (s.ringCommand ring {
    op := 0x03, fn := fun _ => true, owner := forAll, bad := State.dumpBad, usesBuf := false,
    work := fun s j => match j.pid? with | some p => s.keepJob j 1 [(s.partCores p).length] | none => s.badField j 24 })

/-! ## Latching (R32, R515–R519) -/

/-- HELD: latched snapshots not yet written. -/
def State.dumpHeld (s : State) (p : Pid) : State :=
  let q : List Snap := s.snaps.get [] p.val
  s.rfSet (.ctrStatus p) 9 8 (q.filter fun x => !x.missed).length

/-- The engine stops and discards what it holds (R519). -/
def State.dumpStop (s : State) (p : Pid) : State :=
  (({ s with dumps := s.dumps.set none p.val none, snaps := s.snaps.set [] p.val [] }).rfSet (.ctrStatus p) 0 0 0).dumpHeld p

/-- A configuration takes effect at the tick that begins: T₀, SEQ 0 (R516). -/
def State.dumpApply (s : State) (p : Pid) (j : Job) : State :=
  let d := s.dumpOf p j
  let c := j.aux.headD 0
  let s := if bit (j.arg 1) 32 then
      (({ s with dumps := s.dumps.set none p.val (some { d with t0 := s.tick, cores := c, reclen := dumpBytes d.sel c }) }).rfSet
        (.ctrStatus p) 0 0 1).rfSet (.ctrStatus p) 63 32 0
    else ({ s with dumps := s.dumps.set none p.val none }).rfSet (.ctrStatus p) 0 0 0
  s.complete j scSuccess 0 0

/-- A core's registers as a dump shows them: from its save slot in CS3 (R515). -/
def State.dumpSys (s : State) (k : CoreId) (n : Nat) : Word :=
  match (s.saves.get none k.val : Option SaveSlot) with
  | some x => if (s.core k).cs.val = 3 then x.sys.get 0 n else (s.core k).rsys n
  | none => (s.core k).rsys n

/-- A core entry of 80 bytes. INFLIGHT is occupancy that this model does not hold, at most 640: a free value (R517). -/
def State.coreEntry (s : State) (k : CoreId) : List Byte × State :=
  let c := s.core k
  let (fl, s) := s.draw
  let s := s.look k
  let off := decide (2 ≤ c.cs.val) || s.rf (.pwrStatus (clusterDom (clusterOf k))) 1 0 == 3
  let gated := c.inner && !(s.nonInvasive (s.pidOf k) true)
  (natBytes (k.val + b2n off * 2 ^ 8 + b2n c.halted * 2 ^ 9 + b2n gated * 2 ^ 10 + fl.toNat % 641 * 2 ^ 16) 8 ++ natBytes (s.dumpSys k Srn.cycle).toNat 8 ++
    (List.range 8).flatMap fun i => natBytes (s.dumpSys k (Srn.pmc0 + i)).toNat 8, s)

/-- The core section: `c` entries, zero where fewer cores are owned, padded to whole lines. -/
def State.coreSection (s : State) (p : Pid) (c : Nat) : List Byte × State :=
  let (bs, s) : List Byte × State := ((s.partCores p).take c).foldl (fun (a : List Byte × State) k => let (e, s) := a.2.coreEntry k; (a.1 ++ e, s)) ([], s)
  (bs ++ List.replicate ((80 * c + 63) / 64 * 64 - bs.length) 0, s)

/-- A section of port entries. -/
def State.portSection (s : State) (p : Pid) (kind n : Nat) : List Byte :=
  (List.range n).flatMap fun e =>
    let k := ((16 * kind + p.val) * 256 + e) * 2
    natBytes (s.ctrs.get 0 k) 8 ++ natBytes (s.ctrs.get 0 (k + 1)) 8

/-- The body of a record, in the order CORES, HBM, CHORD, NET, PCIE. -/
def State.dumpBody (s : State) (p : Pid) (d : Dump) : List Byte × State :=
  let (cs, s) : List Byte × State := if d.sel % 2 = 1 then s.coreSection p d.cores else ([], s)
  (cs ++ (if d.sel / 2 % 2 = 1 then s.portSection p 0 128 else []) ++ (if d.sel / 4 % 2 = 1 then s.portSection p 1 72 else []) ++
    (if d.sel / 8 % 2 = 1 then s.portSection p 2 144 else []) ++ (if d.sel / 16 % 2 = 1 then s.portSection p 3 32 else []), s)

/-- A dump tick: a snapshot is latched unless two are held, which gives a record without values and event 0x8011 (R32, R515). -/
def State.dumpLatch (s : State) (p : Pid) (d : Dump) : State :=
  let q : List Snap := s.snaps.get [] p.val
  let gen := s.rf (.pscPartStatus p) 31 28
  let x : Snap := { cfg := d, seq := (s.tick - d.t0) / d.n % 2 ^ 32, tick := s.tick, gen := gen, trunc := decide (d.cores < (s.partCores p).length),
                    layout := (match d.gen with | some g => g != gen | none => false), missed := false, late := false, stage := 0, body := [] }
  let s := { s with dumps := s.dumps.set none p.val (some { d with gen := some gen }) }
  if 2 ≤ (q.filter fun y => !y.missed).length then
    ({ s with snaps := s.snaps.set [] p.val (q ++ [{ x with missed := true }]) }).bb 0x8011 (some p) (0x40 + p.val) 0
  else
    let (body, s) := s.dumpBody p d
    ({ s with snaps := s.snaps.set [] p.val (q ++ [{ x with body := body }]) }).dumpHeld p

/-- The end of a tick: a snapshot of this tick that is not written overran (R32). -/
def State.dumpOverrun (s : State) (p : Pid) : State :=
  let q : List Snap := s.snaps.get [] p.val
  if q.any fun (x : Snap) => x.tick == s.tick && !x.missed && !x.late then
    ((({ s with snaps := s.snaps.set [] p.val (q.map fun (x : Snap) => if x.tick = s.tick ∧ !x.missed then ({ x with late := true } : Snap) else x) }).rfSet
      .locTickOvr (16 + p.val) (16 + p.val) 1)).bb 0x8010 (some p) (0x40 + p.val) 0
  else s

/-- The start of a tick for a dump engine: it stops for a partition that is DOWN, takes a new configuration, and latches (R515, R516,
R519). -/
def State.dumpTick (s : State) (p : Pid) : State :=
  let s := if s.partState p == 5 && ((s.dumps.get none p.val : Option Dump).isSome || !(s.snaps.get [] p.val : List Snap).isEmpty) then
      (s.dumpStop p).rfSet (.ctrStatus p) 3 3 1 else s
  let s : State := ((s.ringJobs (.part p)).filter fun j => j.opcode == 0x03 && j.phase == 1).foldl (fun s j => s.dumpApply p j) s
  match (s.dumps.get none p.val : Option Dump) with
  | some d => if (s.tick - d.t0) % d.n = 0 then s.dumpLatch p d else s
  | none => s

/-! ## Writing records (R517–R519) -/

/-- The header of a record. -/
def Snap.header (x : Snap) (seq : Nat) : List Byte :=
  let st := if x.missed then 2 else b2n x.late
  natBytes (seq + st * 2 ^ 32 + b2n x.trunc * 2 ^ 40 + b2n x.layout * 2 ^ 41 + x.gen * 2 ^ 48 + 2 ^ 56) 8 ++ natBytes x.tick 8 ++
  natBytes (x.cfg.sel + x.cfg.n * 2 ^ 8) 8 ++ natBytes (x.cfg.cores + x.cfg.reclen / 64 * 2 ^ 16) 8 ++ List.replicate 32 0

/-- DUMP_RECORD_WRITE: the next stage of the oldest record: the header without its number, the body, the header with it. A stage whose
lines are in transactions waits for them, so that its CMPs have come before the next one (R237, R518). A refused write stops the engine
with event 0x8020 (R519). -/
def execDumpRecordWrite (p : Pid) (s : State) : Host.Outcome State Fault Refusal :=
  .next (match (s.snaps.get [] p.val : List Snap) with
  | [] => s
  | x :: rest =>
    if s.partState p = 5 then s else
    let at_ := x.cfg.base + x.seq % 2 ^ x.cfg.log2 * x.cfg.reclen
    let stage := if x.stage = 1 ∧ (x.missed ∨ x.body = []) then 2 else x.stage
    let (ppa, bs) := match stage with
      | 0 => (at_, x.header 0xFFFFFFFF)
      | 1 => (at_ + 64, x.body)
      | _ => (at_, x.header x.seq)
    if !(s.linesOk p x.cfg.inner ppa (bs.length / 64)) || s.refused.contains p then
      ((s.rfSet (.ctrStatus p) 1 1 1).dumpStop p).bbCoal 0x8020 p (0x40 + p.val) (ppa / 4096)
    else if s.linesBusy p x.cfg.inner ppa ((bs.length + 63) / 64) then s
    else
      let s := (s.writeBytes p x.cfg.inner ppa bs (bs.length / 64 + 1)).activity 1 false p (bs.length / 64)
      if stage < 2 then { s with snaps := s.snaps.set [] p.val ({ x with stage := stage + 1 } :: rest) }
      else
        let s := ({ s with snaps := s.snaps.set [] p.val rest }).dumpHeld p
        match (s.dumps.get none p.val : Option Dump) with
        | some d =>
          if d.t0 = x.cfg.t0 then
            ({ s with dumps := s.dumps.set none p.val (some { d with last := some x.seq }) }).rfSet (.ctrStatus p) 63 32 (x.seq + 1)
          else s
        | none => s)

/-- DUMP_SEQ_AUDIT: the next number is the last one written plus 1; otherwise UCR, event 0x8012, and the engine stops (R481, R519). -/
def execDumpSeqAudit (p : Pid) (s : State) : Host.Outcome State Fault Refusal :=
  .next (match (s.dumps.get none p.val : Option Dump) with
  | none => s
  | some d =>
    let want := match d.last with | some n => (n + 1) % 2 ^ 32 | none => 0
    if s.rf (.ctrStatus p) 63 32 = want then s
    else (((s.rfSet (.ctrStatus p) 2 2 1).dumpStop p).bb 0x8012 (some p) (0x40 + p.val) 0).rasPush p 0x8012 false 0 0xFFFF)

/-! ## Sampling (R520–R522) -/

/-- SAMPLE_TAG: the countdown has reached 0 and reloads with a value from 1 to 2 × MEAN − 1, which the generator, not given, leaves
free; the instruction allocated is tagged unless one is in flight (R520). -/
def execSampleTag (k : CoreId) (pc : Word) (va : Word) (enc : BitVec 32) (s : State) : Host.Outcome State Fault Refusal :=
  .next (if !(s.runs k) || !(s.sampling k) then s else
    let (v, s) := s.draw
    let c := s.core k
    let ctl := c.rsys Srn.smplCtl
    let mean := max 16 (fld ctl 31 8)
    let c := { c with smplCount := 1 + v.toNat % (2 * mean - 1) }
    match c.tagged with
    | some _ => s.setCore k (c.wsys Srn.smplCtl (setFld ctl 63 32 (satAdd (2 ^ 32 - 1) (fld ctl 63 32) 1)))
    | none => s.setCore k { c with tagged := some { pc := pc, va := va, enc := enc } })

/-- Outer-world writes to an inner ring are ignored with event 0x8043 (R522). -/
def State.smplDenied (s : State) (g : ClusterId) (w : World) : Bool := s.rb (.cluSmplCtl g) 6 && w == .outer

/-- A write to CLU_SMPL_CTL: another LOG2 than 4–16 drops it; setting EN starts the ring anew (R522). -/
def State.smplCtlWrite (s : State) (g : ClusterId) (w : World) (v : Word) : State :=
  if s.smplDenied g w then s.bb 0x8043 (s.owner g) 0xFF 0
  else if fld v 5 1 < 4 ∨ 16 < fld v 5 1 then s
  else
    let was := s.rb (.cluSmplCtl g) 0
    let s := s.rgWrite (.cluSmplCtl g) false v
    if bit v 0 && !was then ((s.rfSet (.cluSmplCtl g) 6 6 (b2n (w == .inner))).rgReset (.cluSmplHead g)).rgReset (.cluSmplPos g) else s

/-- SAMPLE_RING_ENABLE (R522). -/
def execSampleRingEnable (g : ClusterId) (w : World) (v : Word) (s : State) : Host.Outcome State Fault Refusal :=
  .next (if bit v 0 then s.smplCtlWrite g w v else s)

/-- SAMPLE_RING_WRITE: the oldest buffered record goes to the ring, and TAIL advances; a refused write clears EN and sets FAULT; a ring
that becomes half full raises INTID (R522). -/
def execSampleRingWrite (g : ClusterId) (s : State) : Host.Outcome State Fault Refusal :=
  let ctl : Reg := .cluSmplCtl g
  .next (match (s.smplBuf.get [] g.val : List Line), s.owner g with
  | r :: rest, some p =>
    let n := 2 ^ s.rf ctl 5 1
    let tail := s.rf (.cluSmplPos g) 15 0
    let head := s.rf (.cluSmplHead g) 15 0
    if !(s.rb ctl 0) || (tail + 1) % n == head then s else
    let ppa := s.rf (.cluSmplBase g) 47 6 * 64 + 64 * tail
    let inner := s.rb ctl 6
    if s.linesBusy p inner ppa 1 then s else
    let s := { s with smplBuf := s.smplBuf.set [] g.val rest }
    if !(s.linesOk p inner ppa 1) || s.refused.contains p then
      ((s.rfSet ctl 0 0 0).rfSet ctl 7 7 1).bbCoal 0x8020 p (0x40 + p.val) (ppa / 4096)
    else
      let s := (s.writeLine p inner ppa r (BitVec.allOnes 64)).rfSet (.cluSmplPos g) 15 0 ((tail + 1) % n)
      if s.rb ctl 19 && (tail + 1 + n - head) % n == n / 2 && decide (16 ≤ s.rf ctl 18 8) then s.raiseInt p (s.rf ctl 18 8) else s
  | _, _ => s)

end Sys2Proof.Machine
end

