-- ==== Sys2Proof/Machine/Reset.lean ====
section
/-! DEFINITION. The resets: the drains that precede them, core, partition, Facet, warm and cold reset, and the events of the supplies
that start one (R219, R412, R470, R491–R495, R529–R533, R538). -/

namespace Sys2Proof.Machine

/-! ## What a reset covers (R491, R492) -/

/-- The cores that a reset covers. -/
def State.rstCores (s : State) (r : Rst) : List CoreId :=
  match r.kind with
  | 0 => [Fin.ofNat 216 r.id]
  | 1 => s.coresOfPart (Fin.ofNat 16 r.id)
  | 2 => (List.range 216).map fun k => Fin.ofNat 216 k
  | _ => (List.range 18).map fun i => Fin.ofNat 216 (18 * r.id + i)

/-- The clusters that a reset covers. -/
def State.rstClusters (s : State) (r : Rst) : List ClusterId :=
  match r.kind with
  | 0 => []
  | 1 => (s.clustersOf (Fin.ofNat 16 r.id)).map fun g => Fin.ofNat 36 g
  | 2 => (List.range 36).map fun g => Fin.ofNat 36 g
  | _ => (List.range 3).map fun i => Fin.ofNat 36 (3 * r.id + i)

/-! ## The drains (R219, R492) -/

/-- Take the store queue of a core as far as it goes. -/
def State.drainStores : Nat → State → CoreId → State
  | 0, s, _ => s
  | n + 1, s, k =>
    let s' := s.storeDrain k
    if (s'.core k).sq.length < (s.core k).sq.length then State.drainStores n s' k else s'

/-- Issue every device store of a core. -/
def State.issueDevs : Nat → State → CoreId → State
  | 0, s, _ => s
  | n + 1, s, k => if (s.core k).dq.all (·.issued) then s else State.issueDevs n (s.deviceIssue k) k

/-- Both queues of a core are empty. -/
def State.coreDrained (s : State) (k : CoreId) : Bool := (s.core k).sq.isEmpty && (s.core k).dq.isEmpty

/-- The stores that have not drained are discarded with event 0x7040, the number and the page of the first, and a UCR record (R219). -/
def State.discardStores (s : State) (k : CoreId) : State :=
  let c := s.core k
  let p := s.pidOf k
  let n := c.sq.length + c.dq.length
  let ppa := match c.sq, c.dq with | e :: _, _ => e.ppa | [], e :: _ => e.ppa | [], [] => 0
  if n = 0 then s
  else ((s.setCore k { c with sq := [], dq := [] }).bb 0x7040 (some p) k.val (min 255 n + ppa / 4096 * 2 ^ 8)).rasPush p 0x7040 false ppa k.val

/-- A core stops for a reset. Where the homes refuse its partition already, its stores are discarded (R219). -/
def State.holdCore (s : State) (k : CoreId) : State :=
  let s := s.raExit k
  let c := s.core k
  let lost := s.refused.contains (s.pidOf k).val
  s.setCore k { c with held := true, wfi := false, wait := none, sq := if lost then [] else c.sq, dq := if lost then [] else c.dq }

/-- The L2 begins to drain (R256, R492). -/
def State.l2Stop (s : State) (g : ClusterId) : State :=
  (((s.rfSet (.cluL2Ctl g) 0 0 0).rfSet (.cluL2Ctl g) 2 1 1).clearResv fun k _ => k / 6 == g.val).settleSnoops

/-- A dirty line is left in an L2. -/
def State.l2Dirty (s : State) (g : ClusterId) : Bool :=
  (s.l2Lines g).any fun ln => match s.copy ln g with | some c => c.st == .m || c.st == .o || c.st == .upa || c.st == .evp | none => false

/-- Lines still dirty are lost with event 0x7040 and a UCR record for their partition (R492). -/
def State.linesLost (s : State) (g : ClusterId) : State :=
  match s.owner g with
  | some p => if s.l2Dirty g && !(s.refused.contains p.val) then (s.bb 0x7040 (some p) g.val 0).rasPush p 0x7040 false 0 0xFFFF else s
  | none => s

/-! ## The ends of the resets -/

/-- A core reset started alone: HALT_ON_RESET is kept (R491, R495). A core that was running starts again under PSC_START_CTL; one that
was held or had no power stays held. -/
def State.coreResetDone (s : State) (k : CoreId) (stay : Bool) : State :=
  let hor := s.rf (.coreDbgCtl k) 4 4
  let s := (s.resetCore k).rfSet (.coreDbgCtl k) 4 4 hor
  if stay then s else s.startAt k

/-- The end of a partition reset: the steps of R262, then the units of R491; the RAS queue, the quota, the owner's grants and the
watermark are kept (R491, R538). -/
def State.partResetDone (s : State) (p : Pid) (hold : Bool) : State :=
  let s := (s.homesRefuse p).pidWalk p
  let doms := s.domsOf p
  let ports := s.portsOf p
  let s := (s.clustersOf p).foldl (fun (s : State) g => s.resetCluster (Fin.ofNat 36 g)) s
  let s := s.resetBlocks p
  let s := doms.foldl (fun (s : State) d => s.rgReset (.pwrCtl d)) s
  let s := ports.foldl (fun (s : State) i => (((s.portDown i 0).setPortSt i PortSt.idle).rgReset (portStatusReg i)).rgReset (.pwrStatus (portDom i))) s
  let s := (((s.rfSet (.pscDbgCtl p) 6 2 0).rfSet (.pscRasCtl p) 11 0 0).rgReset (.pscWakeCause p)).refreq
  { s with refused := s.refused.erase p.val,
           psc := { s.psc with onHold := if hold then insertNat p.val s.psc.onHold else s.psc.onHold.erase p.val } }

/-- The end of a Facet reset: its clusters, its registers and both ends of its strands (R491). -/
def State.facetResetDone (s : State) (f : FacetId) : State :=
  let s := (List.range 3).foldl (fun (s : State) i => s.resetCluster (Fin.ofNat 36 (3 * f.val + i))) s
  let s := ((s.setFacet f Facet.empty).clearRange (0x01400000 + 0x10000 * f.val) 0x10000).clearRange (0x01500000 + 0x10000 * f.val) 0x10000
  let s : State := (List.range 6).foldl (fun (s : State) i => s.setStrand f (Fin.ofNat 6 i) Strand.empty) s
  ((s.chordClear f).setRemap f).setPwr (facetDom f) 0 false false

/-- Every dirty line of the L3 and of the merge buffers goes to memory (R492). -/
def State.l3Flush (s : State) : State := s.lines.foldl (fun s e => (s.mbDrain e.1).l3Clean e.1) s

/-- The registers that every package reset keeps: the Meter's mirrors, LOC_FATAL_CAUSE, LOC_RAIL_STATUS, the lane maps and the black
box's (R470, R477, R491, R533). -/
def keptReg (a : Nat) : Bool :=
  decide (0x0B000000 ≤ a ∧ a < 0x0C000000) || a == 0x0C000040 || a == 0x0C000048 || decide (0x0C001000 ≤ a ∧ a < 0x0E000000)

/-- The registers that a warm reset keeps besides: the tick number, the time offset, and the placement of the HBM contents (R491). -/
def keptWarm (a : Nat) : Bool :=
  keptReg a || a == 0x0C000000 || a == 0x0C000008 ||
  (decide (0x04000000 ≤ a ∧ a < 0x05000000) &&
    (match Reg.ofAddr a with | some (.hbmLpcA _ _) => true | some (.hbmLpcB _ _) => true | some (.hbmRemap _ _ _ _) => true | some (.hbmMig _) => true | _ => false))

/-- The granules of a resize in progress, which are in transit (R495). -/
def State.inTransit (s : State) : List Nat :=
  s.psc.resizes.foldl (fun l r => r.grans.foldl (fun l g => insertNat g.2.2 l) l) s.psc.transit

/-- What the PSC finds again in fuses, SPI NOR and the Locus (R54, R470, R495, R499, R502). -/
def State.keptPsc (s : State) : Psc :=
  { Psc.reset with
    svn := s.psc.svn, stored := s.psc.stored, storedBif := s.psc.storedBif, storedCxl := s.psc.storedCxl, lcReq := s.psc.lcReq,
    transit := s.inTransit, layGen := s.rf .mtrStatus 31 24, bootAt := 0 }

/-- The package after a cold reset or, at its end, a warm one: reset, but for what R491 and R470 keep. Memory keeps its contents until
the boot wipes it; the TAPs are not part of it (R504). -/
def State.packageReset (s : State) (keep : Nat → Bool) : State :=
  let lc := s.rf .pscBootStatus 7 5
  let z : State := { State.reset with
    pending := s.pending, free := s.free, reply := s.reply, mem := s.mem,
    lines := s.lines.mapVals LineSt.empty fun _ l => { LineSt.empty with mpois := l.mpois },
    regs := s.regs.filter fun e => keep e.1, bbx := s.bbx, meter := s.meter, wakeO := s.wakeO, wakeI := s.wakeI, wakeAb := s.wakeAb,
    psc := s.keptPsc, taps := s.taps, pwr := { Pwr.reset with low := s.pwr.low } }
  z.rfSet .pscBootStatus 7 5 lc

/-- A cold reset (R491): the tick number restarts at 0 and the Meter records the gap (R38, R446); a STOPPED black box takes records
again (R489). -/
def State.coldReset (s : State) (pwrok : Bool) : State :=
  let was := s.tick
  let z := (s.packageReset keptReg).epochRestart was
  { z.rfSet .bbxStatus 13 13 0 with bbx := { z.bbx with left := 0, wrote := 0, lostTick := 0 }, pwr := { z.pwr with low := z.pwr.low || pwrok } }

/-- The owner of each granule as PID + 1. -/
def State.granuleOwners (s : State) : Tbl Nat := (s.gmapList (s.bank 2)).foldl (fun t e => t.set 0 (entDa e.2) (entPid e.2 + 1)) []

/-- What a stack still has to do after a warm reset: the retirements that wait, and the count of a migration in progress; its placement
registers are kept with its contents (R491). -/
def StackSt.kept (k : StackSt) : StackSt :=
  { StackSt.empty with
    moved := k.moved, retire := match k.staged with | some (n, _, false) => n :: k.retire | _ => k.retire }

/-- A warm reset takes effect; both banks then hold the placement that was in force (R491–R493). -/
def State.warmResetDone (s : State) : State :=
  let s := s.l3Flush
  let own := s.granuleOwners
  let ret := (List.range 256).filter fun i => s.rb (pcErr (Fin.ofNat 256 i)) 45
  let x := s.syncGmap
  let z := x.packageReset keptWarm
  let z : State := ret.foldl (fun z i => z.rfSet (pcErr (Fin.ofNat 256 i)) 45 45 1) z
  let z := z.rfSet .pscBootStatus 16 16 1
  { z with hbm := { z.hbm with withdrawn := s.hbm.withdrawn, stk := s.hbm.stk.mapVals StackSt.empty fun _ k => k.kept }, psc := { z.psc with warmOwn := own, bootAt := s.tick, beat := s.tick } }

/-! ## Resets in progress -/

def State.setRst (s : State) (r : Rst) : State :=
  { s with psc := { s.psc with resets := s.psc.resets.map fun x => if x.kind = r.kind ∧ x.id = r.id then r else x } }
def State.dropRst (s : State) (r : Rst) : State :=
  { s with psc := { s.psc with resets := s.psc.resets.filter fun x => !(x.kind == r.kind && x.id == r.id) } }

/-- A reset whose drains are over. -/
def State.rstDone (s : State) (r : Rst) : State :=
  let s := s.dropRst r
  match r.kind with
  | 0 => s.coreResetDone (Fin.ofNat 216 r.id) r.hold
  | 1 => s.partResetDone (Fin.ofNat 16 r.id) r.hold
  | 2 => s.warmResetDone
  | _ => s.facetResetDone (Fin.ofNat 12 r.id)

/-- The second drain: the L2s, for at most 1,000 ticks (R492). -/
def State.rstL2 (s : State) (r : Rst) : State :=
  let gs := s.rstClusters r
  let s := gs.foldl (fun s g => s.drainL2 g) s
  if gs.all (fun g => (s.l2Lines g).isEmpty) then s.rstDone r
  else if s.expired r.since 1000 then (gs.foldl State.linesLost s).rstDone r
  else s

/-- The first drain: the store queues, for at most 64 ticks (R219). -/
def State.rstStores (s : State) (r : Rst) : State :=
  let ks := s.rstCores r
  let s := ks.foldl (fun s k => State.issueDevs 16 (State.drainStores 128 s k) k) s
  if !(ks.all s.coreDrained) && !(s.expired r.since 64) then s
  else
    let s := ks.foldl State.discardStores s
    let r := { r with stage := 2, since := s.tick }
    (((s.rstClusters r).foldl State.l2Stop s).setRst r).rstL2 r

/-- Every descriptor of the owner ring in hand ends ABORTED (R493). -/
def State.ownerAbort (s : State) : State := s.abortJobs .owner fun _ => true

/-- Completions that the BMC has not read are recorded with event 0x9013 (R493). -/
def State.ownerUnread (s : State) : State :=
  let s : State := s.psc.ownerOut.foldl (fun s c => s.bb 0x9013 none 0x10 (c.tag + c.status * 2 ^ 16)) s
  { s with psc := { s.psc with ownerOut := [] } }

/-- Carry a reset on. A warm reset waits first for the BMC, then for the partition rings (R412, R493); a partition reset whose partition
goes down meanwhile is left to the recovery of R476. -/
def State.rstStep (s : State) (r : Rst) : State :=
  if r.kind = 1 ∧ s.partState (Fin.ofNat 16 r.id) = 5 then s.dropRst r
  else match r.stage with
    | 3 =>
      if !s.psc.ownerOut.isEmpty && !(s.expired r.since 1000) then s
      else
        let s := s.ownerAbort.ownerUnread
        let s := { s with psc := { s.psc with transit := s.inTransit, resizes := [] } }
        let s : State := (List.range 16).foldl (fun (s : State) p => s.ringsEnd (Fin.ofNat 16 p) true) s
        s.setRst { r with stage := 4, since := s.tick }
    | 4 =>
      if s.psc.jobs.any fun j => j.ring != .owner then s
      else
        let r := { r with stage := 1, since := s.tick }
        (((s.rstCores r).foldl State.holdCore s).setRst r).rstStores r
    | 1 => s.rstStores r
    | _ => s.rstL2 r

/-- Every reset in progress goes as far as it can. -/
def State.resetsGo (s : State) : State :=
  s.psc.resets.foldl (fun s r => match s.psc.resets.find? fun x => x.kind == r.kind && x.id == r.id with
    | some r => s.rstStep r
    | none => s) s

/-- A reset begins with its cores held. -/
def State.rstBegin (s : State) (kind id : Nat) (hold : Bool) : State :=
  let r : Rst := { kind := kind, id := id, hold := hold, stage := 1, since := s.tick }
  let s := (s.rstCores r).foldl State.holdCore s
  ({ s with psc := { s.psc with resets := s.psc.resets ++ [r] } }).rstStores r

/-- A reset of this kind is in progress. -/
def State.rstRuns (s : State) (kind id : Nat) : Bool := s.psc.resets.any fun r => r.kind == kind && r.id == id

/-! ## Core reset (R495, R505) -/

/-- The debug instrument's core reset. -/
def State.coreReset (s : State) (k : CoreId) : State :=
  let c := s.core k
  if !(s.ownsCore (s.pidOf k) k) || !(s.invasive (s.pidOf k) c.inner) || s.fatal || s.rstRuns 0 k.val || s.rstRuns 1 (s.pidOf k).val || s.rstRuns 2 0 then s
  else s.rstBegin 0 k.val (c.held || c.cs == 3)

/-- CORE_RESET: only while invasive debug is enabled for the core's world (R505). -/
def execCoreReset (k : CoreId) (s : State) : Host.Outcome State Fault Refusal := .next (s.coreReset k)

/-! ## PART_RESET (R412, R495, R538) -/

def Job.resetPid (j : Job) : Pid := Fin.ofNat 16 (fld (j.arg 0) 3 0)

/-- The wake-pending entries of a core are dropped. -/
def State.wakeDrop (s : State) (k : CoreId) : State :=
  { s with wakeO := s.wakeO.set [] k.val [], wakeI := s.wakeI.set [] k.val [], wakeAb := s.wakeAb.set none k.val none }

/-- The reset of a partition begins: STATE reads BUILDING, and a parked partition loses its wake schedule and entries (R495, R538). -/
def State.partResetBegin (s : State) (p : Pid) (hold : Bool) : State :=
  let s : State := if s.parking p then (s.coresOfPart p).foldl State.wakeDrop s else s
  let s := s.setPartState p 1
  let s := { s with psc := { s.psc with parks := s.psc.parks.set none p.val none, release := s.psc.release.erase p.val } }
  s.rstBegin 1 p.val hold

/-- Once every other descriptor of the partition's ring has completed, the command's own completion is written, the ring page is reset
and the reset begins (R412). -/
def State.partResetRings (s : State) (j : Job) : State :=
  let p := j.resetPid
  if (s.ringJobs (.part p)).any fun x => x.id != j.id then s
  else ((s.complete j scSuccess 0 0).ringPageReset p).partResetBegin p (bit (j.arg 0) 8)

/-- A Facet of the partition is out of step or has no strand in UP (R495). -/
def State.facetsBad (s : State) (p : Pid) : Bool :=
  (s.clustersOf p).any fun g => s.inResync (Fin.ofNat 12 (g / 3)) || (s.upStrands (Fin.ofNat 12 (g / 3))).isEmpty

/-- PART_RESET's work: it is BUSY or waits behind a RESIZE or WIPE (R409, R495), then ends the partition's rings. -/
def State.partReset (s : State) (j : Job) : State :=
  let p := j.resetPid
  if s.partState p = 0 then s.badField j 24
  else if s.resizing p.val || s.resetting p.val then (if j.pid?.isSome then s.complete j scBusy 0 0 else s.keepJob j 1 [])
  else if s.facetsBad p then s.complete j scBusy 0 0
  else
    let j' := { j with phase := 2 }
    let s := s.setJob j'
    let held : List Compl := s.psc.held.get [] p.val
    let s := s.abortJobs (.part p) fun x => x.waits && x.phase == 0
    let s := { s with psc := { s.psc with ending := insertNat p.val s.psc.ending, held := s.psc.held.set [] p.val [] } }
    (held.foldl (fun s c => s.cqToBlackBox p c) s).partResetRings j'

/-- PART_RESETs that wait try again. -/
def State.partResetsGo (s : State) : State :=
  (s.psc.jobs.filter fun j => j.opcode == 0x05).foldl (fun s j =>
    if j.phase = 1 then s.partReset j else if j.phase = 2 then s.partResetRings j else s) s

/-- PART_RESET (R408, R538). -/
def execPartReset (ring : Ring) (s : State) : Host.Outcome State Fault Refusal :=
  .next (s.ringCommand ring {
    op := 0x05, fn := fun _ => true, owner := forAll,
    bad := fun s j => j.firstBad [0x10F] [
      ((match j.pid? with | some p => j.resetPid != p | none => false) || s.partState j.resetPid == 0, 24)],
    usesBuf := false, work := State.partReset })

/-! ## Facet resets (R326, R494) -/

/-- The partitions on the Facet are down and their clusters reset. -/
def State.facetDead (s : State) (f : FacetId) : Bool :=
  s.chord.lost.contains f.val && ((s.facetPids f).all fun p => s.partState (Fin.ofNat 16 p) == 5) &&
  (List.range 18).all fun i => (s.core (Fin.ofNat 216 (18 * f.val + i))).held

/-- Reset a Facet. -/
def State.facetReset (s : State) (f : FacetId) : State := if s.rstRuns 3 f.val then s else s.rstBegin 3 f.val false

/-- FACET_RESET: after a heartbeat loss that is contained, or in SERVICE (R494). -/
def execFacetReset (f : FacetId) (s : State) : Host.Outcome State Fault Refusal :=
  .next (if !s.fatal && (s.facetDead f || s.lifeCycle == 3) then s.facetReset f else s)

/-- ORDERLY_FACET_RESET: the Facet's clusters are unassigned and one of its strands is DISABLED. The PSC takes down every strand that is up,
and once all six are DOWN or DISABLED the Facet is reset, its uncore off meanwhile (R326, R462, R494). -/
def execOrderlyFacetReset (f : FacetId) (s : State) : Host.Outcome State Fault Refusal :=
  .next (if !s.fatal && (s.facetPids f).isEmpty && (List.range 6).any (fun i => s.stState f (Fin.ofNat 6 i) == 8) then
      let s : State := (List.range 6).foldl (fun (s : State) i =>
        if (s.strand f (Fin.ofNat 6 i)).closing.isSome then s else s.takeDown f (Fin.ofNat 6 i)) s
      if (List.range 6).all (fun i => s.stState f (Fin.ofNat 6 i) == 0 || s.stState f (Fin.ofNat 6 i) == 8)
      then (s.setPwr (facetDom f) 3 false true).facetReset f else s
    else s)

/-! ## Package resets (R491, R493) -/

/-- COLD_RESET (R491). -/
def execColdReset (cause : ColdCause) (s : State) : Host.Outcome State Fault Refusal := .next (s.coldReset (cause == .pwrok))

/-- WARM_RESET: ignored in FATAL; the owner's descriptors end first (R493). -/
def execWarmReset (s : State) : Host.Outcome State Fault Refusal :=
  .next (if s.fatal || s.rstRuns 2 0 then s
    else
      let r : Rst := { kind := 2, id := 0, hold := false, stage := 3, since := s.tick }
      let s := s.ownerAbort
      ({ s with psc := { s.psc with resets := s.psc.resets ++ [r] } }).rstStep r)

/-! ## Supplies (R470, R529–R533) -/

/-- MAIN_EN_RAISE: at tick 100 MAIN_EN goes high unless R533 holds it low (R529). -/
def execMainEnRaise (s : State) : Host.Outcome State Fault Refusal :=
  .next (if 100 ≤ s.tick && !(s.rb .locRailStatus 55) then s.rfSet .locRailStatus 56 56 1 else s)

/-- MAIN_EN_REARM: every sensor is 20 °C below its throttle limit and PKG_PWROK has been low (R533). -/
def execMainEnRearm (cool : Bool) (s : State) : Host.Outcome State Fault Refusal :=
  .next (if s.rb .locRailStatus 55 && cool && s.pwr.low then (s.rfSet .locRailStatus 55 55 0).rfSet .locRailStatus 56 56 1 else s)

/-- RAIL_LOSS (R532). -/
def execRailLoss (rail : Fin 23) (s : State) : Host.Outcome State Fault Refusal := .next ((s.rfSet .locRailStatus rail.val rail.val 1).coldReset false)

/-- RAIL_OVERVOLTAGE: MAIN_EN is driven low and held (R532, R533). -/
def execRailOvervoltage (rail : Fin 23) (s : State) : Host.Outcome State Fault Refusal :=
  let s := (s.rfSet .locRailStatus (32 + rail.val) (32 + rail.val) 1).rfSet .locRailStatus 56 55 1
  .next ({ s with pwr := { s.pwr with low := false } }.coldReset false)

/-- VDD_AON_LOSS: everything in the Locus is lost, and the return starts with a cold reset (R470, R530, R533). -/
def execVddAonLoss (s : State) : Host.Outcome State Fault Refusal :=
  let z := s.coldReset false
  let z := { z with regs := z.regs.filter fun e => e.1 < 0x0C000000, bbx := BlackBox.empty, wakeO := [], wakeI := [], wakeAb := [] }
  .next { z with psc := { z.psc with transit := [] }, pwr := Pwr.reset }

end Sys2Proof.Machine
end

