-- ==== Sys2Proof/Machine/Boot.lean ====
section
/-! DEFINITION. The boot of the package, step by step (R356, R384, R493, R496–R503). -/

namespace Sys2Proof.Machine

/-- PSC_BOOT_STATUS.STEP. -/
def State.bootStep (s : State) : Nat := s.rf .pscBootStatus 3 0

/-- A boot step begins. -/
def State.setBootStep (s : State) (n : Nat) : State :=
  let s := s.rfSet .pscBootStatus 3 0 n
  { s with psc := { s.psc with bootAt := s.tick } }

/-- This boot followed a warm reset. -/
def State.warmBoot (s : State) : Bool := s.rb .pscBootStatus 16

/-- The step is in progress; a package in FATAL does not go on, and in a warm reset that still runs nothing boots. -/
def State.inBoot (s : State) (n : Nat) : Bool := s.bootStep == n && !s.fatal && !(s.rstRuns 2 0)

/-! ## Steps 1 and 2 -/

/-- BOOT_REFERENCE_CHECK: the reference is judged over the first 16 ticks, by when the hold of R524 is over too (R22, R496, R524). -/
def execBootReferenceCheck (ok : Bool) (s : State) : Host.Outcome State Fault Refusal :=
  .next (if !(s.inBoot 1) || decide (s.tick < s.psc.bootAt + 16) then s
    else if ok then (s.rfSet .locTickStatus 0 0 1).setBootStep 2
    else s.refLost)

/-- The ROM accepts an image (R499). -/
def fwAccepted (c : FwCopy) (fuse : Nat) : Bool := c.read && c.keyOk && c.sigOk && decide (fuse ≤ c.svn.toNat)

/-- The accepted copy runs, and the fuse counter is blown up to its security version (R499). -/
def State.firmwareRun (s : State) (copyB : Nat) (c : FwCopy) : State :=
  let s := (s.rfSet .pscBootStatus 4 4 copyB).rfSet .pscBootStatus 15 8 c.svn.toNat
  { s with psc := { s.psc with svn := max s.psc.svn c.svn.toNat } }.setBootStep 3

/-- FIRMWARE_AUTHENTICATION: copy A first, then copy B; without either, FATAL (R496, R499). -/
def execFirmwareAuthentication (a b : FwCopy) (s : State) : Host.Outcome State Fault Refusal :=
  .next (if !(s.inBoot 2) then s
    else if fwAccepted a s.psc.svn then s.firmwareRun 0 a
    else if fwAccepted b s.psc.svn then s.firmwareRun 1 b
    else s.bbFatal 0x1050 none 0 0)

/-! ## Step 3: the Chords (R42, R313, R496) -/

/-- A strand comes up with the lanes of its map, in a new epoch and with event 0x4020; the latency measured is a free value of at most
160 Net cycles. -/
def State.strandBootUp (s : State) (f : FacetId) (st : StrandId) : State :=
  let m := s.rg (laneReg f st)
  let wf := laneWidth (laneCount (m.extractLsb' 0 25))
  let wc := laneWidth (laneCount (m.extractLsb' 25 25))
  let (v, s) := s.draw
  let lat := v.toNat % 161
  let s := (s.rfSet (.chdStrandStatus f st) 5 4 wf).rfSet (.chdStrandStatus f st) 7 6 wc
  let s := (s.rfSet (.chdStrandStatus f st) 23 16 lat).rfSet (.chdStrandStatus f st) 26 26 (b2n (decide (48 < lat)))
  let s := (s.rfSet (.chdStrandStatus f st) 15 8 (s.rf (.chdStrandStatus f st) 15 8 + 1)).rfSet (.chdStrandStatus f st) 25 24 0
  let s := (s.setStState f st 7).setStrand f st { Strand.empty with since := s.tick, mark := s.tick, echo := s.tick }
  let (lanes, s) := s.draw
  s.bbChord 0x4020 none f (wf + wc * 2 ^ 4 + fld lanes 39 0 * 2 ^ 8)

/-- A strand trains at boot: it comes up, or fails three times and is DISABLED (R313, R314). -/
def State.strandBoot (s : State) (up : List Nat) (f : FacetId) (i : Nat) : State :=
  let st : StrandId := Fin.ofNat 6 i
  let m := s.rg (laneReg f st)
  if s.stState f st = 8 then s
  else if up.contains (6 * f.val + i) && laneWidth (laneCount (m.extractLsb' 0 25)) != 0 && laneWidth (laneCount (m.extractLsb' 25 25)) != 0 then
    s.strandBootUp f st
  else (((s.setStState f st 1).trainFail f st).trainFail f st).trainFail f st

/-- A Facet with a strand in UP is locked and its table copies are loaded; the clusters may be given to partitions (R42). -/
def State.facetBootUp (s : State) (f : FacetId) : State :=
  if (s.upStrands f).isEmpty then s else
  let x : Facet := { Facet.empty with
    inReset := false, runs := true, tick := s.tick, ofs := s.timeOfs, good := 4, seen := some s.tick, startAt := some s.psc.bootAt,
    trainAt := some s.tick, active := BitVec.ofNat 4 (s.rf .locSwapReq 15 12) }
  (((s.setFacet f x).rfSet (.fctTickStatus f) 3 1 0).rfSet (.fctTickStatus f) 0 0 1).bb 0x4012 none f.val 0

/-- One Facet's part of step 3. The events of the step spread over the step's ticks, so that the limit on records in one tick (R489)
does not meet them together. -/
def State.facetBoot (s : State) (up : List Nat) (f : FacetId) : State :=
  let s := { s with bbx := { s.bbx with wrote := 0 } }
  let s := s.resyncStart f
  let s := (List.range 6).foldl (fun s i => s.strandBoot up f i) s
  (s.setRemap f).facetBootUp f

/-- BOOT_CHORD_TRAINING: all strands train in parallel and every Facet comes into step; `up` names the strands, 6f + s, that train
(R496, step 3). The boot routes are in force from here (R278). -/
def execBootChordTraining (up : List Nat) (s : State) : Host.Outcome State Fault Refusal :=
  .next (if !(s.inBoot 3) then s else
    let s := { s with net := { s.net with routesOn := true } }
    ((List.range 12).foldl (fun s f => s.facetBoot up (Fin.ofNat 12 f)) s).setBootStep 4)

/-! ## Step 4: the stacks (R350, R352, R354, R356) -/

/-- A placement entry in both banks: nothing has been mapped yet. -/
def State.lpcBoth (s : State) (m k : Nat) (hi lo x : Nat) : State :=
  (s.rfSet (lpcReg false m k) hi lo x).rfSet (lpcReg true m k) hi lo x

/-- The loss of a stack stops the boot (R356). -/
def State.stackLost (s : State) (m : Nat) : State :=
  (s.rfSet (.hbmPhyStatus (Fin.ofNat 8 m)) 1 0 3).bbFatal 0x5023 none (hbmInst m 16) 0

/-- A physical pseudo-channel fails training: an unused spare is marked BAD, a carrier is placed on the spare or rescued. A warm boot,
which keeps memory, retires it with a migration instead. -/
def State.pcBootBad (s : State) (m phys : Nat) : State :=
  match (List.range 31).find? fun k => s.lpcPhys m k == phys && s.lpcMode m k == 0 with
  | none => if phys = s.sparePhys m && s.spareFree m then s.lpcBoth m 31 6 6 1 else s
  | some k =>
    if s.warmBoot then s.retirePc (pcOf m phys)
    else if s.spareFree m then
      ((s.lpcBoth m k 4 0 (s.sparePhys m)).lpcBoth m 31 5 5 1).rfSet (pcErr (pcOf m phys)) 45 45 1
    else if s.hasRescue m then s.stackLost m
    else (s.withdraw.lpcBoth m k 6 5 3).rfSet (pcErr (pcOf m phys)) 45 45 1

/-- One stack trains; of its failed channels, the one that holds the spare is dealt with first. -/
def State.stackBoot (s : State) (bad : List Nat) (m : Nat) : State :=
  let chans := (List.range 16).filter fun n => bad.contains (16 * m + n)
  let pcs := chans.flatMap fun n => [2 * n, 2 * n + 1]
  let spare := s.sparePhys m
  let order := pcs.filter (· == spare) ++ pcs.filter (· != spare)
  let s := order.foldl (fun s phys => if s.fatal then s else s.pcBootBad m phys) s
  if s.fatal then s else s.rfSet (.hbmPhyStatus (Fin.ofNat 8 m)) 1 0 2

/-- BOOT_HBM_TRAINING: `bad` are the channels, 16m + n, that fail a step; `ok` is false when a stack fails its first step (R356). -/
def execBootHbmTraining (bad : List Nat) (ok : Bool) (s : State) : Host.Outcome State Fault Refusal :=
  .next (if !(s.inBoot 4) then s
    else if !ok then s.bbFatal 0x5023 none 0 0
    else
      let s := (List.range 8).foldl (fun s m => if s.fatal then s else s.stackBoot bad m) s
      if s.fatal then s else s.setBootStep 5)

/-! ## Step 5: memory (R361, R384, R493, R495, R503) -/

/-- The black box is wiped (R490). -/
def State.bbxWipe (s : State) : State :=
  { (s.rgReset .bbxStatus).rgReset .bbxLost with bbx := BlackBox.empty }

/-- The requested life-cycle transition is applied: black box, owner region of the SPI NOR, fuse (R503). -/
def State.lifeCycleApply (s : State) : State :=
  match s.psc.lcReq with
  | none => s
  | some target =>
    let s := s.bbxWipe
    let s : State := if 3 ≤ target then { s with psc := { s.psc with stored := [], storedBif := [], storedCxl := [] } } else s
    let s := s.rfSet .pscBootStatus 7 5 target
    { s with psc := { s.psc with lcReq := none } }

/-- Every line and byte of memory is wiped; a warm boot wipes the granules that were in transit (R361, R495). -/
def State.bootWipe (s : State) : State :=
  let s := if s.warmBoot then s.wipeGranules fun g => s.psc.transit.contains g
    else { s.lifeCycleApply with mem := [], lines := [] }
  let n := if s.hbm.withdrawn then 179 else 186
  { s with psc := { s.psc with transit := [], pool := [(0, n)] }, saves := [], cluSaves := [] }

/-- A warm boot adds a CXL device that is found again, and keeps its contents (R493). -/
def State.cxlFound (s : State) (port : PortId) (n : Nat) : State :=
  if s.warmBoot then
    let s := s.setPortState port 2
    { s with psc := { s.psc with pool := s.psc.pool ++ [(cxlBase port, min n (2 ^ 17))] } }
  else s.cxlAdd port n

/-- The root ports train under the stored bifurcation codes, the stored CXL ports enter CXL mode, and the devices found there join the
pool (R364, R384). -/
def State.bootPorts (s : State) (cxl : List (Nat × Nat)) : State :=
  let s := (List.range 8).foldl (fun s r => s.setBifur r (s.psc.storedBif.get 0 r)) s
  let s := s.psc.storedCxl.foldl (fun (s : State) i =>
    (s.rgSet (ownerReg false i) 0x20).rgSet (ownerReg true i) 0x20) s
  cxl.foldl (fun s c => if s.psc.storedCxl.contains c.1 && decide (0 < c.2) then s.cxlFound (Fin.ofNat 32 c.1) c.2 else s) s

/-- BOOT_MEMORY_WIPE; `cxl` are the devices enumerated: port and granules. A scrapped package stops here (R496, R501). -/
def execBootMemoryWipe (cxl : List (Nat × Nat)) (s : State) : Host.Outcome State Fault Refusal :=
  .next (if !(s.inBoot 5) then s else
    let s := s.bootWipe.bootPorts cxl
    if s.lifeCycle = 4 then s else s.setBootStep 6)

/-! ## Step 6: the stored layout (R54–R56, R493, R496) -/

/-- The layouts of a stored set as a record. -/
def storedRec (t : Tbl PartLayout) (cxl : List Nat) : LayRec :=
  { pids := t.map (·.1), lays := t.map fun e => (e.1, some e.2), bifur := [], cxl := cxl, ents := [] }

/-- The stored layout: what this package has stored, or the record that the SPI NOR holds from before. -/
def State.storedLayout (s : State) (rec : List Byte) : Nat ⊕ LayRec :=
  if s.psc.stored.isEmpty then
    match layParse rec with
    | .inl o => .inl o
    | .inr r => .inr (if s.hbm.withdrawn then { r with lays := r.lays.map fun e => (e.1, e.2.map PartLayout.withoutTop) } else r)
  else .inr (storedRec s.psc.stored [])

/-- The layout fails a check of R55 or R497. -/
def State.bootLayoutBad (s : State) (r : LayRec) (dir : List (Nat × Nat)) : Bool :=
  (s.resizeRefuse r dir).isSome || r.pids.any fun p => (s.layoutAfter r p).clusters != 0 && (s.layoutAfter r p).bootBad dir

/-- The new owner of a granule, as PID + 1. -/
def LayRec.newOwner (r : LayRec) (g : Nat) : Nat :=
  match r.lays.find? fun e => match e.2 with | some l => l.grans.any (fun x => x.2 == g) | none => false with
  | some e => e.1 + 1
  | none => 0

/-- A warm boot wipes every granule whose owner changes, and those that become free (R45, R491). -/
def State.warmWipe (s : State) (r : LayRec) : State :=
  let s := if s.warmBoot then s.wipeGranules fun g => r.newOwner g != s.psc.warmOwn.get 0 g else s
  { s with psc := { s.psc with warmOwn := [] } }

/-- The record of no partition. -/
def LayRec.none_ : LayRec := { pids := [], lays := [], bifur := [], cxl := [], ents := [] }

/-- The partitions are left EMPTY; the owner receives an in-band interrupt and the boot is over (R496). -/
def State.bootEmpty (s : State) : State := { (s.warmWipe LayRec.none_).setBootStep 8 with ibi := s.ibi + 1 }

/-- The partitions of a layout are built by one swap pair, without the release and wipe steps (R56, R496). -/
def State.bootBuild (s : State) (r : LayRec) : State :=
  let s := s.warmWipe r
  let ps := s.changed r
  if ps.isEmpty then s.setBootStep 8 else
  let z : Resize := {
    id := 0, wipe := false, pids := ps.map fun p => (p, 0), layouts := ps.map fun p => (p, s.layoutAfter r p), bifur := r.bifur, cxl := r.cxl,
    persist := true, clusters := [], grans := [], ports := [], phase := 6 }
  let s := ps.foldl (fun s p => s.setPartState (Fin.ofNat 16 p) 1) s
  ({ s with psc := { s.psc with resizes := s.psc.resizes ++ [z] } }).resizeGo 0

/-- The build is not running yet. -/
def State.buildIdle (s : State) : Bool := (s.getResize 0).isNone

/-- BOOT_LAYOUT_BUILD: the record and the image directory of the SPI NOR; in BLANK no partition is built (R496, R501). -/
def execBootLayoutBuild (rec : List Byte) (dir : List (Nat × Nat)) (s : State) : Host.Outcome State Fault Refusal :=
  .next (if !(s.inBoot 6) || !s.buildIdle then s
    else if s.lifeCycle = 0 then (s.warmWipe LayRec.none_).setBootStep 8
    else match s.storedLayout rec with
      | .inl _ => s.bootEmpty
      | .inr r => if s.bootLayoutBad r dir then s.bootEmpty else s.bootBuild r)

/-! ## Step 7: the boot images (R497, R498) -/

/-- BOOT_IMAGE_LOAD: one partition's image is loaded, and its boot core released at the next boundary. -/
def execBootImageLoad (p : Pid) (image : List Byte) (s : State) : Host.Outcome State Fault Refusal :=
  .next (if s.inBoot 7 && s.partState p == 1 && !(s.psc.release.contains p.val) && s.existsPart p.val then s.bootLoad p image else s)

/-- At a boundary: the partitions are built at swap C, and the boot is complete when none waits for its image. `was` is the state
before the boundary. -/
def State.bootAdvance (s : State) (was : State) : State :=
  if s.bootStep = 6 ∧ (was.getResize 0).isSome ∧ (s.getResize 0).isNone then s.setBootStep 7
  else if s.bootStep = 7 ∧ !((List.range 16).any fun p => s.partState (Fin.ofNat 16 p) == 1 && !(s.psc.onHold.contains p)) then s.setBootStep 8
  else s

/-! ## Limits (R496) -/

/-- Partitions whose image is still to be loaded. -/
def State.imagesLeft (s : State) : Nat :=
  ((List.range 16).filter fun p => s.partState (Fin.ofNat 16 p) == 1 && !(s.psc.release.contains p)).length

/-- The limit of a step in ticks; an image of 64 MiB is read at 50 MB/s in 1,342,178 ticks (R497). -/
def State.bootLimit (s : State) : Nat :=
  match s.bootStep with
  | 1 => 100
  | 2 => 100000
  | 3 => 2000
  | 4 => 10000
  | 5 => 100000
  | 6 => 1000
  | _ => 1000 + 1342178 * s.imagesLeft

/-- The Facets that are not in step by the limit are left out. -/
def State.bootLeaveOut (s : State) : State :=
  let s := (List.range 12).foldl (fun s f => if s.inResync (Fin.ofNat 12 f) then s.setFacet (Fin.ofNat 12 f) Facet.empty else s) s
  s.setBootStep 4

/-- A layout that is not built by the limit leaves its partitions EMPTY. -/
def State.bootUnbuilt (s : State) : State :=
  let s := match s.getResize 0 with
    | some r => r.pids.foldl (fun (s : State) (x : Nat × Nat) => s.setPartState (Fin.ofNat 16 x.1) 0) s
    | none => s
  (s.dropResize 0).bootEmpty

/-- BOOT_STEP_TIMEOUT: the step in progress has exceeded its limit (R496). -/
def execBootStepTimeout (s : State) : Host.Outcome State Fault Refusal :=
  .next (if s.bootStep = 8 || s.fatal || s.rstRuns 2 0 || !(s.expired s.psc.bootAt s.bootLimit) || (s.bootStep == 5 && s.lifeCycle == 4) then s
    else match s.bootStep with
      | 1 => s.refLost
      | 2 => s.bbFatal 0x1050 none 0 0
      | 3 => s.bootLeaveOut
      | 4 => s.bbFatal 0x5023 none 0 0
      | 5 =>
        let s := s.bootWipe.bootPorts []
        if s.lifeCycle = 4 then s else s.setBootStep 6
      | 6 => s.bootUnbuilt
      | 7 => s.bbFatal 0x1050 none 0 0
      | _ => s)

end Sys2Proof.Machine
end

