-- ==== Sys2Proof/Machine/Branch.lean ====
section
/-! DEFINITION. Branches and jumps (R75, R76, R82, R84, R105) and their short forms (R87, R88). -/

namespace Sys2Proof.Machine

/-- CAUSE 0x03, instruction-alignment: the address is the jump's target (R84, R162). -/
def excJump (target : Word) : Exc := Exc.of 0x03 0 target

/-- The entries of a predictor that instructions of the core's world may use (R146). -/
def Core.usable (c : Core) (l : List Train) : List (Word × Word × Bool) :=
  (l.filter fun t => t.inner == c.inner).map fun t => (t.pc, t.val, t.taken)

/-- What the core predicts for a conditional branch at its pc, and for a jump to a register (R144, R146). -/
def Core.predictsTaken (c : Core) : Bool := Config.predictTaken (c.usable c.bpred) c.hist c.pc
def Core.predictsTarget (c : Core) : Word :=
  Config.predictTarget (c.usable c.bpred) ((c.ras.filter fun x => x.2 == c.inner).map (·.1)) c.pc

/-- A retired branch trains the predictor with its outcome and target, and enters the global history (R144, R146). The rules give the
predictor neither a size nor a length to the history: the model keeps every entry (log 81). -/
def Core.branched (c : Core) (taken : Bool) (target : Word) : Core :=
  { c with hist := taken :: c.hist, bpred := { pc := c.pc, val := target, taken := taken, inner := c.inner } :: c.bpred }

/-- Push and pop the return stack of 32 entries, each with the world of its instruction (R144, R146). -/
def Core.rasPush (c : Core) (a : Word) : Core := { c with ras := ((a, c.inner) :: c.ras).take 32 }
def Core.rasPop (c : Core) : Core := { c with ras := c.ras.drop 1 }

/-- A retired branch counts BR_RETIRED (R512). -/
def State.brCount (s : State) (k : CoreId) (c : Core) : State := if c.ra.isSome then s else s.count k 0x09 1 c.pl c.inner

/-- A conditional branch on one D register (R105). In run-ahead it trains nothing, and with an INV condition it follows the prediction
(R146, R151). -/
def opBranch (k : CoreId) (len : Nat) (rs : DReg) (off : Word) (onZero : Bool) (s : State) : State :=
  let c := s.core k
  let next (c : Core) (taken : Bool) : Word := if taken then c.pc + off else c.pc + BitVec.ofNat 64 len
  match c.ra with
  | some r =>
    let taken := if r.isInv (.d rs.val) then c.predictsTaken else (c.rd rs == 0) == onZero
    s.raGo k r (s.setCore k { (c.goto (next c taken)) with ra := some r.tickOne, hist := taken :: c.hist })
  | none =>
    s.run k len .stop fun s =>
      let c := s.core k
      let taken := (c.rd rs == 0) == onZero
      .done ((s.setCore k ((c.branched taken (c.pc + off)).goto (next c taken))).brCount k c)

/-- The core after the link of a jump. -/
def Core.linked (c : Core) : Option (AReg × Nat) → Core
  | some (r, n) => (c.wa r (c.pc + BitVec.ofNat 64 n)).rasPush (c.pc + BitVec.ofNat 64 n)
  | none => c

/-- The register that a link writes. -/
def linkNames : Option (AReg × Nat) → List RegName
  | some (r, _) => [.a r.val]
  | none => []

/-- A jump to an offset, with an optional link (R105). -/
def opJump (k : CoreId) (len : Nat) (off : Word) (link : Option (AReg × Nat)) (s : State) : State :=
  s.run k len (.comp [] (linkNames link)) fun s =>
    let c := s.core k
    .done ((s.setCore k ((c.linked link).goto (c.pc + off))).brCount k c)

/-- A jump to an A register: bit 0 of the target is checked first, the old value is the target (R84, R95, R105). In run-ahead with an INV
register it follows the predicted target (R144, R151). -/
def opJumpReg (k : CoreId) (len : Nat) (rs : AReg) (link : Option (AReg × Nat)) (s : State) : State :=
  let after (c : Core) (t : Word) : Core :=
    ((match link with | some _ => c.linked link | none => if rs.val = 14 then c.rasPop else c).goto t)
  let inv : Option RunAhead := (s.core k).ra.bind fun r => if r.isInv (.a rs.val) then some r else none
  match inv with
  | some r =>
    let c := s.core k
    s.raGo k r (s.setCore k { (after c c.predictsTarget) with ra := some ((linkNames link).foldl (fun r n => r.mark false n) r.tickOne) })
  | none =>
    s.run k len (.comp [] (linkNames link)) fun s =>
      let c := s.core k
      let t := c.ra' rs
      if bit t 0 then .exc (excJump t) s
      else
        let c1 := if c.ra.isSome then c else c.branched true t
        .done ((s.setCore k (after c1 t)).brCount k c)

/-- BZ: branch when all 64 bits are zero (R76, R105). -/
def execBz (k : CoreId) (rs : DReg) (off : BitVec 19) (s : State) : Host.Outcome State Fault Refusal :=
  .next (opBranch k 4 rs (branchOff off) true s)

/-- BNZ: branch when any bit is one (R76, R105). -/
def execBnz (k : CoreId) (rs : DReg) (off : BitVec 19) (s : State) : Host.Outcome State Fault Refusal :=
  .next (opBranch k 4 rs (branchOff off) false s)

/-- J: pc + off (R105). -/
def execJ (k : CoreId) (off : BitVec 24) (s : State) : Host.Outcome State Fault Refusal :=
  .next (opJump k 4 (branchOff off) none s)

/-- JAL: A14 ← pc + 4, then pc + off (R74, R105). -/
def execJal (k : CoreId) (off : BitVec 24) (s : State) : Host.Outcome State Fault Refusal :=
  .next (opJump k 4 (branchOff off) (some (14, 4)) s)

/-- JR: pc ← As (R84, R105). -/
def execJr (k : CoreId) (rs : AReg) (s : State) : Host.Outcome State Fault Refusal :=
  .next (opJumpReg k 4 rs none s)

/-- JALR: Ad ← pc + 4, then the old value of As (R84, R95, R105). -/
def execJalr (k : CoreId) (rd rs : AReg) (s : State) : Host.Outcome State Fault Refusal :=
  .next (opJumpReg k 4 rs (some (rd, 4)) s)

/-- BZ.S (R87, R105). -/
def execBzS (k : CoreId) (rs : SDReg) (off : BitVec 7) (s : State) : Host.Outcome State Fault Refusal :=
  .next (opBranch k 2 (longD rs) (branchOff off) true s)

/-- BNZ.S (R87, R105). -/
def execBnzS (k : CoreId) (rs : SDReg) (off : BitVec 7) (s : State) : Host.Outcome State Fault Refusal :=
  .next (opBranch k 2 (longD rs) (branchOff off) false s)

/-- J.S (R87, R105). -/
def execJS (k : CoreId) (off : BitVec 11) (s : State) : Host.Outcome State Fault Refusal :=
  .next (opJump k 2 (branchOff off) none s)

/-- RET.S: jump to A14 (R88, R105). -/
def execRetS (k : CoreId) (s : State) : Host.Outcome State Fault Refusal :=
  .next (opJumpReg k 2 14 none s)

/-- JR.S (R88, R105). -/
def execJrS (k : CoreId) (rs : SAReg) (s : State) : Host.Outcome State Fault Refusal :=
  .next (opJumpReg k 2 (longA rs) none s)

/-- JALR.S: A14 ← pc + 2 (R88, R105). -/
def execJalrS (k : CoreId) (rs : SAReg) (s : State) : Host.Outcome State Fault Refusal :=
  .next (opJumpReg k 2 (longA rs) (some (14, 2)) s)

end Sys2Proof.Machine
end

