-- ==== Sys2Proof/Machine/Encoding.lean ====
section
/-! DEFINITION. The encoding of Kosal instructions: the stream of halfwords (R81, R82), the formats (R86, R92), the opcode and function
tables (R87, R94, R95, R97), and the fields that must be zero (R88, R91). The decoder answers `none` for every encoding that raises
illegal-instruction (R85, R89, R91, R93); `kosalWord` is the encoder, written from the same tables. -/

namespace Sys2Proof.Machine

/-! ## Fields -/

/-- Bits [hi:lo] of an instruction word. -/
def ib (w hi lo : Nat) : Nat := w / 2 ^ lo % 2 ^ (hi + 1 - lo)

/-- The length in bytes that the first halfword decides: 4 when bits [1:0] are 0b11 (R81, R82). -/
def kosalLen (w : Nat) : Nat := if w % 4 = 3 then 4 else 2

/-- A field of five bits that names D0–D31. -/
def fieldD (w lo : Nat) : DReg := Fin.ofNat 32 (ib w (lo + 4) lo)
/-- The register of a field of five bits that names A0–A15: its bit 4 must be 0 (R91). -/
def fieldA (w lo : Nat) : AReg := Fin.ofNat 16 (ib w (lo + 4) lo)
def okA (w lo : Nat) : Bool := ib w (lo + 4) lo < 16
/-- The register of a field of five bits that names Q0–Q7: its bits [4:3] must be 0 (R91). -/
def fieldQ (w lo : Nat) : QReg := Fin.ofNat 8 (ib w (lo + 4) lo)
def okQ (w lo : Nat) : Bool := ib w (lo + 4) lo < 8
/-- A field of five bits that an instruction does not use must be zero (R91). -/
def noReg (w lo : Nat) : Bool := ib w (lo + 4) lo == 0
/-- Fields of short forms: D0–D15 in four bits, A0–A7 in three (R86). -/
def shortD (w lo : Nat) : SDReg := Fin.ofNat 16 (ib w (lo + 3) lo)
def shortA (w lo : Nat) : SAReg := Fin.ofNat 8 (ib w (lo + 2) lo)

/-- An instruction, if its fields allow it. -/
def iff_ (b : Bool) (i : Instr) : Option Instr := if b then some i else none

/-! ## The short formats (R86–R90) -/

/-- Page SG = 00. -/
def decode00 (k : CoreId) (w : Nat) : Option Instr :=
  match ib w 4 2 with
  | 0 => iff_ (w % 2 ^ 16 != 0) (.aluS k (Fin.ofNat 8 (ib w 7 5)) (shortD w 12) (shortD w 8))
  | 1 => iff_ (ib w 15 12 != 0 || ib w 11 5 == 0) (.addiS k (shortD w 12) (BitVec.ofNat 7 (ib w 11 5)))
  | 2 => iff_ (ib w 15 12 != 0) (.moviS k (shortD w 12) (BitVec.ofNat 7 (ib w 11 5)))
  | 3 => iff_ (decide (ib w 7 5 < 6)) (.csetS k (Fin.ofNat 8 (ib w 7 5)) (shortD w 12) (shortD w 8))
  | 4 => some (.ldS k (shortD w 12) (shortA w 9) (Fin.ofNat 8 (ib w 8 6)) (ib w 5 5 == 1))
  | 5 => some (.stS k (shortD w 12) (shortA w 9) (Fin.ofNat 8 (ib w 8 6)) (ib w 5 5 == 1))
  | 6 => some (.lwS k (shortD w 12) (shortA w 9) (Fin.ofNat 8 (ib w 8 6)) (ib w 5 5 == 1))
  | _ => some (.swS k (shortD w 12) (shortA w 9) (Fin.ofNat 8 (ib w 8 6)) (ib w 5 5 == 1))

/-- Page SG = 01. -/
def decode01 (k : CoreId) (w : Nat) : Option Instr :=
  match ib w 4 2 with
  | 0 => some (.bzS k (shortD w 12) (BitVec.ofNat 7 (ib w 11 5)))
  | 1 => some (.bnzS k (shortD w 12) (BitVec.ofNat 7 (ib w 11 5)))
  | 2 => some (.jS k (BitVec.ofNat 11 (ib w 15 5)))
  | 3 => some (.addaS k (shortA w 13) (BitVec.ofNat 8 (ib w 12 5)))
  | 4 => some (.addspS k (BitVec.ofNat 11 (ib w 15 5)))
  | 5 => iff_ (decide (ib w 8 5 < 7)) (.adS k (Fin.ofNat 16 (ib w 8 5)) (shortA w 13) (shortD w 9))
  | 6 => some (.ldspS k (shortD w 12) (BitVec.ofNat 7 (ib w 11 5)))
  | _ => some (.stspS k (shortD w 12) (BitVec.ofNat 7 (ib w 11 5)))

/-- Page SG = 10, with the operand bits of R88. -/
def decode10 (k : CoreId) (w : Nat) : Option Instr :=
  match ib w 4 2 with
  | 0 =>
    match ib w 15 13 with
    | 0 => iff_ (ib w 12 5 == 0) (.retS k)
    | 1 => iff_ (ib w 9 5 == 0) (.jrS k (shortA w 10))
    | 2 => iff_ (ib w 9 5 == 0) (.jalrS k (shortA w 10))
    | 3 => iff_ (ib w 6 5 == 0) (.movaS k (shortA w 10) (shortA w 7))
    | 4 => some (.brkS k (BitVec.ofNat 8 (ib w 12 5)))
    | _ => none
  | 1 => some (.shiS k (shortD w 12) (ib w 11 11 == 1) (Fin.ofNat 64 (ib w 10 5)))
  | _ => none

/-! ## The long formats (R91–R95, R97) -/

/-- Majors 0x01, 0x0A, 0x0B and 0x0E: D registers in every field they use. -/
def decodeDDD (k : CoreId) (w : Nat) : Option Instr :=
  let rd := fieldD w 8
  let rs := fieldD w 13
  let rt := fieldD w 18
  let one := noReg w 18
  match ib w 7 2, ib w 31 23 with
  | 0x01, 0x000 => some (.add k rd rs rt)
  | 0x01, 0x001 => some (.sub k rd rs rt)
  | 0x01, 0x002 => some (.andD k rd rs rt)
  | 0x01, 0x003 => some (.orD k rd rs rt)
  | 0x01, 0x004 => some (.xorD k rd rs rt)
  | 0x01, 0x005 => some (.andn k rd rs rt)
  | 0x01, 0x006 => some (.sll k rd rs rt)
  | 0x01, 0x007 => some (.srl k rd rs rt)
  | 0x01, 0x008 => some (.sra k rd rs rt)
  | 0x01, 0x009 => some (.ror k rd rs rt)
  | 0x01, 0x010 => some (.addW k rd rs rt)
  | 0x01, 0x011 => some (.subW k rd rs rt)
  | 0x01, 0x016 => some (.sllW k rd rs rt)
  | 0x01, 0x017 => some (.srlW k rd rs rt)
  | 0x01, 0x018 => some (.sraW k rd rs rt)
  | 0x01, 0x020 => some (.min k rd rs rt)
  | 0x01, 0x021 => some (.max k rd rs rt)
  | 0x01, 0x022 => some (.minu k rd rs rt)
  | 0x01, 0x023 => some (.maxu k rd rs rt)
  | 0x0A, 0x000 => some (.cset k rd rs rt 0)
  | 0x0A, 0x001 => some (.cset k rd rs rt 1)
  | 0x0A, 0x002 => some (.cset k rd rs rt 2)
  | 0x0A, 0x003 => some (.cset k rd rs rt 3)
  | 0x0A, 0x004 => some (.cset k rd rs rt 4)
  | 0x0A, 0x005 => some (.cset k rd rs rt 5)
  | 0x0B, 0x000 => some (.mul k rd rs rt)
  | 0x0B, 0x001 => some (.mulh k rd rs rt)
  | 0x0B, 0x002 => some (.mulhu k rd rs rt)
  | 0x0B, 0x004 => some (.div k rd rs rt)
  | 0x0B, 0x005 => some (.divu k rd rs rt)
  | 0x0B, 0x006 => some (.rem k rd rs rt)
  | 0x0B, 0x007 => some (.remu k rd rs rt)
  | 0x0B, 0x010 => some (.mulW k rd rs rt)
  | 0x0B, 0x014 => some (.divW k rd rs rt)
  | 0x0B, 0x015 => some (.divuW k rd rs rt)
  | 0x0B, 0x016 => some (.remW k rd rs rt)
  | 0x0B, 0x017 => some (.remuW k rd rs rt)
  | 0x0E, 0x000 => iff_ one (.clz k rd rs)
  | 0x0E, 0x001 => iff_ one (.ctz k rd rs)
  | 0x0E, 0x002 => iff_ one (.popc k rd rs)
  | 0x0E, 0x008 => iff_ one (.brev k rd rs)
  | 0x0E, 0x009 => iff_ one (.bswap k rd rs)
  | 0x0E, 0x00A => iff_ one (.hswap k rd rs)
  | 0x0E, 0x010 => iff_ one (.parb k rd rs)
  | 0x0E, 0x011 => iff_ one (.parw k rd rs)
  | 0x0E, fn =>
    -- 0x020 + 4 × poly + width, poly 0 to 2
    match fn / 4 with
    | 0x08 => some (.crc32c k rd rs rt (Fin.ofNat 4 fn))
    | 0x09 => some (.crc64 k rd rs rt (Fin.ofNat 4 fn))
    | 0x0A => some (.crcp k rd rs rt (Fin.ofNat 4 fn))
    | _ => none
  | _, _ => none

/-- The rounding modes that are assigned: 0–4 and 7 (R95). -/
def rmOk (rm : Nat) : Bool := rm < 5 || rm == 7

/-- Major 0x0C, FP: fn9[8] the precision, [7:3] the op, [2:0] the rounding mode (R95). -/
def decodeFp (k : CoreId) (w : Nat) : Option Instr :=
  let rd := fieldD w 8
  let rs := fieldD w 13
  let rt := fieldD w 18
  let one := noReg w 18
  let dp := ib w 31 31 == 1
  let m := ib w 25 23
  let rm : Fin 8 := Fin.ofNat 8 m
  match ib w 30 26 with
  | 0 => iff_ (rmOk m) (.fadd k rd rs rt dp rm)
  | 1 => iff_ (rmOk m) (.fsub k rd rs rt dp rm)
  | 2 => iff_ (rmOk m) (.fmul k rd rs rt dp rm)
  | 3 => iff_ (rmOk m) (.fdiv k rd rs rt dp rm)
  | 4 => iff_ (rmOk m && one) (.fsqrt k rd rs dp rm)
  | 5 => iff_ (m == 0) (.fmin k rd rs rt dp)
  | 6 => iff_ (m == 0) (.fmax k rd rs rt dp)
  | 8 => iff_ (m == 0) (.fceq k rd rs rt dp)
  | 9 => iff_ (m == 0) (.fclt k rd rs rt dp)
  | 10 => iff_ (m == 0) (.fcle k rd rs rt dp)
  | 11 => iff_ (m == 0) (.fcun k rd rs rt dp)
  | 12 => iff_ (rmOk m && one) (.fcvtI k rd rs dp rm)
  | 13 => iff_ (rmOk m && one) (.fcvtU k rd rs dp rm)
  | 14 => iff_ (rmOk m && one) (.fcvtF k rd rs dp rm)
  | 15 => iff_ (rmOk m && one) (.fcvtFu k rd rs dp rm)
  | 16 => iff_ (rmOk m && one) (.fcvtP k rd rs dp rm)
  | 17 => iff_ (m == 0 && one) (.fneg k rd rs dp)
  | 18 => iff_ (m == 0 && one) (.fabs k rd rs dp)
  | 19 => iff_ (m == 0 && one) (.fkind k rd rs dp)
  | _ => none

/-- Major 0x0F, ADDRA. -/
def decodeAddra (k : CoreId) (w : Nat) : Option Instr :=
  let one := noReg w 18
  match ib w 31 23 with
  | 0x000 => iff_ (okA w 8 && okA w 13) (.adda k (fieldA w 8) (fieldA w 13) (fieldD w 18))
  | 0x001 => iff_ (okA w 8 && okA w 13) (.sadda k (fieldA w 8) (fieldA w 13) (fieldD w 18) 0)
  | 0x002 => iff_ (okA w 8 && okA w 13) (.sadda k (fieldA w 8) (fieldA w 13) (fieldD w 18) 1)
  | 0x003 => iff_ (okA w 8 && okA w 13) (.sadda k (fieldA w 8) (fieldA w 13) (fieldD w 18) 2)
  | 0x004 => iff_ (okA w 8 && okA w 13) (.suba k (fieldA w 8) (fieldA w 13) (fieldD w 18))
  | 0x008 => iff_ (okA w 8 && one) (.movad k (fieldA w 8) (fieldD w 13))
  | 0x009 => iff_ (okA w 13 && one) (.movda k (fieldD w 8) (fieldA w 13))
  | fn => iff_ (decide (0x010 ≤ fn ∧ fn < 0x016) && okA w 13 && okA w 18) (.cmpa k (fieldD w 8) (fieldA w 13) (fieldA w 18) (Fin.ofNat 8 fn))

/-- Majors 0x11–0x1D, 0x1F and 0x20: L-M (R92, R93). An LDA with P = 1 and rt equal to Ab is reserved. -/
def decodeLm (k : CoreId) (w : Nat) : Option Instr :=
  let d := fieldD w 8
  let ab : AReg := Fin.ofNat 16 (ib w 16 13)
  let off := BitVec.ofNat 14 (ib w 31 18)
  let p := ib w 17 17 == 1
  match ib w 7 2 with
  | 0x11 => some (.lb k d ab off p)
  | 0x12 => some (.lbu k d ab off p)
  | 0x13 => some (.lh k d ab off p)
  | 0x14 => some (.lhu k d ab off p)
  | 0x15 => some (.lw k d ab off p)
  | 0x16 => some (.lwu k d ab off p)
  | 0x17 => some (.ld k d ab off p)
  | 0x18 => iff_ (okA w 8 && !(p && fieldA w 8 == ab)) (.lda k (fieldA w 8) ab off p)
  | 0x19 => some (.sb k d ab off p)
  | 0x1A => some (.sh k d ab off p)
  | 0x1B => some (.sw k d ab off p)
  | 0x1C => some (.sd k d ab off p)
  | 0x1D => iff_ (okA w 8) (.sda k (fieldA w 8) ab off p)
  | 0x1F => iff_ (okQ w 8) (.qload k (fieldQ w 8) ab off p)
  | 0x20 => iff_ (okQ w 8) (.qsave k (fieldQ w 8) ab off p)
  | _ => none

/-- Majors 0x1E and 0x21, QACC and QOPS. -/
def decodeQ (k : CoreId) (w : Nat) : Option Instr :=
  let p := ib w 29 29 == 1
  let q := ib w 28 23 == 0 && okQ w 8 && okA w 13
  match ib w 7 2, ib w 31 30 with
  | 0x1E, 0 => iff_ (q && okA w 18) (.qdot8 k (fieldQ w 8) (fieldA w 13) (fieldA w 18) p)
  | 0x1E, 1 => iff_ (q && okA w 18) (.qdotbf k (fieldQ w 8) (fieldA w 13) (fieldA w 18) p)
  | 0x1E, 2 => iff_ (q && noReg w 18) (.qclf k (fieldQ w 8) (fieldA w 13) p)
  | 0x1E, _ => iff_ (q && noReg w 18) (.qpopc k (fieldQ w 8) (fieldA w 13) p)
  | _, _ =>
    match ib w 31 23 with
    | 0x000 => iff_ (okQ w 8 && noReg w 13 && noReg w 18) (.qzero k (fieldQ w 8))
    | 0x010 => iff_ (okQ w 13 && noReg w 18) (.qredI k (fieldD w 8) (fieldQ w 13))
    | 0x011 => iff_ (okQ w 13 && noReg w 18) (.qredF k (fieldD w 8) (fieldQ w 13))
    | 0x012 => iff_ (okQ w 13 && noReg w 18) (.qredC k (fieldD w 8) (fieldQ w 13))
    | 0x013 => iff_ (okQ w 13 && noReg w 18) (.qredP k (fieldD w 8) (fieldQ w 13))
    | _ => none

/-- Majors 0x22 and 0x23, ATOM and RESV. -/
def decodeAtom (k : CoreId) (w : Nat) : Option Instr :=
  let rd := fieldD w 8
  let rs := fieldA w 13
  let rt := fieldD w 18
  let f := ib w 27 27 == 1
  let w64 := ib w 26 26 == 1
  let ok := okA w 13 && ib w 25 23 == 0
  match ib w 31 28 with
  | 0 => iff_ ok (.atomAdd k rd rs rt f w64)
  | 1 => iff_ ok (.atomAnd k rd rs rt f w64)
  | 2 => iff_ ok (.atomOr k rd rs rt f w64)
  | 3 => iff_ ok (.atomXor k rd rs rt f w64)
  | 4 => iff_ ok (.atomSwap k rd rs rt f w64)
  | 5 => iff_ ok (.atomSmin k rd rs rt f w64)
  | 6 => iff_ ok (.atomSmax k rd rs rt f w64)
  | 7 => iff_ ok (.atomUmin k rd rs rt f w64)
  | 8 => iff_ ok (.atomUmax k rd rs rt f w64)
  | 9 => iff_ ok (.atomCas k rd rs rt f w64)
  | _ => none

/-- Major 0x23, RESV. -/
def decodeResv (k : CoreId) (w : Nat) : Option Instr :=
  match ib w 31 23 with
  | 0x000 => iff_ (okA w 13 && noReg w 18) (.ldres k (fieldD w 8) (fieldA w 13) false)
  | 0x080 => iff_ (okA w 13 && noReg w 18) (.ldres k (fieldD w 8) (fieldA w 13) true)
  | 0x100 => iff_ (okA w 13) (.stcond k (fieldD w 8) (fieldA w 13) (fieldD w 18) false)
  | 0x180 => iff_ (okA w 13) (.stcond k (fieldD w 8) (fieldA w 13) (fieldD w 18) true)
  | _ => none

/-- Majors 0x24 and 0x26, SYNC and MAINT. -/
def decodeSync (k : CoreId) (w : Nat) : Option Instr :=
  let rs := fieldA w 13
  let rt := fieldD w 18
  let nd := noReg w 8
  let none3 := nd && noReg w 13 && noReg w 18
  let addr := nd && okA w 13 && noReg w 18
  match ib w 7 2, ib w 31 23 with
  | 0x24, 0x000 => iff_ none3 (.barC k)
  | 0x24, 0x001 => iff_ none3 (.barK k)
  | 0x24, 0x002 => iff_ none3 (.barS k)
  | 0x24, 0x008 => iff_ none3 (.isync k)
  | 0x24, 0x010 => iff_ none3 (.wfi k)
  | 0x26, 0x000 => iff_ (nd && okA w 13) (.tlbiVa k rs rt)
  | 0x26, 0x001 => iff_ (nd && noReg w 13) (.tlbiAsid k rt)
  | 0x26, 0x002 => iff_ none3 (.tlbiS1all k)
  | 0x26, 0x004 => iff_ addr (.tlbiIpa k rs)
  | 0x26, 0x005 => iff_ none3 (.tlbiS2all k)
  | 0x26, 0x010 => iff_ addr (.dcClean k rs)
  | 0x26, 0x011 => iff_ addr (.dcInv k rs)
  | 0x26, 0x012 => iff_ addr (.dcClinv k rs)
  | 0x26, 0x013 => iff_ addr (.dcZero k rs)
  | 0x26, 0x018 => iff_ addr (.icInv k rs)
  | _, _ => none

/-- Majors 0x25, 0x27 and 0x2C: SYS, EXC and JREG (R97). -/
def decodeSys (k : CoreId) (w : Nat) : Option Instr :=
  match ib w 7 2 with
  | 0x25 =>
    match ib w 31 30 with
    | 0 => iff_ (noReg w 13) (.mfs k (fieldD w 8) (BitVec.ofNat 12 (ib w 29 18)))
    | 1 => iff_ (noReg w 8) (.mts k (BitVec.ofNat 12 (ib w 29 18)) (fieldD w 13))
    | _ => none
  | 0x27 =>
    let code := BitVec.ofNat 12 (ib w 29 18)
    if noReg w 8 && noReg w 13 then
      match ib w 31 30 with
      | 0 => some (.gateK k code)
      | 1 => some (.gateH k code)
      | 2 => some (.gateM k code)
      | _ => if ib w 29 18 = 0 then some (.eret k)
             else iff_ (ib w 29 26 == 1) (.brk k (BitVec.ofNat 8 (ib w 25 18)))
    else none
  | _ =>
    match ib w 31 23 with
    | 0x000 => iff_ (noReg w 8 && okA w 13 && noReg w 18) (.jr k (fieldA w 13))
    | 0x001 => iff_ (okA w 8 && okA w 13 && noReg w 18) (.jalr k (fieldA w 8) (fieldA w 13))
    | _ => none

/-- The immediate majors: L-I, L-U, L-B and L-J (R92, R97). -/
def decodeImm (k : CoreId) (w : Nat) : Option Instr :=
  let rd := fieldD w 8
  let rs := fieldD w 13
  let imm := BitVec.ofNat 14 (ib w 31 18)
  match ib w 7 2 with
  | 0x02 => some (.addi k rd rs imm)
  | 0x03 => some (.andi k rd rs imm)
  | 0x04 => some (.ori k rd rs imm)
  | 0x05 => some (.xori k rd rs imm)
  | 0x06 => iff_ (ib w 29 24 == 0) (.shi k rd rs (Fin.ofNat 4 (ib w 31 30)) (Fin.ofNat 64 (ib w 23 18)))
  | 0x07 => iff_ (decide (ib w 31 29 < 6)) (.cseti k rd rs (Fin.ofNat 8 (ib w 31 29)) (BitVec.ofNat 11 (ib w 28 18)))
  | 0x08 => some (.movu k rd (BitVec.ofNat 19 (ib w 31 13)))
  | 0x09 => iff_ (okA w 8) (.addpc k (fieldA w 8) (BitVec.ofNat 19 (ib w 31 13)))
  | 0x10 => iff_ (okA w 8 && okA w 13) (.addai k (fieldA w 8) (fieldA w 13) imm)
  | 0x28 => some (.bz k rd (BitVec.ofNat 19 (ib w 31 13)))
  | 0x29 => some (.bnz k rd (BitVec.ofNat 19 (ib w 31 13)))
  | 0x2A => some (.j k (BitVec.ofNat 24 (ib w 31 8)))
  | 0x2B => some (.jal k (BitVec.ofNat 24 (ib w 31 8)))
  | _ => none

/-- Majors 0x0D and 0x2D: L-R4 (R92, R94). -/
def decodeFma (k : CoreId) (w : Nat) : Option Instr :=
  let m := ib w 25 23
  let dp := ib w 26 26 == 1
  if ib w 7 2 = 0x0D then iff_ (rmOk m) (.fmadd k (fieldD w 8) (fieldD w 13) (fieldD w 18) (fieldD w 27) dp (Fin.ofNat 8 m))
  else iff_ (rmOk m) (.fmsub k (fieldD w 8) (fieldD w 13) (fieldD w 18) (fieldD w 27) dp (Fin.ofNat 8 m))

/-- A 32-bit instruction by its major opcode (R94). -/
def decodeLong (k : CoreId) (w : Nat) : Option Instr :=
  match ib w 7 2 with
  | 0x00 => none
  | 0x01 => decodeDDD k w
  | 0x0A => decodeDDD k w
  | 0x0B => decodeDDD k w
  | 0x0C => decodeFp k w
  | 0x0D => decodeFma k w
  | 0x0E => decodeDDD k w
  | 0x0F => decodeAddra k w
  | 0x1E => decodeQ k w
  | 0x21 => decodeQ k w
  | 0x22 => decodeAtom k w
  | 0x23 => decodeResv k w
  | 0x24 => decodeSync k w
  | 0x25 => decodeSys k w
  | 0x26 => decodeSync k w
  | 0x27 => decodeSys k w
  | 0x2C => decodeSys k w
  | 0x2D => decodeFma k w
  | m =>
    if m < 0x0A ∨ m = 0x10 ∨ (0x28 ≤ m ∧ m < 0x2C) then decodeImm k w
    else decodeLm k w

/-- The instruction of core `k` that execution reaches at a halfword: `w` holds it in bits [15:0] and the next halfword in bits [31:16],
which a 16-bit instruction does not use. `none`: illegal-instruction (R81, R82, R85). -/
def kosalDecode (k : CoreId) (w : Nat) : Option Instr :=
  match w % 4 with
  | 0 => decode00 k w
  | 1 => decode01 k w
  | 2 => decode10 k w
  | _ => decodeLong k w

/-! ## The encoder -/

/-- The layouts of R92, with the major in bits [7:2]; fields are numbers. -/
def lR (maj fn rt rs rd : Nat) : Option (Nat × Nat) := some (4, 3 + 2 ^ 2 * maj + 2 ^ 8 * rd + 2 ^ 13 * rs + 2 ^ 18 * rt + 2 ^ 23 * fn)
def lR4 (maj ra p rm rt rs rd : Nat) : Option (Nat × Nat) :=
  some (4, 3 + 2 ^ 2 * maj + 2 ^ 8 * rd + 2 ^ 13 * rs + 2 ^ 18 * rt + 2 ^ 23 * rm + 2 ^ 26 * p + 2 ^ 27 * ra)
def lI (maj imm rs rd : Nat) : Option (Nat × Nat) := some (4, 3 + 2 ^ 2 * maj + 2 ^ 8 * rd + 2 ^ 13 * rs + 2 ^ 18 * imm)
def lM (maj off p ab rt : Nat) : Option (Nat × Nat) := some (4, 3 + 2 ^ 2 * maj + 2 ^ 8 * rt + 2 ^ 13 * ab + 2 ^ 17 * p + 2 ^ 18 * off)
def lU (maj imm rd : Nat) : Option (Nat × Nat) := some (4, 3 + 2 ^ 2 * maj + 2 ^ 8 * rd + 2 ^ 13 * imm)
def lJ (maj off : Nat) : Option (Nat × Nat) := some (4, 3 + 2 ^ 2 * maj + 2 ^ 8 * off)
/-- The layouts of R86, with SG in bits [1:0] and op in bits [4:2]. -/
def sRR (sg op d s fn : Nat) : Option (Nat × Nat) := some (2, sg + 2 ^ 2 * op + 2 ^ 5 * fn + 2 ^ 8 * s + 2 ^ 12 * d)
def sRI (sg op d imm : Nat) : Option (Nat × Nat) := some (2, sg + 2 ^ 2 * op + 2 ^ 5 * imm + 2 ^ 12 * d)
def sLS (sg op t ab off p : Nat) : Option (Nat × Nat) := some (2, sg + 2 ^ 2 * op + 2 ^ 5 * p + 2 ^ 6 * off + 2 ^ 9 * ab + 2 ^ 12 * t)
def sJ (sg op imm : Nat) : Option (Nat × Nat) := some (2, sg + 2 ^ 2 * op + 2 ^ 5 * imm)
def sAI (sg op d imm : Nat) : Option (Nat × Nat) := some (2, sg + 2 ^ 2 * op + 2 ^ 5 * imm + 2 ^ 13 * d)
def sAD (sg op d s fn : Nat) : Option (Nat × Nat) := some (2, sg + 2 ^ 2 * op + 2 ^ 5 * fn + 2 ^ 9 * s + 2 ^ 13 * d)

/-- An encoding, if it is assigned. -/
def assigned (b : Bool) (e : Option (Nat × Nat)) : Option (Nat × Nat) := if b then e else none

/-- fn9 of the FP major: precision, op and rounding mode (R95). -/
def fpFn (dp : Bool) (op rm : Nat) : Nat := b2n dp * 2 ^ 8 + op * 2 ^ 3 + rm
/-- fn9 of ATOM: op, F and W (R95). -/
def atomFn (op : Nat) (f w : Bool) : Nat := op * 2 ^ 5 + b2n f * 2 ^ 4 + b2n w * 2 ^ 3
/-- fn9 of QACC: op and P (R95). -/
def qaccFn (op : Nat) (p : Bool) : Nat := op * 2 ^ 7 + b2n p * 2 ^ 6

/-- The length in bytes and the word of an instruction; `none` for the commands that are no instruction, and for operands whose encoding
is reserved (R77, R85, R89, R93, R95). -/
def kosalWord (i : Instr) : Option (Nat × Nat) :=
  match i with
  | .add _ d s t => lR 0x01 0x000 t.val s.val d.val
  | .sub _ d s t => lR 0x01 0x001 t.val s.val d.val
  | .andD _ d s t => lR 0x01 0x002 t.val s.val d.val
  | .orD _ d s t => lR 0x01 0x003 t.val s.val d.val
  | .xorD _ d s t => lR 0x01 0x004 t.val s.val d.val
  | .andn _ d s t => lR 0x01 0x005 t.val s.val d.val
  | .sll _ d s t => lR 0x01 0x006 t.val s.val d.val
  | .srl _ d s t => lR 0x01 0x007 t.val s.val d.val
  | .sra _ d s t => lR 0x01 0x008 t.val s.val d.val
  | .ror _ d s t => lR 0x01 0x009 t.val s.val d.val
  | .addW _ d s t => lR 0x01 0x010 t.val s.val d.val
  | .subW _ d s t => lR 0x01 0x011 t.val s.val d.val
  | .sllW _ d s t => lR 0x01 0x016 t.val s.val d.val
  | .srlW _ d s t => lR 0x01 0x017 t.val s.val d.val
  | .sraW _ d s t => lR 0x01 0x018 t.val s.val d.val
  | .min _ d s t => lR 0x01 0x020 t.val s.val d.val
  | .max _ d s t => lR 0x01 0x021 t.val s.val d.val
  | .minu _ d s t => lR 0x01 0x022 t.val s.val d.val
  | .maxu _ d s t => lR 0x01 0x023 t.val s.val d.val
  | .addi _ d s imm => lI 0x02 imm.toNat s.val d.val
  | .andi _ d s imm => lI 0x03 imm.toNat s.val d.val
  | .ori _ d s imm => lI 0x04 imm.toNat s.val d.val
  | .xori _ d s imm => lI 0x05 imm.toNat s.val d.val
  | .shi _ d s kind sh => lI 0x06 (kind.val * 2 ^ 12 + sh.val) s.val d.val
  | .cseti _ d s cc imm => assigned (cc.val < 6) (lI 0x07 (cc.val * 2 ^ 11 + imm.toNat) s.val d.val)
  | .movu _ d imm => lU 0x08 imm.toNat d.val
  | .addpc _ d imm => lU 0x09 imm.toNat d.val
  | .cset _ d s t cc => assigned (cc.val < 6) (lR 0x0A cc.val t.val s.val d.val)
  | .mul _ d s t => lR 0x0B 0x000 t.val s.val d.val
  | .mulh _ d s t => lR 0x0B 0x001 t.val s.val d.val
  | .mulhu _ d s t => lR 0x0B 0x002 t.val s.val d.val
  | .div _ d s t => lR 0x0B 0x004 t.val s.val d.val
  | .divu _ d s t => lR 0x0B 0x005 t.val s.val d.val
  | .rem _ d s t => lR 0x0B 0x006 t.val s.val d.val
  | .remu _ d s t => lR 0x0B 0x007 t.val s.val d.val
  | .mulW _ d s t => lR 0x0B 0x010 t.val s.val d.val
  | .divW _ d s t => lR 0x0B 0x014 t.val s.val d.val
  | .divuW _ d s t => lR 0x0B 0x015 t.val s.val d.val
  | .remW _ d s t => lR 0x0B 0x016 t.val s.val d.val
  | .remuW _ d s t => lR 0x0B 0x017 t.val s.val d.val
  | .fadd _ d s t p rm => assigned (rmOk rm.val) (lR 0x0C (fpFn p 0 rm.val) t.val s.val d.val)
  | .fsub _ d s t p rm => assigned (rmOk rm.val) (lR 0x0C (fpFn p 1 rm.val) t.val s.val d.val)
  | .fmul _ d s t p rm => assigned (rmOk rm.val) (lR 0x0C (fpFn p 2 rm.val) t.val s.val d.val)
  | .fdiv _ d s t p rm => assigned (rmOk rm.val) (lR 0x0C (fpFn p 3 rm.val) t.val s.val d.val)
  | .fsqrt _ d s p rm => assigned (rmOk rm.val) (lR 0x0C (fpFn p 4 rm.val) 0 s.val d.val)
  | .fmin _ d s t p => lR 0x0C (fpFn p 5 0) t.val s.val d.val
  | .fmax _ d s t p => lR 0x0C (fpFn p 6 0) t.val s.val d.val
  | .fceq _ d s t p => lR 0x0C (fpFn p 8 0) t.val s.val d.val
  | .fclt _ d s t p => lR 0x0C (fpFn p 9 0) t.val s.val d.val
  | .fcle _ d s t p => lR 0x0C (fpFn p 10 0) t.val s.val d.val
  | .fcun _ d s t p => lR 0x0C (fpFn p 11 0) t.val s.val d.val
  | .fcvtI _ d s p rm => assigned (rmOk rm.val) (lR 0x0C (fpFn p 12 rm.val) 0 s.val d.val)
  | .fcvtU _ d s p rm => assigned (rmOk rm.val) (lR 0x0C (fpFn p 13 rm.val) 0 s.val d.val)
  | .fcvtF _ d s p rm => assigned (rmOk rm.val) (lR 0x0C (fpFn p 14 rm.val) 0 s.val d.val)
  | .fcvtFu _ d s p rm => assigned (rmOk rm.val) (lR 0x0C (fpFn p 15 rm.val) 0 s.val d.val)
  | .fcvtP _ d s p rm => assigned (rmOk rm.val) (lR 0x0C (fpFn p 16 rm.val) 0 s.val d.val)
  | .fneg _ d s p => lR 0x0C (fpFn p 17 0) 0 s.val d.val
  | .fabs _ d s p => lR 0x0C (fpFn p 18 0) 0 s.val d.val
  | .fkind _ d s p => lR 0x0C (fpFn p 19 0) 0 s.val d.val
  | .fmadd _ d s t a p rm => assigned (rmOk rm.val) (lR4 0x0D a.val (b2n p) rm.val t.val s.val d.val)
  | .fmsub _ d s t a p rm => assigned (rmOk rm.val) (lR4 0x2D a.val (b2n p) rm.val t.val s.val d.val)
  | .clz _ d s => lR 0x0E 0x000 0 s.val d.val
  | .ctz _ d s => lR 0x0E 0x001 0 s.val d.val
  | .popc _ d s => lR 0x0E 0x002 0 s.val d.val
  | .brev _ d s => lR 0x0E 0x008 0 s.val d.val
  | .bswap _ d s => lR 0x0E 0x009 0 s.val d.val
  | .hswap _ d s => lR 0x0E 0x00A 0 s.val d.val
  | .parb _ d s => lR 0x0E 0x010 0 s.val d.val
  | .parw _ d s => lR 0x0E 0x011 0 s.val d.val
  | .crc32c _ d s t wd => lR 0x0E (0x020 + wd.val) t.val s.val d.val
  | .crc64 _ d s t wd => lR 0x0E (0x024 + wd.val) t.val s.val d.val
  | .crcp _ d s t wd => lR 0x0E (0x028 + wd.val) t.val s.val d.val
  | .adda _ d s t => lR 0x0F 0x000 t.val s.val d.val
  | .sadda _ d s t n => lR 0x0F (n.val + 1) t.val s.val d.val
  | .suba _ d s t => lR 0x0F 0x004 t.val s.val d.val
  | .movad _ d s => lR 0x0F 0x008 0 s.val d.val
  | .movda _ d s => lR 0x0F 0x009 0 s.val d.val
  | .cmpa _ d s t cc => assigned (cc.val < 6) (lR 0x0F (0x010 + cc.val) t.val s.val d.val)
  | .addai _ d s imm => lI 0x10 imm.toNat s.val d.val
  | .lb _ t b off p => lM 0x11 off.toNat (b2n p) b.val t.val
  | .lbu _ t b off p => lM 0x12 off.toNat (b2n p) b.val t.val
  | .lh _ t b off p => lM 0x13 off.toNat (b2n p) b.val t.val
  | .lhu _ t b off p => lM 0x14 off.toNat (b2n p) b.val t.val
  | .lw _ t b off p => lM 0x15 off.toNat (b2n p) b.val t.val
  | .lwu _ t b off p => lM 0x16 off.toNat (b2n p) b.val t.val
  | .ld _ t b off p => lM 0x17 off.toNat (b2n p) b.val t.val
  | .lda _ t b off p => assigned (!(p && t == b)) (lM 0x18 off.toNat (b2n p) b.val t.val)
  | .sb _ t b off p => lM 0x19 off.toNat (b2n p) b.val t.val
  | .sh _ t b off p => lM 0x1A off.toNat (b2n p) b.val t.val
  | .sw _ t b off p => lM 0x1B off.toNat (b2n p) b.val t.val
  | .sd _ t b off p => lM 0x1C off.toNat (b2n p) b.val t.val
  | .sda _ t b off p => lM 0x1D off.toNat (b2n p) b.val t.val
  | .qload _ t b off p => lM 0x1F off.toNat (b2n p) b.val t.val
  | .qsave _ t b off p => lM 0x20 off.toNat (b2n p) b.val t.val
  | .qdot8 _ d s t p => lR 0x1E (qaccFn 0 p) t.val s.val d.val
  | .qdotbf _ d s t p => lR 0x1E (qaccFn 1 p) t.val s.val d.val
  | .qclf _ d s p => lR 0x1E (qaccFn 2 p) 0 s.val d.val
  | .qpopc _ d s p => lR 0x1E (qaccFn 3 p) 0 s.val d.val
  | .qzero _ d => lR 0x21 0x000 0 0 d.val
  | .qredI _ d s => lR 0x21 0x010 0 s.val d.val
  | .qredF _ d s => lR 0x21 0x011 0 s.val d.val
  | .qredC _ d s => lR 0x21 0x012 0 s.val d.val
  | .qredP _ d s => lR 0x21 0x013 0 s.val d.val
  | .atomAdd _ d s t f w => lR 0x22 (atomFn 0 f w) t.val s.val d.val
  | .atomAnd _ d s t f w => lR 0x22 (atomFn 1 f w) t.val s.val d.val
  | .atomOr _ d s t f w => lR 0x22 (atomFn 2 f w) t.val s.val d.val
  | .atomXor _ d s t f w => lR 0x22 (atomFn 3 f w) t.val s.val d.val
  | .atomSwap _ d s t f w => lR 0x22 (atomFn 4 f w) t.val s.val d.val
  | .atomSmin _ d s t f w => lR 0x22 (atomFn 5 f w) t.val s.val d.val
  | .atomSmax _ d s t f w => lR 0x22 (atomFn 6 f w) t.val s.val d.val
  | .atomUmin _ d s t f w => lR 0x22 (atomFn 7 f w) t.val s.val d.val
  | .atomUmax _ d s t f w => lR 0x22 (atomFn 8 f w) t.val s.val d.val
  | .atomCas _ d s t f w => lR 0x22 (atomFn 9 f w) t.val s.val d.val
  | .ldres _ d s w => lR 0x23 (b2n w * 0x080) 0 s.val d.val
  | .stcond _ d s t w => lR 0x23 (0x100 + b2n w * 0x080) t.val s.val d.val
  | .barC _ => lR 0x24 0x000 0 0 0
  | .barK _ => lR 0x24 0x001 0 0 0
  | .barS _ => lR 0x24 0x002 0 0 0
  | .isync _ => lR 0x24 0x008 0 0 0
  | .wfi _ => lR 0x24 0x010 0 0 0
  | .mfs _ d n => lI 0x25 n.toNat 0 d.val
  | .mts _ n s => lI 0x25 (2 ^ 12 + n.toNat) s.val 0
  | .tlbiVa _ s t => lR 0x26 0x000 t.val s.val 0
  | .tlbiAsid _ t => lR 0x26 0x001 t.val 0 0
  | .tlbiS1all _ => lR 0x26 0x002 0 0 0
  | .tlbiIpa _ s => lR 0x26 0x004 0 s.val 0
  | .tlbiS2all _ => lR 0x26 0x005 0 0 0
  | .dcClean _ s => lR 0x26 0x010 0 s.val 0
  | .dcInv _ s => lR 0x26 0x011 0 s.val 0
  | .dcClinv _ s => lR 0x26 0x012 0 s.val 0
  | .dcZero _ s => lR 0x26 0x013 0 s.val 0
  | .icInv _ s => lR 0x26 0x018 0 s.val 0
  | .gateK _ c => lI 0x27 c.toNat 0 0
  | .gateH _ c => lI 0x27 (2 ^ 12 + c.toNat) 0 0
  | .gateM _ c => lI 0x27 (2 * 2 ^ 12 + c.toNat) 0 0
  | .eret _ => lI 0x27 (3 * 2 ^ 12) 0 0
  | .brk _ imm => lI 0x27 (3 * 2 ^ 12 + 0x100 + imm.toNat) 0 0
  | .bz _ s off => lU 0x28 off.toNat s.val
  | .bnz _ s off => lU 0x29 off.toNat s.val
  | .j _ off => lJ 0x2A off.toNat
  | .jal _ off => lJ 0x2B off.toNat
  | .jr _ s => lR 0x2C 0x000 0 s.val 0
  | .jalr _ d s => lR 0x2C 0x001 0 s.val d.val
  | .aluS _ fn d s => assigned (!(fn == 0 && d == 0 && s == 0)) (sRR 0 0 d.val s.val fn.val)
  | .addiS _ d imm => assigned (d != 0 || imm == 0) (sRI 0 1 d.val imm.toNat)
  | .moviS _ d imm => assigned (d != 0) (sRI 0 2 d.val imm.toNat)
  | .csetS _ cc d s => assigned (cc.val < 6) (sRR 0 3 d.val s.val cc.val)
  | .ldS _ t b off p => sLS 0 4 t.val b.val off.val (b2n p)
  | .stS _ t b off p => sLS 0 5 t.val b.val off.val (b2n p)
  | .lwS _ t b off p => sLS 0 6 t.val b.val off.val (b2n p)
  | .swS _ t b off p => sLS 0 7 t.val b.val off.val (b2n p)
  | .bzS _ s off => sRI 1 0 s.val off.toNat
  | .bnzS _ s off => sRI 1 1 s.val off.toNat
  | .jS _ off => sJ 1 2 off.toNat
  | .addaS _ d imm => sAI 1 3 d.val imm.toNat
  | .addspS _ imm => sJ 1 4 imm.toNat
  | .adS _ fn d s => assigned (fn.val < 7) (sAD 1 5 d.val s.val fn.val)
  | .ldspS _ t off => sRI 1 6 t.val off.toNat
  | .stspS _ t off => sRI 1 7 t.val off.toNat
  | .retS _ => sAI 2 0 0 0
  | .jrS _ s => sAI 2 0 1 (s.val * 2 ^ 5)
  | .jalrS _ s => sAI 2 0 2 (s.val * 2 ^ 5)
  | .movaS _ d s => sAI 2 0 3 (d.val * 2 ^ 5 + s.val * 2 ^ 2)
  | .brkS _ imm => sAI 2 0 4 imm.toNat
  | .shiS _ d dir sh => sRI 2 1 d.val (b2n dir * 2 ^ 6 + sh.val)
  | _ => none

end Sys2Proof.Machine
end

