-- ==== Sys2Proof/Machine/Debug.lean ====
section
/-! DEFINITION. Debug of a core: halt requests, the halted state, the comparators, and the exceptions of fetch and decoding
(R83, R85, R135, R506, R507). -/

namespace Sys2Proof.Machine

/-! ## CORE_DBG_CTL (R506) -/

/-- A halt request: HALT_REQ reads 1 until the core halts. -/
def State.requestHalt (s : State) (k : CoreId) : State :=
  let c := s.core k
  if c.halted then s else (s.setCore k { c with haltReq := true }).rfSet (.coreDbgCtl k) 0 0 1

/-- A halted core leaves the halted state; with STEP it halts again after one instruction. -/
def State.unhalt (s : State) (k : CoreId) : State :=
  let c := s.core k
  if !c.halted then s
  else (s.setCore k { c with halted := false, stepping := s.rb (.coreDbgCtl k) 2 }).rfSet (.coreDbgCtl k) 8 8 0

/-- A write to CORE_DBG_CTL: every field but HALT_REQ is ignored while invasive debug is disabled for the core's current world. -/
def State.dbgCtlWrite (s : State) (k : CoreId) (v : Word) : State :=
  let s := if s.invasive (s.pidOf k) (s.core k).inner then
      let s := s.rfSet (.coreDbgCtl k) 4 2 (fld v 4 2)
      if bit v 1 then s.unhalt k else s
    else s
  if bit v 0 then s.requestHalt k else s

/-- HALT_REQ (R506). -/
def execHaltReq (k : CoreId) (s : State) : Host.Outcome State Fault Refusal := .next (s.requestHalt k)

/-- RESUME: a write to CORE_DBG_CTL with RESUME set; `v` gives its other fields (R506). -/
def execResume (k : CoreId) (v : Word) (s : State) : Host.Outcome State Fault Refusal := .next (s.dbgCtlWrite k (v ||| 2#64))

/-- DEBUG_HALT: the pending request is taken at an instruction boundary, before every other event; run-ahead first restores its
checkpoint (R69, R156, R506). -/
def execDebugHalt (k : CoreId) (s : State) : Host.Outcome State Fault Refusal :=
  .next (if s.runs k && s.haltTakeable k then (s.raExit k).halt k else s)

/-! ## The comparators (R507) -/

def bpReg (k : CoreId) (i : Fin 16) (ctl : Bool) : Reg := if ctl then .coreBpCtl k i else .coreBpAddr k i

/-- A write to a comparator: an outer-world write that would set WORLD, or to a comparator whose WORLD is 1, is ignored with event
0x8043. -/
def State.bpWrite (s : State) (k : CoreId) (w : World) (i : Fin 16) (ctl : Bool) (v : Word) : State :=
  if w == .outer && (s.rb (.coreBpCtl k i) 8 || (ctl && bit v 8)) then s.bb 0x8043 (some (s.pidOf k)) 0xFF 0
  else s.rgWrite (bpReg k i ctl) false v

/-- BP_CTL_WRITE (R507). -/
def execBpCtlWrite (k : CoreId) (w : World) (i : Fin 16) (ctl : Bool) (v : Word) (s : State) : Host.Outcome State Fault Refusal :=
  .next (s.bpWrite k w i ctl v)

/-! ## Exceptions of the instruction stream (R83, R85) -/

/-- ILLEGAL_INSTRUCTION: execution reaches the halfword in bits [15:0] of `w`, with the next halfword in bits [31:16], and the encoding is
not assigned, or its must-be-zero bits are not zero (R81, R85). Where it is assigned nothing is raised here. -/
def execIllegalInstruction (k : CoreId) (w : BitVec 32) (s : State) : Host.Outcome State Fault Refusal :=
  .next (if (kosalDecode k w.toNat).isNone then s.illegal k (kosalLen w.toNat) else s)

/-- CAUSE 0x0C, a precise external abort on a fetch (R162, R163). -/
def excFetch (va : Word) (st : Nat) : Exc := Exc.of 0x0C st va

/-- Fetch a halfword: the exception it raises, if any (R83, R162, R163, R484). -/
def State.fetchHalf (s : State) (k : CoreId) (va : Word) : Res Unit :=
  let c := s.core k
  let (tr, s) := s.trRegs k
  (xlatePart c k tr .exec false (fun _ => none) va.toNat 2 s).bind fun p s =>
    match s.firewall k p.ppa c.inner false with
    | .inr (st, s) => .exc (excFetch va st) s
    | .inl da =>
      if s.refused.contains (s.pidOf k).val then .exc (excFetch va stUnavailable) s
      else if !(s.lineQuiet (da / 64)) || s.reqHold (clusterOf k) then .wait s
      else match s.rdo (da / 64) (s.pidOf k) with
        | (d, s) => if d.2 then .exc (excFetch va stPoison) (s.poisonUsed k p.ppa) else .ok () s

/-- INSTRUCTION_FETCH_FAULT: the fetch of the instruction at the pc, or of its second halfword, faults; the exception PC is the first
halfword's address and the address register the faulting one. Where no fault arises nothing changes. The width of an instruction whose
first halfword is not fetched is not known: W32 is then a free choice (R83, R162). -/
def execInstructionFetchFault (k : CoreId) (second : Bool) (s : State) : Host.Outcome State Fault Refusal :=
  let (w, s) := s.drawBool
  .next (s.run k (if second || w then 4 else 2) .stop fun s0 =>
    let pc := (s0.core k).pc
    match s0.fetchHalf k pc with
    | .exc e s => .exc e s
    | .wait s => .stay s
    | .ok _ s =>
      if !second then .stay s0
      else match s.fetchHalf k (pc + 2) with
        | .exc e s => .exc e s
        | _ => .stay s0)

end Sys2Proof.Machine
end

