-- ==== Sys2Proof/Machine/RegAccess.lean ====
section
/-! DEFINITION. Accesses to the package register space: which register an access names, who reaches it, and what a read returns and a
write does (R2–R5, R15–R18, R35). -/

namespace Sys2Proof.Machine

/-! ## What an access names (R2, R15, R17) -/

/-- The register that an access of `size` bytes names: naturally aligned and of the register's full width (R2). -/
def regAt (a size : Nat) : Option Reg :=
  match Reg.ofAddr a with
  | some r => if r.width = 8 * size ∧ a % size = 0 then some r else none
  | none => none

/-- The instances that a partition reaches at a PRS address (R17): none, one read-only, or one of its own. -/
inductive Reach where
  | foreign
  | readOnly
  | own
  deriving DecidableEq, Repr

def Reach.ofBool (b : Bool) : Reach := if b then .own else .foreign

/-- What a partition reaches in its register window under the layout in force (R17, R18). -/
def State.reach (s : State) (p : Pid) (a : Nat) : Reach :=
  if a < 0x01000000 then .ofBool (decide (a / 0x10000 < 216) && s.ownsCore p (Fin.ofNat 216 (a / 0x10000)))
  else if a < 0x01400000 then
    let g := (a - 0x01000000) / 0x10000
    .ofBool (decide (g < 36) && s.owner (Fin.ofNat 36 g) == some p)
  else if 0x06000000 ≤ a ∧ a < 0x07000000 then .ofBool ((a - 0x06000000) / 0x100000 == p.val)
  else if 0x07000000 ≤ a ∧ a < 0x08000000 then .ofBool ((a - 0x07000000) / 0x100000 == p.val)
  else if 0x08000000 ≤ a ∧ a < 0x08010000 then .ofBool ((a - 0x08000000) / 0x1000 == p.val)
  else if 0x09000000 ≤ a ∧ a < 0x09100000 then .ofBool ((a - 0x09000000) / 0x10000 == p.val)
  else if 0x0A000000 ≤ a ∧ a < 0x0A001000 then .readOnly
  else if 0x0A001000 ≤ a ∧ a < 0x0A011000 then .ofBool ((a - 0x0A001000) / 0x1000 == p.val)
  else if 0x0E000000 ≤ a ∧ a < 0x0E128000 then
    let d : DomainId := Fin.ofNat 296 ((a - 0x0E000000) / 0x1000)
    .ofBool (s.hasDom d && s.domPid d == some p)
  else .foreign

/-! ## The value read (R4) -/

/-- What a register reads as; `w` is the world of the reader. Two registers have a read effect: the interrupt acknowledge and the fault
record (R381, R395). -/
def State.regValue (s : State) (w : World) (r : Reg) : Nat × State :=
  match r with
  | .coreIntAckO k => s.intAck k w .outer
  | .coreIntAckI k => s.intAck k w .inner
  | .iotFaultHi p => ((s.rg r).toNat, s.iotPop p)
  | .pwrStatus d => ((setFld (s.rg r) 27 16 (min 0xFFF (s.inflight d))).toNat, s)
  | .fctRteData f => ((s.routeDataRead (.facet f)).toNat, s)
  | .netRteData p n => ((s.routeDataRead (.net { plane := p, node := n })).toNat, s)
  | _ => ((s.rg r &&& ~~~ r.maskWo).toNat, s)

/-! ## The effect of a write (R4, R35) -/

/-- A write to a register of a banked table is dropped while its bank is active or locked (R35). -/
def State.bankWrite (s : State) (cls : Nat) (bankB : Bool) (r : Reg) (v : Word) : State :=
  if s.bankLocked cls bankB then s.bankDrop cls r.addr else s.rgWrite r false v

/-- A slot table write: from the 45th slot after a plane's slot audit failed, its active bank may be written (R35, R481). -/
def State.slotWrite (s : State) (bankB : Bool) (pl : PlaneId) (r : Reg) (v : Word) : State :=
  if s.slotFree pl.val && bankB == s.bank 0 then s.rgWrite r false v else s.bankWrite 0 bankB r v

/-- A write to CLU_L2_CTL: LOCK_FILL, LOCK_DROP, and EN with its drain (R253, R255, R256). -/
def State.l2CtlWrite (s : State) (g : ClusterId) (v : Word) : State :=
  let was := s.rb (.cluL2Ctl g) 0
  let s := s.rgWrite (.cluL2Ctl g) false (setFld v 0 0 (b2n was))
  if bit v 0 && !was then s.l2Enable g else if !(bit v 0) && was then s.l2Disable g else s

/-- A write to a register of a sample ring of the other world is ignored (R522). -/
def State.smplWrite (s : State) (g : ClusterId) (w : World) (r : Reg) (v : Word) : State :=
  if s.smplDenied g w then s.bb 0x8043 (s.owner g) 0xFF 0 else s.rgWrite r false v

/-- A write to CHD_STRAND_CTL: TRAIN, TAKE_DOWN and MON_EN (R313, R316, R318). -/
def State.strandCtlWrite (s : State) (f : FacetId) (st : StrandId) (v : Word) : State :=
  let s := s.rfSet (.chdStrandCtl f st) 2 2 (fld v 2 2)
  let s := if bit v 1 then s.takeDown f st else s
  if bit v 0 then s.train f st else s

/-- The requests that wait at an arbiter's unit go on once it may grant. -/
def State.arbGo (s : State) (a : ArbId) : State :=
  match a with
  | .slice i => s.homeWake i
  | .pci rc => s.rcGo rc
  | _ => s

/-- A write to an arbiter's configuration; setting FREEZE starts the freeze, clearing it lets the arbiter grant (R294). -/
def State.arbCfgWrite (s : State) (a : ArbId) (v : Word) : State :=
  let was := s.rb (arbCfg a) 8
  let s := s.rgWrite (arbCfg a) false v
  if bit v 8 && !was then s.arbFreeze a else s.arbGo a

/-- A write to PSC_RAS_CTL: one that sets EN with an INTID below 16 is dropped (R474). -/
def State.rasCtlWrite (s : State) (p : Pid) (v : Word) : State :=
  if bit v 11 && decide (fld v 10 0 < 16) then s else s.rgWrite (.pscRasCtl p) false v

/-- A write to PSC_START_CTL: PL3 is written only by inner-world accesses (R498). -/
def State.startCtlWrite (s : State) (p : Pid) (w : World) (v : Word) : State :=
  let v := if w == .outer then setFld v 0 0 (s.rf (.pscStartCtl p) 0 0) else v
  s.rgWrite (.pscStartCtl p) false v

/-- A write to PSC_RING_STATUS (R397). -/
def State.ringStatusWrite (s : State) (p : Pid) (w : World) (v : Word) : State :=
  if s.ringDenied p w then s.ringDeny p else s.rgWrite (.pscRingStatus p) false v

/-- A write to LOC_SWAP_REQ: requests and DROP (R33, R35). -/
def State.swapReqWrite (s : State) (v : Word) : State :=
  let s := if bit v 4 then s.rfSet .locSwapReq 4 4 0 else s
  if fld v 3 0 = 0 then s else s.requestSwap (fld v 3 0)

/-- A write to PCI_CFG: another code retrains the complex's ports (R364). -/
def State.pciCfgWrite (s : State) (rc : Fin 8) (v : Word) : State :=
  if s.rf (.pciCfg rc) 2 0 = fld v 2 0 then s else s.setBifur rc.val (fld v 2 0)

/-- A write of a full-width value by an access of a world: the register's own rule where it has one, and otherwise its field access
codes (R4). -/
def State.regPut (s : State) (w : World) (r : Reg) (v : Word) : State :=
  match r with
  | .coreExecCtl k => s.execCtlWrite k v
  | .coreDbgCtl k => s.dbgCtlWrite k v
  | .coreBpAddr k i => s.bpWrite k w i false v
  | .coreBpCtl k i => s.bpWrite k w i true v
  | .cluL2Ctl g => s.l2CtlWrite g v
  | .cluL2Lock g => s.l2LockWrite g v
  | .cluSmplCtl g => s.smplCtlWrite g w v
  | .cluSmplBase g => s.smplWrite g w (.cluSmplBase g) v
  | .cluSmplHead g => s.smplWrite g w (.cluSmplHead g) v
  | .fctRteData f => s.routeDataWrite (.facet f) r.addr v
  | .netRteData p n => s.routeDataWrite (.net { plane := p, node := n }) r.addr v
  | .chdStrandCtl f st => s.strandCtlWrite f st v
  | .locLaneMap l => s.laneMapWrite (Fin.ofNat 12 (l.val / 6)) (Fin.ofNat 6 (l.val % 6)) v
  | .netSlotA p _ _ _ => s.slotWrite false p r v
  | .netSlotB p _ _ _ => s.slotWrite true p r v
  | .netArbCfg p n => s.arbCfgWrite (.net { plane := p, node := n }) v
  | .fctArbCfg f => s.arbCfgWrite (.facet f) v
  | .l3sArbCfg i => s.arbCfgWrite (.slice i) v
  | .pciArbCfg i => s.arbCfgWrite (.pci i) v
  | .netArbClassA _ _ => s.bankWrite 3 false r v
  | .netArbClassB _ _ => s.bankWrite 3 true r v
  | .fctArbClassA _ => s.bankWrite 3 false r v
  | .fctArbClassB _ => s.bankWrite 3 true r v
  | .l3sArbClassA _ => s.bankWrite 3 false r v
  | .l3sArbClassB _ => s.bankWrite 3 true r v
  | .pciArbClassA _ => s.bankWrite 3 false r v
  | .pciArbClassB _ => s.bankWrite 3 true r v
  | .l3sWaymaskA i q => s.wayWrite i false q v
  | .l3sWaymaskB i q => s.wayWrite i true q v
  | .hbmLpcA _ _ => s.bankWrite 2 false r v
  | .hbmLpcB _ _ => s.bankWrite 2 true r v
  | .pciPortOwnerA _ _ => s.bankWrite 2 false r v
  | .pciPortOwnerB _ _ => s.bankWrite 2 true r v
  | .pciCfg rc => s.pciCfgWrite rc v
  | .gmapEntryA i => s.gmapWrite false i v
  | .gmapEntryB i => s.gmapWrite true i v
  | .iotCtxRootO p => s.iotRootWrite p w false v
  | .iotCtxRootI p => s.iotRootWrite p w true v
  | .iotInvCmd p => s.iotInvWrite p w v
  | .irdIpi p => s.ipiWrite p v
  | .irdRoute p i => s.irdWrite p w i v
  | .drtRegionLo p i => s.drtWrite p w i false v
  | .drtRegionHi p i => s.drtWrite p w i true v
  | .pscSqBase p => s.ringBaseWrite p w false v
  | .pscCqBase p => s.ringBaseWrite p w true v
  | .pscRingCtl p => s.ringCtlWrite p w v
  | .pscSqTail p => s.doorbell p w false v
  | .pscCqHead p => s.doorbell p w true v
  | .pscRingStatus p => s.ringStatusWrite p w v
  | .pscDbgCtl p => s.dbgWrite p w v
  | .pscRasCtl p => s.rasCtlWrite p v
  | .pscStartCtl p => s.startCtlWrite p w v
  | .locSwapReq => s.swapReqWrite v
  | .pwrCtl d => s.pwrCtlWrite d w v
  | .pwrPerf d => s.perfWrite d w v
  | _ => s.rgWrite r false v

/-! ## Accesses -/

/-- A malformed access: event 0x8001 with the page (R2). -/
def State.malformed (s : State) (p : Option Pid) (page : Nat) : State := s.bb 0x8001 p 0xFF page

/-- A foreign access: event 0x8002 with the PID and the page, coalesced (R17, R52). -/
def State.foreign (s : State) (p : Pid) (page : Nat) : State := s.bbCoal 0x8002 p 0xFF page

/-- The PPA page of a register in the register window (R16). -/
def winPage (a : Nat) : Nat := 0xFFF000000 + a / 4096

/-- A register write of a partition through its register window. -/
def State.winWrite (s : State) (p : Pid) (w : World) (a size v : Nat) : State :=
  match s.reach p a with
  | .foreign => s.foreign p (winPage a)
  | .readOnly => if (regAt a size).isSome then s.foreign p (winPage a) else s.malformed (some p) (winPage a)
  | .own =>
    match regAt a size with
    | some r => s.regPut w r (BitVec.ofNat 64 v)
    | none => s.malformed (some p) (winPage a)

/-- A register read of a partition through its register window. -/
def State.winRead (s : State) (p : Pid) (w : World) (a size : Nat) : Nat × State :=
  match s.reach p a with
  | .foreign => (0, s.foreign p (winPage a))
  | _ =>
    match regAt a size with
    | some r => s.regValue w r
    | none => (0, s.malformed (some p) (winPage a))

/-- A register write of the PSC or of the test access, which reach the whole register space (R15). -/
def State.prsWrite (s : State) (a size v : Nat) : State :=
  match regAt a size with
  | some r => s.regPut .inner r (BitVec.ofNat 64 v)
  | none => s.malformed none (a / 4096)

/-- A register read of the PSC or of the test access. -/
def State.prsRead (s : State) (a size : Nat) : Nat × State :=
  match regAt a size with
  | some r => s.regValue .inner r
  | none => (0, s.malformed none (a / 4096))

/-- The world of a core. -/
def coreWorld (c : Core) : World := if c.inner then .inner else .outer

/-- The test access reaches the register space: always in BLANK, in PROVISIONED and SERVICE while no partition is RUNNING (R501). -/
def State.prsOpen (s : State) : Bool :=
  let lc := s.lifeCycle
  lc == 0 || ((lc == 1 || lc == 3) && (List.range 16).all fun p => s.partState (Fin.ofNat 16 p) != 2)

/-- REGISTER_WRITE: by the PSC, by the test access while the life-cycle state permits it, or by a core of a partition (R2, R4, R15, R17,
R501). -/
def execRegisterWrite (ag : Agent) (addr size : Nat) (v : Word) (s : State) : Host.Outcome State Fault Refusal :=
  .next (match ag with
  | .psc => s.prsWrite addr size v.toNat
  | .tap => if s.prsOpen then s.prsWrite addr size v.toNat else s
  | .core k => s.winWrite (s.pidOf k) (coreWorld (s.core k)) addr size v.toNat)

end Sys2Proof.Machine
end

