-- ==== Sys2Proof/Machine/Bridge.lean ====
section
/-! DEFINITION. Device accesses at the I/O bridge and their end at the core, and the PSC's register accesses over the Net
(R16, R17, R209–R216, R269, R270, R367, R368). -/

namespace Sys2Proof.Machine

/-! ## A device request (R270) -/

/-- The core that a request names. -/
def bridgeCore (m : Msg) : CoreId := Fin.ofNat 216 (6 * (m.src.toNat % 36) + m.score.val % 6)
/-- The PPA and size of a device request. -/
def reqPpa (m : Msg) : Nat := 64 * m.ln + m.arg.toNat % 64
def reqSize (m : Msg) : Nat := 2 ^ fld m.arg 8 6
def reqWorld (m : Msg) : World := if m.inner then .inner else .outer
/-- The value of a write. -/
def reqValue (m : Msg) : Nat := lineGet m.data (reqPpa m % 64) (reqSize m)

/-- The bridge's answer to a request, before its own fields. -/
def bridgeBack (m : Msg) : Msg := { m with src := 0x2C, dst := m.src, arg := 0, data := 0, poison := false }

def State.bridgeErr (s : State) (m : Msg) (st : Nat) : State := s.send .err { bridgeBack m with arg := BitVec.ofNat 64 st }
/-- A write is done: DCMP. -/
def State.bridgeDone (s : State) (m : Msg) : State := s.send .dcmp (bridgeBack m)
/-- A read returns a value: DRR. -/
def State.bridgeData (s : State) (m : Msg) (v : Nat) : State :=
  s.send .drr { bridgeBack m with data := linePut 0 (reqPpa m % 64) (reqSize m) v }

/-- An access that completes at once: a read returns a value, a write is done. -/
def State.bridgeNow (s : State) (m : Msg) (write : Bool) (v : Nat) : State := if write then s.bridgeDone m else s.bridgeData m v

/-! ## The register window (R16–R18) -/

/-- An access to the register window, performed at once. -/
def State.bridgeReg (s : State) (m : Msg) (write : Bool) (a : Nat) : State :=
  if write then (s.winWrite m.pid (reqWorld m) a (reqSize m) (reqValue m)).bridgeDone m
  else
    let (v, s) := s.winRead m.pid (reqWorld m) a (reqSize m)
    s.bridgeData m v

/-! ## Configuration space (R367)

The type 1 header of a root port has the PCI layout: the command register, the bus numbers, and the base and limit registers of its
windows are kept; I/O windows read zero; every other byte that the specification does not describe reads as a free value. -/

/-- The header bytes that are kept. -/
def cfgKept (i : Nat) : Bool := decide (i = 0x04 ∨ i = 0x05 ∨ (0x18 ≤ i ∧ i ≤ 0x1A) ∨ (0x20 ≤ i ∧ i ≤ 0x2F))
/-- The low bits of a base or limit register are not written. -/
def cfgMask (i : Nat) : Byte := if i = 0x20 ∨ i = 0x22 ∨ i = 0x24 ∨ i = 0x26 then 0xF0 else 0xFF
/-- The bits that read as ones: 64-bit prefetchable windows, and header type 1. -/
def cfgOnes (i : Nat) : Byte := if i = 0x24 ∨ i = 0x26 ∨ i = 0x0E then 1 else 0
/-- The bytes that read zero besides: the I/O windows. -/
def cfgZero (i : Nat) : Bool := decide (i = 0x0E ∨ i = 0x1C ∨ i = 0x1D ∨ (0x30 ≤ i ∧ i ≤ 0x33))

/-- One header byte, given the free value for a byte that is not described. -/
def PortSt.cfgByte (x : PortSt) (i : Nat) (free : Byte) : Byte :=
  if cfgKept i then x.cfg.get 0 i ||| cfgOnes i else if cfgZero i then cfgOnes i else free

/-- Read bytes of a header. -/
def PortSt.cfgRead (x : PortSt) (i n free : Nat) : Nat :=
  bytesNat ((List.range n).map fun j => x.cfgByte (i + j) (BitVec.ofNat 8 (free / 2 ^ (8 * j))))

/-- Write bytes of a header. -/
def PortSt.cfgWrite (x : PortSt) (i n v : Nat) : PortSt :=
  { x with cfg := (List.range n).foldl (fun t j =>
      if cfgKept (i + j) then t.set 0 (i + j) (BitVec.ofNat 8 (v / 2 ^ (8 * j)) &&& cfgMask (i + j)) else t) x.cfg }

/-- A number of the header. -/
def PortSt.cfgNat (x : PortSt) (i n : Nat) : Nat := x.cfgRead i n 0

/-- The memory windows contain a PCIe address. -/
def PortSt.window (x : PortSt) (a : Nat) : Bool :=
  let mega (i : Nat) : Nat := x.cfgNat i 2 / 16
  let upper (i : Nat) : Nat := x.cfgNat i 4 * 2 ^ 32
  let lo := mega 0x20 * 2 ^ 20
  let hi := mega 0x22 * 2 ^ 20 + (2 ^ 20 - 1)
  let plo := upper 0x28 + mega 0x24 * 2 ^ 20
  let phi := upper 0x2C + mega 0x26 * 2 ^ 20 + (2 ^ 20 - 1)
  (x.cfgByte 4 0).getLsbD 1 && (decide (lo ≤ a ∧ a ≤ hi) || decide (plo ≤ a ∧ a ≤ phi))

/-- A port has the bus behind it. -/
def PortSt.hasBus (x : PortSt) (b : Nat) : Bool := decide (x.cfgNat 0x19 1 ≤ b ∧ b ≤ x.cfgNat 0x1A 1 ∧ 0 < x.cfgNat 0x19 1)

/-- Where a device access goes: to the core at once with a value, refused with a status, or to a device behind a port. -/
inductive DevGoes where
  | now (v : Nat) (s : State)
  | refused (st : Nat)
  | port (port : PortId)

/-- All ones of the access's size. -/
def ones (n : Nat) : Nat := 2 ^ (8 * n) - 1

/-- A configuration access (R367). A function behind a port that is not up does not answer: the port returns UR. -/
def State.cfgAccess (s : State) (m : Msg) (write : Bool) : DevGoes :=
  let o := reqPpa m % 2 ^ 28
  let bus := o / 2 ^ 20
  let dev := o / 2 ^ 15 % 32
  let fn := o / 2 ^ 12 % 8
  let reg := o % 4096
  let none_ : DevGoes := .now (ones (reqSize m)) s
  if bus = 0 then
    let port : PortId := Fin.ofNat 32 dev
    if fn ≠ 0 || !(s.hasPort port) || s.portOwner port != some m.pid then none_
    else if write then .now 0 (s.setPortSt port ((s.portSt port).cfgWrite reg (reqSize m) (reqValue m)))
    else
      let (f, s) := State.drawBytes 8 s
      .now ((s.portSt port).cfgRead reg (reqSize m) (bytesNat f)) s
  else
    match (s.portsOf m.pid).find? fun port => (s.portSt port).hasBus bus with
    | none => none_
    | some port =>
      if s.portState port = 2 then .port port
      else if s.portState port = 3 then .refused stUnavailable
      else none_

/-- An access to the memory BAR range (R368). -/
def State.barAccess (s : State) (m : Msg) : DevGoes :=
  match (s.portsOf m.pid).find? fun port => (s.portSt port).window (reqPpa m - 0xFFF080000000) with
  | none => .refused stUnavailable
  | some port => if s.portState port = 2 then .port port else .refused stUnavailable

/-! ## Acceptance (R210, R213–R216) -/

/-- The bridge issues an access toward a device: its watchdog is armed, the port's counts follow, and a store to an early-acknowledge
region is acknowledged (R210, R213, R215, R514). The bytes written are delivered in `reply`. -/
def State.bridgeIssue (s : State) (m : Msg) (write : Bool) (port : PortId) (region : Option (Fin 64)) (bar : Bool) : State :=
  let early := write && bar && match region with | some r => s.rb (.drtRegionLo m.pid r) 2 | none => false
  let a : DevAcc := {
    id := s.devNext, core := bridgeCore m, ppa := reqPpa m, size := reqSize m, write := write, port := some port.val, region := region.map (·.val),
    early := early, orphan := false, armed := s.tick, timeout := s.drtTimeout m.pid region }
  let s := { s with devs := s.devs ++ [a], devNext := s.devNext + 1 }
  let s := s.portCount 3 m.pid port.val (if write then 1 else 0) (reqSize m)
  let s := if write then { s with reply := natBytes (reqValue m) (reqSize m) } else s
  if early then s.bridgeDone m else s

/-- A device access reaches the I/O bridge: the DRT first, then the range of the MMIO window (R16, R213, R214, R216). -/
def State.bridgeAccess (s : State) (m : Msg) (write : Bool) : State :=
  let ppa := reqPpa m
  let region := s.drtFind m.pid ppa
  let inner := match region with | some r => s.rb (.drtRegionLo m.pid r) 1 | none => false
  let dead := match region with | some r => s.rb (.drtRegionLo m.pid r) 3 | none => false
  if !(inMmio ppa) then s
  else if inner && !m.inner then (s.bbCoal 0x8030 m.pid 0xFF (ppa / 4096)).bridgeErr m stWorld
  else if dead then s.bridgeErr m stDeviceTimeout
  else if ppa < 0xFFF020000000 then s.bridgeReg m write (ppa - 0xFFF000000000)
  else if 0xFFF100000000 ≤ ppa then
    match s.barAccess m with
    | .now v s => s.bridgeNow m write v
    | .refused st => s.bridgeErr m st
    | .port port => s.bridgeIssue m write port region true
  else if 0xFFF040000000 ≤ ppa ∧ ppa < 0xFFF050000000 then
    match s.cfgAccess m write with
    | .now v s => s.bridgeNow m write v
    | .refused st => s.bridgeErr m st
    | .port port => s.bridgeIssue m write port region false
  else (s.foreign m.pid (ppa / 4096)).bridgeNow m write 0

/-- DRD: a device read reaches the I/O bridge (R209); at a device target it has no effect on the package until its answer. -/
def execDrd (m : Msg) (s : State) : Host.Outcome State Fault Refusal :=
  .next (s.onArrival .drd m fun s => if m.dst = 0x2C then s.bridgeAccess m false else s)

/-- DWR: a device write reaches the I/O bridge (R209). -/
def execDwr (m : Msg) (s : State) : Host.Outcome State Fault Refusal :=
  .next (s.onArrival .dwr m fun s => if m.dst = 0x2C then s.bridgeAccess m true else s)

/-! ## Answers (R209, R210, R484) -/

/-- An access is no longer in flight. -/
def State.devDrop (s : State) (a : DevAcc) : State := { s with devs := s.devs.filter fun x => x.id != a.id }

/-- The bridge's own acknowledgement of a device store reaches its core (R210). -/
def State.storeAck (s : State) (k : CoreId) (ln : Nat) : State :=
  match s.dqAnswered k ln with
  | some e => (s.dqAck k e.ppa).sleepSettle k
  | none => s

/-- The target has performed the write of an access in flight, which is acknowledged unless it was before; a core that has been reset since
waits for nothing (R210, R217). -/
def State.devWritten (s : State) (a : DevAcc) : State :=
  if a.early || a.orphan then s.devDrop a else ((s.devDrop a).dqAck a.core a.ppa).sleepSettle a.core

/-- DCMP: the bridge's acknowledgement reaches the core, or the target has performed the write of an access in flight, the next that it
performs (R209, R210). -/
def execDcmp (m : Msg) (s : State) : Host.Outcome State Fault Refusal :=
  .next (if s.msgs.contains (MsgKind.dcmp, m) then s.onArrival .dcmp m fun s => s.storeAck (msgCore m) m.ln
  else match s.devOf m (·.write) with
    | some a => s.devWritten a
    | none => s)

/-- The value of a device load reaches its core: it completes as a load does, or takes a precise abort for poisoned data (R209, R484). -/
def State.devLoaded (s : State) (k : CoreId) (m : Msg) : State :=
  let c := s.core k
  match c.wait with
  | none => s
  | some w =>
    if w.ppa / 64 ≠ m.ln then s
    else
      let s := (s.setCore k { c with wait := none, stale := staleLoad c.stale }).tlbPop k true
      if m.poison then ((s.poisonUsed k w.ppa).takeExc k (excAbort w.va.toNat stPoison 0) (w.len == 4)).settleSnoops
      else
        let o : LoadOp := { n := w.size, sign := w.sign, dst := w.dst, fwd := false, stream := false, base := 0, upd := w.upd, len := w.len }
        let v := lineGet m.data (w.ppa % 64) w.size
        let s := (s.setCore k (((s.core k).loaded o v).adv w.len)).count k 0x19 1 c.pl c.inner
        let s := (s.count k 0x02 1 c.pl c.inner).smplClose k c.pc 0
        (if c.stepping then s.halt k else s).settleSnoops

/-- DRR: device read data reaches the core: the bridge's own answer, or what the target returned for the read in flight that it performs
next (R209, R210). -/
def execDrr (m : Msg) (s : State) : Host.Outcome State Fault Refusal :=
  .next (if s.msgs.contains (MsgKind.drr, m) then s.onArrival .drr m fun s => s.devLoaded (msgCore m) m
  else match s.devOf m fun a => !a.write with
    | some a => if a.orphan then s.devDrop a else (s.devDrop a).devLoaded a.core m
    | none => s)

/-! ## The PSC's register accesses over the Net (R15, R269)

The specification gives MRD and MWR no ARG: the message's address is the PRS address, its data the value, and the access has the
register's own width. -/

/-- The width in bytes of the register at a PRS address; 4 where none lies there. -/
def regBytes (a : Nat) : Nat := match Reg.ofAddr a with | some r => r.width / 8 | none => 4

/-- The completion of a register access. -/
def mgtBack (m : Msg) (v : Nat) : Msg := { m with src := m.dst, dst := m.src, data := BitVec.ofNat 512 v, poison := false }

/-- MRD (R269). -/
def execMrd (m : Msg) (s : State) : Host.Outcome State Fault Refusal :=
  .next (s.onArrival .mrd m fun s =>
    let (v, s) := s.prsRead m.ln (regBytes m.ln)
    s.send .mcmp (mgtBack m v))

/-- MWR (R269). -/
def execMwr (m : Msg) (s : State) : Host.Outcome State Fault Refusal :=
  .next (s.onArrival .mwr m fun s =>
    (s.prsWrite m.ln (regBytes m.ln) (m.data.toNat % 2 ^ 64)).send .mcmp (mgtBack m 0))

/-- MCMP: the PSC has the completion of its access; the value read is delivered in `reply` (R269). -/
def execMcmp (m : Msg) (s : State) : Host.Outcome State Fault Refusal :=
  .next (s.onArrival .mcmp m fun s => { s with reply := natBytes m.data.toNat 8 })

end Sys2Proof.Machine
end

