-- ==== Sys2Proof/Machine/TestPort.lean ====
section
/-! DEFINITION. Attestation, the life cycle and the test port: SPDM answers, transition requests, the TAPs' instructions and the
instruments of the dies (R500–R505). -/

namespace Sys2Proof.Machine

/-! ## Attestation (R500, R408) -/

/-- A message of free bytes and of free length, up to 65,535: SPDM messages are laid out by that standard and signed with a key that
never leaves the PSC. -/
def State.spdmAnswer (s : State) : List Byte × State :=
  let (v, s) := s.draw
  let n := v.toNat % 65536
  let (bs, s) := State.drawBytes (n / 8 + 1) s
  (bs.take n, s)

/-- The response buffer of ATTEST is misaligned or refused for the ring's partition and world (R407). -/
def State.respBad (s : State) (p : Pid) (ppa n : Nat) : Bool :=
  ppa % 64 != 0 || !(s.linesOk p (s.ringInner p) ppa ((n + 63) / 64))

/-- The work of ATTEST: the response goes to its buffer, cut to the buffer's length; for the owner ring it is inline (R407, R416). -/
def State.attest (s : State) (j : Job) : State :=
  let ppa := (j.arg 0).toNat
  let n := fld (j.arg 1) 15 0
  match j.ring with
  | .owner =>
    let (out, s) := s.spdmAnswer
    s.completeFit j 0 0 out
  | .part p =>
    if s.respBad p ppa n then s.complete j scBufFault 0 0
    else
      let (out, s) := s.spdmAnswer
      let now := out.take n
      s.ends { job := j, status := if n < out.length then scTruncated else scSuccess, r0 := 0, r1 := 0, len := now.length, ppa := ppa, out := now }

/-- ATTEST (R408, R500). -/
def execAttest (ring : Ring) (s : State) : Host.Outcome State Fault Refusal :=
  .next (s.ringCommand ring {
    op := 0x0B, fn := fun _ => true, owner := forAll, bad := fun _ j => j.firstBad [2 ^ 64 - 1, 0xFFFF] [], usesBuf := true,
    work := State.attest })

/-- SPDM_REQUEST: the PSC answers on the owner bus; in FATAL it serves no ring and no message (R477, R500). -/
def execSpdmRequest (req : List Byte) (s : State) : Host.Outcome State Fault Refusal :=
  .next (if s.fatal || req.isEmpty then s else
    let (out, s) := s.spdmAnswer
    { s with reply := out })

/-! ## The life cycle (R501, R502) -/

/-- Whether the PSC accepts a transition request: the target follows the present state, or is SCRAPPED; a token where one is needed; no
unexported records; and from BLANK a sealed Meter (R502). -/
def State.lifeCycleOk (s : State) (target : Nat) (token : Bool) : Bool :=
  let lc := s.lifeCycle
  let follows := (target == lc + 1 && decide (target ≤ 4)) || (target == 4 && lc != 4)
  let needs := (lc == 0 && target == 1) || (lc == 2 && target == 3)
  follows && (!needs || token) && s.rf .bbxStatus 44 32 == 0 && (lc != 0 || bit s.meter.st 0)

/-- LIFECYCLE_REQUEST: the request is held until the next cold reset, or refused and cleared; the instrument reports which (R502). -/
def execLifecycleRequest (target : Fin 8) (token : Bool) (s : State) : Host.Outcome State Fault Refusal :=
  let ok := s.lifeCycleOk target.val token
  .next { s with psc := { s.psc with lcReq := if ok then some target.val else none }, reply := [BitVec.ofNat 8 (b2n ok)] }

/-! ## The TAPs (R504) -/

/-- The die of a chain position has its power: a Facet without it is replaced by one bit of the Centroid. -/
def State.diePowered (s : State) (die : Fin 13) : Bool :=
  decide (die.val = 12) || s.rf (.pwrStatus (Fin.ofNat 296 (252 + die.val))) 1 0 != 3

def State.tap (s : State) (die : Fin 13) : Tap := s.taps.get Tap.reset die.val
def State.setTap (s : State) (die : Fin 13) (t : Tap) : State := { s with taps := s.taps.set Tap.reset die.val t }

/-- Select an instruction of a die's TAP; one that is not permitted selects BYPASS, and a die without power has none. -/
def State.tapSelect (s : State) (die : Fin 13) (ok : Bool) (ir : Nat) (bsr : Option Word) : State :=
  if !(s.diePowered die) then s
  else if !ok then s.setTap die { s.tap die with ir := 0 }
  else s.setTap die { ir := ir, bsr := bsr.getD (s.tap die).bsr }

/-- A partition is RUNNING. -/
def State.anyRunning (s : State) : Bool := (List.range 16).any fun p => s.partState (Fin.ofNat 16 p) == 2

/-- R501 permits every instrument: BLANK, PROVISIONED and SERVICE. -/
def State.allInstruments (s : State) : Bool := s.lifeCycle == 0 || s.lifeCycle == 1 || s.lifeCycle == 3

/-- EXTEST, CLAMP and HIGHZ are permitted. -/
def State.pinsOk (s : State) : Bool := s.allInstruments && !s.anyRunning

/-- TAP_RESET: TRST_N resets every TAP; IDCODE is then selected, as IEEE 1149.1 has it. -/
def execTapReset (s : State) : Host.Outcome State Fault Refusal := .next { s with taps := [] }

/-- BYPASS. -/
def execBypass (die : Fin 13) (s : State) : Host.Outcome State Fault Refusal := .next (s.tapSelect die true 0 none)

/-- The IDCODE of a die: stepping 0 for B0 and 1 for B1, part, manufacturer, and 1. -/
def idcodeOf (die : Fin 13) : BitVec 32 :=
  let step : Nat := b2n Config.isB1
  let part : Nat := if die.val = 12 then 0xD216 else 0xF216
  BitVec.ofNat 32 (step * 2 ^ 28 + part * 2 ^ 12 + Config.mfrId.toNat * 2 + 1)

/-- IDCODE: selected and shifted out. -/
def execIdcode (die : Fin 13) (s : State) : Host.Outcome State Fault Refusal :=
  .next (if s.diePowered die then { (s.tapSelect die true 1 none) with reply := natBytes (idcodeOf die).toNat 4 } else s)

/-- SAMPLE/PRELOAD: the boundary register samples the pins, whose levels are given from outside and are free here, and holds `v` for a
later EXTEST; refused in SCRAPPED (R501). -/
def execSamplePreload (die : Fin 13) (v : Word) (s : State) : Host.Outcome State Fault Refusal :=
  .next (if !(s.diePowered die) then s
    else if s.lifeCycle = 4 then s.tapSelect die false 2 none
    else
      let (pins, s) := State.drawBytes 1 s
      { (s.tapSelect die true 2 (some v)) with reply := pins })

/-- EXTEST: the boundary register drives the pins. -/
def execExtest (die : Fin 13) (v : Word) (s : State) : Host.Outcome State Fault Refusal := .next (s.tapSelect die s.pinsOk 3 (some v))
/-- CLAMP. -/
def execClamp (die : Fin 13) (s : State) : Host.Outcome State Fault Refusal := .next (s.tapSelect die s.pinsOk 4 none)
/-- HIGHZ. -/
def execHighz (die : Fin 13) (s : State) : Host.Outcome State Fault Refusal := .next (s.tapSelect die s.pinsOk 5 none)

/-- IJTAG_CONNECT: the die's IEEE 1687 network is connected, unless the package is SCRAPPED (R501, R504). -/
def execIjtagConnect (die : Fin 13) (s : State) : Host.Outcome State Fault Refusal :=
  .next (s.tapSelect die (s.lifeCycle != 4) 6 none)

/-! ## The instruments (R505) -/

/-- PRS_ACCESS: a read or a write of the register space, as R501 permits. -/
def execPrsAccess (addr size : Nat) (wr : Bool) (v : Word) (s : State) : Host.Outcome State Fault Refusal :=
  .next (if !s.prsOpen then s
    else if wr then s.prsWrite addr size v.toNat
    else
      let (x, s) := s.prsRead addr size
      { s with reply := natBytes x size })

/-- Give a value of the debug instrument. -/
def State.shiftOut (s : State) (v n : Nat) : State := { s with reply := natBytes v n }

/-- An access to the registers of a halted core. -/
def State.haltedAccess (s : State) (k : CoreId) (op : DbgOp) : State :=
  let c := s.core k
  if !c.halted then s else
  match op with
  | .readD r => s.shiftOut (c.rd r).toNat 8
  | .writeD r v => s.setCore k (c.wd r v)
  | .readA r => s.shiftOut (c.ra' r).toNat 8
  | .writeA r v => s.setCore k (c.wa r v)
  | .readQ r => s.shiftOut (c.rq r).toNat 64
  | .writeQ r v => s.setCore k (c.wq r v)
  | .readPc => s.shiftOut c.pc.toNat 8
  | .writePc v => s.setCore k { c with pc := v &&& ~~~ 1#64 }
  | .readSys n =>
    if srnListed n.toNat then
      let (v, s) := s.mfsValue k n.toNat
      s.shiftOut v.toNat 8
    else s
  | .writeSys n v => if srnListed n.toNat && !(srnRo n.toNat) then (s.mtsLook k n.toNat).setCore k (((s.mtsLook k n.toNat).core k).mts n.toNat v) else s
  | _ => s

/-- CORE_DEBUG_ACCESS: it acts only while invasive debug is enabled for the core's world, and not in SCRAPPED (R65, R501, R505). -/
def execCoreDebugAccess (k : CoreId) (op : DbgOp) (s : State) : Host.Outcome State Fault Refusal :=
  let c := s.core k
  .next (if s.lifeCycle == 4 || !(s.invasive (s.pidOf k) c.inner) then s else
    match op with
    | .readCtl => s.shiftOut (s.rg (.coreDbgCtl k)).toNat 4
    | .writeCtl v => s.dbgCtlWrite k (v.setWidth 64)
    | .readBp i ctl => s.shiftOut (s.rg (bpReg k i ctl)).toNat 8
    | .writeBp i ctl v => s.bpWrite k (coreWorld c) i ctl v
    | .reset => s.coreReset k
    | _ => s.haltedAccess k op)

/-- TRACE_ACCESS: the non-invasive view of a core: its pc and its event counters (R65, R505). -/
def execTraceAccess (k : CoreId) (s : State) : Host.Outcome State Fault Refusal :=
  let c := s.core k
  .next (if s.lifeCycle == 4 || !(s.nonInvasive (s.pidOf k) c.inner) then s
    else
      let s := s.pmcSettle k
      { s with reply := natBytes c.pc.toNat 8 ++ (List.range 8).flatMap fun i => natBytes ((s.core k).rsys (Srn.pmc0 + i)).toNat 8 })

/-- MEMORY_BIST: memory BIST or scan, in BLANK and SERVICE only, within a Facet reset or a cold reset that the instrument starts (R505). -/
def execMemoryBist (unit : BistUnit) (s : State) : Host.Outcome State Fault Refusal :=
  .next (if s.lifeCycle ≠ 0 ∧ s.lifeCycle ≠ 3 then s else
    match unit with
    | .facet f => s.facetReset f
    | .package => s.coldReset false)

end Sys2Proof.Machine
end

