-- ==== Sys2Proof/Machine/Tick.lean ====
section
/-! DEFINITION. The tick boundary: everything that takes place when LOC_TICK_NUM advances (R22, R23, R32, R33, R37, R40, R42, R52, R56,
R214, R309, R316, R320, R423, R439, R489, R498, R515). -/

namespace Sys2Proof.Machine

/-- The coalesced refusals of the tick become records, with the page in ARG [39:0] and the count in [47:40] (R52, R487). -/
def State.coalFlush (s : State) : State :=
  s.coal.foldl (fun (s : State) c => s.bb c.code (some c.pid) c.inst (c.page % 2 ^ 40 + c.count * 2 ^ 40)) { s with coal := [] }

/-- What is over with the tick: duties of the Meter's mirrors, dump writes, refusals, and the reference of the tick (R22, R32, R52, R443). -/
def State.tickEnd (s : State) (ppm : Option Int) : State :=
  let s := s.passTo 1999
  let s : State := (List.range 16).foldl (fun (s : State) p => s.dumpOverrun (Fin.ofNat 16 p)) s
  s.coalFlush.refSeen ppm

/-- The counts of a feed row: what commands showed and what the feed adds (R423). -/
def State.feedRow (s : State) (row : Nat) (more : List Nat) : List Nat :=
  (List.range 17).map fun b => s.meter.acts.get 0 (17 * row + b) + more.getD b 0

/-- The Meter latches what it knows of the tick that ends, with the layout in force in it (R423). -/
def State.meterLatch (s : State) : State :=
  let m := s.meter
  let n := m.now
  let rows (first cnt : Nat) (l : List (List Nat)) : List (List Nat) := (List.range cnt).map fun i => s.feedRow (first + i) (l.getD i [])
  let last : Feeds :=
    { n with net := n.net.map (s.feedRow 0), l3 := n.l3.map (s.feedRow 1), hbm := n.hbm.map (rows 2 8), chord := n.chord.map (rows 10 12),
             lay := s.mtrLay, free := s.rb .locTickStatus 1 }
  { s with meter := { m with last := last, now := Feeds.empty, acts := [], due := true } }

/-- Records beyond 64 of the tick that ended are reported with event 0x0020 (R489). -/
def State.bbxTick (s : State) : State :=
  let lost := s.bbx.lostTick
  let s := { s with bbx := { s.bbx with wrote := 0, lostTick := 0 } }
  if lost = 0 then s else s.bb 0x0020 none 0 (min 255 lost)

/-- The tick number advances; per-tick counts begin again, and the markers of the planes have reached every router (R23, R24, R38, R301,
R403). -/
def State.tickNext (s : State) : State :=
  let s := s.rgSet .locTickNum (BitVec.ofNat 64 (s.tick + 1))
  let s := { s with cycle := 0, marker := none, msgs := s.msgs.filter (fun x => x.1 != MsgKind.markMsg), psc := { s.psc with consumed := [] },
                    net := { s.net with routers := s.net.routers.mapVals Router.empty fun _ r => { r with replays := [] } } }
  s.bbxTick

/-- A class was captured for this boundary (R33). -/
def State.swaps (s : State) (cls : Nat) : Bool :=
  match s.psc.captured with
  | some (set, _) => set.getLsbD cls
  | none => false

/-- The captured adjust is applied; its TIME_SYNC completes with the tick and the new offset (R40, R408). -/
def State.timeStep (s : State) : State :=
  let (s, job) := s.adjustTime
  match job.bind fun n => s.psc.jobs.find? fun j => j.id == n with
  | some j => s.complete j scSuccess s.tick (s.rg .locTimeOfs).toNat
  | none => s

/-- What waits for a boundary goes on (R56, R214, R408, R439, R492, R495, R498, R515). -/
def State.boundaryWork (s : State) (was : State) : State :=
  let s := s.resizeAll.resetsGo.partResetsGo.drtApply
  let s : State := (List.range 16).foldl (fun (s : State) p => s.dumpTick (Fin.ofNat 16 p)) s
  (s.releaseDue.bootAdvance was).paramApply.powerDone.ceWindows

/-- What waits for lines, trackers or an arbiter's grant goes on as far as it can (R237, R292, R404). -/
def State.resume (s : State) : State := s.homesWake.rcsGo.finishRun

/-- No command waits: one Net cycle of the tick passes, up to the last one before the boundary (R21), and what waits goes on. -/
def State.elapse (s : State) : State := s.resume.idle

/-- The boundary (R23): the tick ends, the number advances, the captured swaps and the adjust take effect together (R33, R40), and
what waits for a boundary goes on. The state that the audits of the new tick read latches then (R23). -/
def State.boundary (s : State) (ppm : Option Int) : State :=
  let s := s.tickEnd ppm
  let was := s
  let slot := s.swaps 0
  let gmap := s.swaps 2
  let s := s.meterLatch.tickNext.swapBanks.timeStep.resyncDone.chordTick
  let s := if slot then s.withdrawTokens.slotDone else s
  let s := if gmap then s.hbmSwap.resizeSwapped.facetsOn else s
  ((s.genStep was).boundaryWork was).resume.latchNow

/-- TICK_BOUNDARY: `ppm` is the offset of the reference in the tick that ends, none while it is absent (R22, R23). -/
def execTickBoundary (ppm : Option Int) (s : State) : Host.Outcome State Fault Refusal := .next (s.boundary ppm)

end Sys2Proof.Machine
end

