-- ==== Sys2Proof/Machine/Dispatch.lean ====
section
/-! DEFINITION. The dispatch of a command to its meaning: one arm per constructor of Instr. -/

namespace Sys2Proof.Machine

def exec (i : Instr) (s : State) : Host.Outcome State Fault Refusal :=
  match i with
  | .registerWrite ag addr size v => Sys2Proof.Machine.execRegisterWrite ag addr size v s
  | .tickBoundary ppm => Sys2Proof.Machine.execTickBoundary ppm s
  | .referenceAbsent => Sys2Proof.Machine.execReferenceAbsent s
  | .refWindowTimeout => Sys2Proof.Machine.execRefWindowTimeout s
  | .swapCutoff deferred => Sys2Proof.Machine.execSwapCutoff deferred s
  | .tickMarkerEmit => Sys2Proof.Machine.execTickMarkerEmit s
  | .mark f st e => Sys2Proof.Machine.execMark f st e s
  | .echo f st => Sys2Proof.Machine.execEcho f st s
  | .facetLocalBoundary f => Sys2Proof.Machine.execFacetLocalBoundary f s
  | .swapRequest classes => Sys2Proof.Machine.execSwapRequest classes s
  | .resyncStart f => Sys2Proof.Machine.execResyncStart f s
  | .facetPllLockTimeout f => Sys2Proof.Machine.execFacetPllLockTimeout f s
  | .resyncLockTimeout f => Sys2Proof.Machine.execResyncLockTimeout f s
  | .resyncTableLoad f => Sys2Proof.Machine.execResyncTableLoad f s
  | .resize ring dir => Sys2Proof.Machine.execResize ring dir s
  | .resizeKs3Deadline job => Sys2Proof.Machine.execResizeKs3Deadline job s
  | .resizeTrackersIdle job => Sys2Proof.Machine.execResizeTrackersIdle job s
  | .resizeWalkComplete job => Sys2Proof.Machine.execResizeWalkComplete job s
  | .granuleWipeComplete job => Sys2Proof.Machine.execGranuleWipeComplete job s
  | .partitionBootLoad p image => Sys2Proof.Machine.execPartitionBootLoad p image s
  | .wipe ring => Sys2Proof.Machine.execWipe ring s
  | .gmapEntryWrite bank idx v => Sys2Proof.Machine.execGmapEntryWrite bank idx v s
  | .dbgCtlWrite p w v => Sys2Proof.Machine.execDbgCtlWrite p w v s
  | .add k rd rs rt => Sys2Proof.Machine.execAdd k rd rs rt s
  | .sub k rd rs rt => Sys2Proof.Machine.execSub k rd rs rt s
  | .andD k rd rs rt => Sys2Proof.Machine.execAndD k rd rs rt s
  | .orD k rd rs rt => Sys2Proof.Machine.execOrD k rd rs rt s
  | .xorD k rd rs rt => Sys2Proof.Machine.execXorD k rd rs rt s
  | .andn k rd rs rt => Sys2Proof.Machine.execAndn k rd rs rt s
  | .sll k rd rs rt => Sys2Proof.Machine.execSll k rd rs rt s
  | .srl k rd rs rt => Sys2Proof.Machine.execSrl k rd rs rt s
  | .sra k rd rs rt => Sys2Proof.Machine.execSra k rd rs rt s
  | .ror k rd rs rt => Sys2Proof.Machine.execRor k rd rs rt s
  | .addW k rd rs rt => Sys2Proof.Machine.execAddW k rd rs rt s
  | .subW k rd rs rt => Sys2Proof.Machine.execSubW k rd rs rt s
  | .sllW k rd rs rt => Sys2Proof.Machine.execSllW k rd rs rt s
  | .srlW k rd rs rt => Sys2Proof.Machine.execSrlW k rd rs rt s
  | .sraW k rd rs rt => Sys2Proof.Machine.execSraW k rd rs rt s
  | .min k rd rs rt => Sys2Proof.Machine.execMin k rd rs rt s
  | .max k rd rs rt => Sys2Proof.Machine.execMax k rd rs rt s
  | .minu k rd rs rt => Sys2Proof.Machine.execMinu k rd rs rt s
  | .maxu k rd rs rt => Sys2Proof.Machine.execMaxu k rd rs rt s
  | .addi k rd rs imm => Sys2Proof.Machine.execAddi k rd rs imm s
  | .andi k rd rs imm => Sys2Proof.Machine.execAndi k rd rs imm s
  | .ori k rd rs imm => Sys2Proof.Machine.execOri k rd rs imm s
  | .xori k rd rs imm => Sys2Proof.Machine.execXori k rd rs imm s
  | .shi k rd rs kind sh => Sys2Proof.Machine.execShi k rd rs kind sh s
  | .cseti k rd rs cc imm => Sys2Proof.Machine.execCseti k rd rs cc imm s
  | .movu k rd imm => Sys2Proof.Machine.execMovu k rd imm s
  | .addpc k rd imm => Sys2Proof.Machine.execAddpc k rd imm s
  | .cset k rd rs rt cc => Sys2Proof.Machine.execCset k rd rs rt cc s
  | .mul k rd rs rt => Sys2Proof.Machine.execMul k rd rs rt s
  | .mulh k rd rs rt => Sys2Proof.Machine.execMulh k rd rs rt s
  | .mulhu k rd rs rt => Sys2Proof.Machine.execMulhu k rd rs rt s
  | .div k rd rs rt => Sys2Proof.Machine.execDiv k rd rs rt s
  | .divu k rd rs rt => Sys2Proof.Machine.execDivu k rd rs rt s
  | .rem k rd rs rt => Sys2Proof.Machine.execRem k rd rs rt s
  | .remu k rd rs rt => Sys2Proof.Machine.execRemu k rd rs rt s
  | .mulW k rd rs rt => Sys2Proof.Machine.execMulW k rd rs rt s
  | .divW k rd rs rt => Sys2Proof.Machine.execDivW k rd rs rt s
  | .divuW k rd rs rt => Sys2Proof.Machine.execDivuW k rd rs rt s
  | .remW k rd rs rt => Sys2Proof.Machine.execRemW k rd rs rt s
  | .remuW k rd rs rt => Sys2Proof.Machine.execRemuW k rd rs rt s
  | .fadd k rd rs rt dp rm => Sys2Proof.Machine.execFadd k rd rs rt dp rm s
  | .fsub k rd rs rt dp rm => Sys2Proof.Machine.execFsub k rd rs rt dp rm s
  | .fmul k rd rs rt dp rm => Sys2Proof.Machine.execFmul k rd rs rt dp rm s
  | .fdiv k rd rs rt dp rm => Sys2Proof.Machine.execFdiv k rd rs rt dp rm s
  | .fsqrt k rd rs dp rm => Sys2Proof.Machine.execFsqrt k rd rs dp rm s
  | .fmin k rd rs rt dp => Sys2Proof.Machine.execFmin k rd rs rt dp s
  | .fmax k rd rs rt dp => Sys2Proof.Machine.execFmax k rd rs rt dp s
  | .fceq k rd rs rt dp => Sys2Proof.Machine.execFceq k rd rs rt dp s
  | .fclt k rd rs rt dp => Sys2Proof.Machine.execFclt k rd rs rt dp s
  | .fcle k rd rs rt dp => Sys2Proof.Machine.execFcle k rd rs rt dp s
  | .fcun k rd rs rt dp => Sys2Proof.Machine.execFcun k rd rs rt dp s
  | .fcvtI k rd rs dp rm => Sys2Proof.Machine.execFcvtI k rd rs dp rm s
  | .fcvtU k rd rs dp rm => Sys2Proof.Machine.execFcvtU k rd rs dp rm s
  | .fcvtF k rd rs dp rm => Sys2Proof.Machine.execFcvtF k rd rs dp rm s
  | .fcvtFu k rd rs dp rm => Sys2Proof.Machine.execFcvtFu k rd rs dp rm s
  | .fcvtP k rd rs dp rm => Sys2Proof.Machine.execFcvtP k rd rs dp rm s
  | .fneg k rd rs dp => Sys2Proof.Machine.execFneg k rd rs dp s
  | .fabs k rd rs dp => Sys2Proof.Machine.execFabs k rd rs dp s
  | .fkind k rd rs dp => Sys2Proof.Machine.execFkind k rd rs dp s
  | .fmadd k rd rs rt ra dp rm => Sys2Proof.Machine.execFmadd k rd rs rt ra dp rm s
  | .fmsub k rd rs rt ra dp rm => Sys2Proof.Machine.execFmsub k rd rs rt ra dp rm s
  | .clz k rd rs => Sys2Proof.Machine.execClz k rd rs s
  | .ctz k rd rs => Sys2Proof.Machine.execCtz k rd rs s
  | .popc k rd rs => Sys2Proof.Machine.execPopc k rd rs s
  | .brev k rd rs => Sys2Proof.Machine.execBrev k rd rs s
  | .bswap k rd rs => Sys2Proof.Machine.execBswap k rd rs s
  | .hswap k rd rs => Sys2Proof.Machine.execHswap k rd rs s
  | .parb k rd rs => Sys2Proof.Machine.execParb k rd rs s
  | .parw k rd rs => Sys2Proof.Machine.execParw k rd rs s
  | .crc32c k rd rs rt wd => Sys2Proof.Machine.execCrc32c k rd rs rt wd s
  | .crc64 k rd rs rt wd => Sys2Proof.Machine.execCrc64 k rd rs rt wd s
  | .crcp k rd rs rt wd => Sys2Proof.Machine.execCrcp k rd rs rt wd s
  | .adda k rd rs rt => Sys2Proof.Machine.execAdda k rd rs rt s
  | .sadda k rd rs rt n => Sys2Proof.Machine.execSadda k rd rs rt n s
  | .suba k rd rs rt => Sys2Proof.Machine.execSuba k rd rs rt s
  | .movad k rd rs => Sys2Proof.Machine.execMovad k rd rs s
  | .movda k rd rs => Sys2Proof.Machine.execMovda k rd rs s
  | .cmpa k rd rs rt cc => Sys2Proof.Machine.execCmpa k rd rs rt cc s
  | .addai k rd rs imm => Sys2Proof.Machine.execAddai k rd rs imm s
  | .lb k rt ab off post => Sys2Proof.Machine.execLb k rt ab off post s
  | .lbu k rt ab off post => Sys2Proof.Machine.execLbu k rt ab off post s
  | .lh k rt ab off post => Sys2Proof.Machine.execLh k rt ab off post s
  | .lhu k rt ab off post => Sys2Proof.Machine.execLhu k rt ab off post s
  | .lw k rt ab off post => Sys2Proof.Machine.execLw k rt ab off post s
  | .lwu k rt ab off post => Sys2Proof.Machine.execLwu k rt ab off post s
  | .ld k rt ab off post => Sys2Proof.Machine.execLd k rt ab off post s
  | .lda k rt ab off post => Sys2Proof.Machine.execLda k rt ab off post s
  | .sb k rt ab off post => Sys2Proof.Machine.execSb k rt ab off post s
  | .sh k rt ab off post => Sys2Proof.Machine.execSh k rt ab off post s
  | .sw k rt ab off post => Sys2Proof.Machine.execSw k rt ab off post s
  | .sd k rt ab off post => Sys2Proof.Machine.execSd k rt ab off post s
  | .sda k rt ab off post => Sys2Proof.Machine.execSda k rt ab off post s
  | .qload k rt ab off post => Sys2Proof.Machine.execQload k rt ab off post s
  | .qsave k rt ab off post => Sys2Proof.Machine.execQsave k rt ab off post s
  | .qdot8 k rd rs rt post => Sys2Proof.Machine.execQdot8 k rd rs rt post s
  | .qdotbf k rd rs rt post => Sys2Proof.Machine.execQdotbf k rd rs rt post s
  | .qclf k rd rs post => Sys2Proof.Machine.execQclf k rd rs post s
  | .qpopc k rd rs post => Sys2Proof.Machine.execQpopc k rd rs post s
  | .qzero k rd => Sys2Proof.Machine.execQzero k rd s
  | .qredI k rd rs => Sys2Proof.Machine.execQredI k rd rs s
  | .qredF k rd rs => Sys2Proof.Machine.execQredF k rd rs s
  | .qredC k rd rs => Sys2Proof.Machine.execQredC k rd rs s
  | .qredP k rd rs => Sys2Proof.Machine.execQredP k rd rs s
  | .atomAdd k rd rs rt far w64 => Sys2Proof.Machine.execAtomAdd k rd rs rt far w64 s
  | .atomAnd k rd rs rt far w64 => Sys2Proof.Machine.execAtomAnd k rd rs rt far w64 s
  | .atomOr k rd rs rt far w64 => Sys2Proof.Machine.execAtomOr k rd rs rt far w64 s
  | .atomXor k rd rs rt far w64 => Sys2Proof.Machine.execAtomXor k rd rs rt far w64 s
  | .atomSwap k rd rs rt far w64 => Sys2Proof.Machine.execAtomSwap k rd rs rt far w64 s
  | .atomSmin k rd rs rt far w64 => Sys2Proof.Machine.execAtomSmin k rd rs rt far w64 s
  | .atomSmax k rd rs rt far w64 => Sys2Proof.Machine.execAtomSmax k rd rs rt far w64 s
  | .atomUmin k rd rs rt far w64 => Sys2Proof.Machine.execAtomUmin k rd rs rt far w64 s
  | .atomUmax k rd rs rt far w64 => Sys2Proof.Machine.execAtomUmax k rd rs rt far w64 s
  | .atomCas k rd rs rt far w64 => Sys2Proof.Machine.execAtomCas k rd rs rt far w64 s
  | .ldres k rd rs w64 => Sys2Proof.Machine.execLdres k rd rs w64 s
  | .stcond k rd rs rt w64 => Sys2Proof.Machine.execStcond k rd rs rt w64 s
  | .barC k => Sys2Proof.Machine.execBarC k s
  | .barK k => Sys2Proof.Machine.execBarK k s
  | .barS k => Sys2Proof.Machine.execBarS k s
  | .isync k => Sys2Proof.Machine.execIsync k s
  | .wfi k => Sys2Proof.Machine.execWfi k s
  | .mfs k rd srn => Sys2Proof.Machine.execMfs k rd srn s
  | .mts k srn rs => Sys2Proof.Machine.execMts k srn rs s
  | .tlbiVa k rs rt => Sys2Proof.Machine.execTlbiVa k rs rt s
  | .tlbiAsid k rt => Sys2Proof.Machine.execTlbiAsid k rt s
  | .tlbiS1all k => Sys2Proof.Machine.execTlbiS1all k s
  | .tlbiIpa k rs => Sys2Proof.Machine.execTlbiIpa k rs s
  | .tlbiS2all k => Sys2Proof.Machine.execTlbiS2all k s
  | .dcClean k rs => Sys2Proof.Machine.execDcClean k rs s
  | .dcInv k rs => Sys2Proof.Machine.execDcInv k rs s
  | .dcClinv k rs => Sys2Proof.Machine.execDcClinv k rs s
  | .dcZero k rs => Sys2Proof.Machine.execDcZero k rs s
  | .icInv k rs => Sys2Proof.Machine.execIcInv k rs s
  | .gateK k code => Sys2Proof.Machine.execGateK k code s
  | .gateH k code => Sys2Proof.Machine.execGateH k code s
  | .gateM k code => Sys2Proof.Machine.execGateM k code s
  | .eret k => Sys2Proof.Machine.execEret k s
  | .brk k imm => Sys2Proof.Machine.execBrk k imm s
  | .bz k rs off => Sys2Proof.Machine.execBz k rs off s
  | .bnz k rs off => Sys2Proof.Machine.execBnz k rs off s
  | .j k off => Sys2Proof.Machine.execJ k off s
  | .jal k off => Sys2Proof.Machine.execJal k off s
  | .jr k rs => Sys2Proof.Machine.execJr k rs s
  | .jalr k rd rs => Sys2Proof.Machine.execJalr k rd rs s
  | .aluS k fn rd rs => Sys2Proof.Machine.execAluS k fn rd rs s
  | .addiS k rd imm => Sys2Proof.Machine.execAddiS k rd imm s
  | .moviS k rd imm => Sys2Proof.Machine.execMoviS k rd imm s
  | .csetS k cc rd rs => Sys2Proof.Machine.execCsetS k cc rd rs s
  | .ldS k rt ab off post => Sys2Proof.Machine.execLdS k rt ab off post s
  | .stS k rt ab off post => Sys2Proof.Machine.execStS k rt ab off post s
  | .lwS k rt ab off post => Sys2Proof.Machine.execLwS k rt ab off post s
  | .swS k rt ab off post => Sys2Proof.Machine.execSwS k rt ab off post s
  | .bzS k rs off => Sys2Proof.Machine.execBzS k rs off s
  | .bnzS k rs off => Sys2Proof.Machine.execBnzS k rs off s
  | .jS k off => Sys2Proof.Machine.execJS k off s
  | .addaS k rd imm => Sys2Proof.Machine.execAddaS k rd imm s
  | .addspS k imm => Sys2Proof.Machine.execAddspS k imm s
  | .adS k fn rd rs => Sys2Proof.Machine.execAdS k fn rd rs s
  | .ldspS k rt off => Sys2Proof.Machine.execLdspS k rt off s
  | .stspS k rt off => Sys2Proof.Machine.execStspS k rt off s
  | .retS k => Sys2Proof.Machine.execRetS k s
  | .jrS k rs => Sys2Proof.Machine.execJrS k rs s
  | .jalrS k rs => Sys2Proof.Machine.execJalrS k rs s
  | .movaS k rd rs => Sys2Proof.Machine.execMovaS k rd rs s
  | .brkS k imm => Sys2Proof.Machine.execBrkS k imm s
  | .shiS k rd dir sh => Sys2Proof.Machine.execShiS k rd dir sh s
  | .execCtlWrite k v => Sys2Proof.Machine.execExecCtlWrite k v s
  | .runAheadEntry k ln dst w32 => Sys2Proof.Machine.execRunAheadEntry k ln dst w32 s
  | .runAheadLimit k => Sys2Proof.Machine.execRunAheadLimit k s
  | .runAheadExit k => Sys2Proof.Machine.execRunAheadExit k s
  | .l1Fill k ln stream instr note => Sys2Proof.Machine.execL1Fill k ln stream instr note s
  | .interruptTaken k => Sys2Proof.Machine.execInterruptTaken k s
  | .impreciseAbortTaken k => Sys2Proof.Machine.execImpreciseAbortTaken k s
  | .intAckRead k rdr grp => Sys2Proof.Machine.execIntAckRead k rdr grp s
  | .storeQueueDrain k => Sys2Proof.Machine.execStoreQueueDrain k s
  | .deviceStoreIssue k => Sys2Proof.Machine.execDeviceStoreIssue k s
  | .deviceAccessTimeout id => Sys2Proof.Machine.execDeviceAccessTimeout id s
  | .drtRegionWrite p w n hi v => Sys2Proof.Machine.execDrtRegionWrite p w n hi v s
  | .drtLock p => Sys2Proof.Machine.execDrtLock p s
  | .impreciseAbortDelivery k ab => Sys2Proof.Machine.execImpreciseAbortDelivery k ab s
  | .reservationDeferralEnd k => Sys2Proof.Machine.execReservationDeferralEnd k s
  | .rds m err => Sys2Proof.Machine.execRds m err s
  | .rdu m err => Sys2Proof.Machine.execRdu m err s
  | .upg m err => Sys2Proof.Machine.execUpg m err s
  | .rdo m => Sys2Proof.Machine.execRdo m s
  | .wrh m => Sys2Proof.Machine.execWrh m s
  | .wri m => Sys2Proof.Machine.execWri m s
  | .atf m => Sys2Proof.Machine.execAtf m s
  | .cln m => Sys2Proof.Machine.execCln m s
  | .inv m => Sys2Proof.Machine.execInv m s
  | .cli m => Sys2Proof.Machine.execCli m s
  | .iiv m => Sys2Proof.Machine.execIiv m s
  | .rsv m => Sys2Proof.Machine.execRsv m s
  | .stc m => Sys2Proof.Machine.execStc m s
  | .sns m => Sys2Proof.Machine.execSns m s
  | .snu m => Sys2Proof.Machine.execSnu m s
  | .sno m => Sys2Proof.Machine.execSno m s
  | .sni m => Sys2Proof.Machine.execSni m s
  | .snr m => Sys2Proof.Machine.execSnr m s
  | .snc m => Sys2Proof.Machine.execSnc m s
  | .snic m => Sys2Proof.Machine.execSnic m s
  | .srsp m => Sys2Proof.Machine.execSrsp m s
  | .evc m => Sys2Proof.Machine.execEvc m s
  | .cack m => Sys2Proof.Machine.execCack m s
  | .cmp m => Sys2Proof.Machine.execCmp m s
  | .eva m => Sys2Proof.Machine.execEva m s
  | .err m => Sys2Proof.Machine.execErr m s
  | .dh m victim => Sys2Proof.Machine.execDh m victim s
  | .df m victim => Sys2Proof.Machine.execDf m victim s
  | .dro m => Sys2Proof.Machine.execDro m s
  | .wbd m => Sys2Proof.Machine.execWbd m s
  | .sdh m => Sys2Proof.Machine.execSdh m s
  | .atr m => Sys2Proof.Machine.execAtr m s
  | .drd m => Sys2Proof.Machine.execDrd m s
  | .dwr m => Sys2Proof.Machine.execDwr m s
  | .dcmp m => Sys2Proof.Machine.execDcmp m s
  | .drr m => Sys2Proof.Machine.execDrr m s
  | .tlbd m => Sys2Proof.Machine.execTlbd m s
  | .tlba m => Sys2Proof.Machine.execTlba m s
  | .intd m => Sys2Proof.Machine.execIntd m s
  | .lcr m => Sys2Proof.Machine.execLcr m s
  | .mrd m => Sys2Proof.Machine.execMrd m s
  | .mwr m => Sys2Proof.Machine.execMwr m s
  | .mcmp m => Sys2Proof.Machine.execMcmp m s
  | .mergeBufferDrain ln => Sys2Proof.Machine.execMergeBufferDrain ln s
  | .homeTrackerTimeout ln => Sys2Proof.Machine.execHomeTrackerTimeout ln s
  | .coherentRequestTimeout k ln => Sys2Proof.Machine.execCoherentRequestTimeout k ln s
  | .l2LockWrite g v => Sys2Proof.Machine.execL2LockWrite g v s
  | .l2Disable g => Sys2Proof.Machine.execL2Disable g s
  | .l2Enable g => Sys2Proof.Machine.execL2Enable g s
  | .l2Drained g => Sys2Proof.Machine.execL2Drained g s
  | .waymaskWrite sl bank p v => Sys2Proof.Machine.execWaymaskWrite sl bank p v s
  | .domainDownWalkComplete p => Sys2Proof.Machine.execDomainDownWalkComplete p s
  | .netPacketForward rt out arr => Sys2Proof.Machine.execNetPacketForward rt out arr s
  | .linkRetryRequest rt out fails => Sys2Proof.Machine.execLinkRetryRequest rt out fails s
  | .creditReturn rt out vn n => Sys2Proof.Machine.execCreditReturn rt out vn n s
  | .routeEntryWrite pt v => Sys2Proof.Machine.execRouteEntryWrite pt v s
  | .arbFreeze arb => Sys2Proof.Machine.execArbFreeze arb s
  | .arbFreezeTimeout arb => Sys2Proof.Machine.execArbFreezeTimeout arb s
  | .grantHoldTimeout rt out => Sys2Proof.Machine.execGrantHoldTimeout rt out s
  | .routerDrained rt out => Sys2Proof.Machine.execRouterDrained rt out s
  | .gtdHoldEnd => Sys2Proof.Machine.execGtdHoldEnd s
  | .netCreditAudit rt out vn w u r d => Sys2Proof.Machine.execNetCreditAudit rt out vn w u r d s
  | .landingCreditAudit pl src dst landed flying => Sys2Proof.Machine.execLandingCreditAudit pl src dst landed flying s
  | .slotAudit pl => Sys2Proof.Machine.execSlotAudit pl s
  | .chordCreditAudit f pl vn dir q => Sys2Proof.Machine.execChordCreditAudit f pl vn dir q s
  | .ringAudit ring => Sys2Proof.Machine.execRingAudit ring s
  | .dumpSeqAudit p => Sys2Proof.Machine.execDumpSeqAudit p s
  | .transferUnit f st dir u => Sys2Proof.Machine.execTransferUnit f st dir u s
  | .chordNak f st dir => Sys2Proof.Machine.execChordNak f st dir s
  | .nakTimeout f st dir => Sys2Proof.Machine.execNakTimeout f st dir s
  | .lcnt f st counts => Sys2Proof.Machine.execLcnt f st counts s
  | .close f st dir lastSeq open2 => Sys2Proof.Machine.execClose f st dir lastSeq open2 s
  | .move f st dir => Sys2Proof.Machine.execMove f st dir s
  | .rtnonly f st dir pl vn n => Sys2Proof.Machine.execRtnonly f st dir pl vn n s
  | .train f st => Sys2Proof.Machine.execTrain f st s
  | .takeDown f st => Sys2Proof.Machine.execTakeDown f st s
  | .strandDetectDone f st => Sys2Proof.Machine.execStrandDetectDone f st s
  | .strandLanesDone f st fcC fcF cfC cfF => Sys2Proof.Machine.execStrandLanesDone f st fcC fcF cfC cfF s
  | .strandWidthDone f st => Sys2Proof.Machine.execStrandWidthDone f st s
  | .strandFrameDone f st ok => Sys2Proof.Machine.execStrandFrameDone f st ok s
  | .strandLatencyDone f st lat => Sys2Proof.Machine.execStrandLatencyDone f st lat s
  | .strandInitDone f st => Sys2Proof.Machine.execStrandInitDone f st s
  | .trainingTimeout f st => Sys2Proof.Machine.execTrainingTimeout f st s
  | .laneMapWrite f st v => Sys2Proof.Machine.execLaneMapWrite f st v s
  | .marginAlarm f st dir => Sys2Proof.Machine.execMarginAlarm f st dir s
  | .strandDown f st => Sys2Proof.Machine.execStrandDown f st s
  | .midPacketStall f st dir pl => Sys2Proof.Machine.execMidPacketStall f st dir pl s
  | .strandHeartbeatLoss f st dir => Sys2Proof.Machine.execStrandHeartbeatLoss f st dir s
  | .facetHeartbeatLoss f => Sys2Proof.Machine.execFacetHeartbeatLoss f s
  | .orderlyFacetReset f => Sys2Proof.Machine.execOrderlyFacetReset f s
  | .hbmSchedulePick pc => Sys2Proof.Machine.execHbmSchedulePick pc s
  | .urgencyEscalation pc idx wr => Sys2Proof.Machine.execUrgencyEscalation pc idx wr s
  | .hbmReadData pc ln raw => Sys2Proof.Machine.execHbmReadData pc ln raw s
  | .patrolScrub pc raw => Sys2Proof.Machine.execPatrolScrub pc raw s
  | .hpprComplete pc e ok => Sys2Proof.Machine.execHpprComplete pc e ok s
  | .retirementBegin m => Sys2Proof.Machine.execRetirementBegin m s
  | .migrationUnitComplete m => Sys2Proof.Machine.execMigrationUnitComplete m s
  | .migrationComplete m => Sys2Proof.Machine.execMigrationComplete m s
  | .channelRecentre ch low => Sys2Proof.Machine.execChannelRecentre ch low s
  | .thermalRead m temp => Sys2Proof.Machine.execThermalRead m temp s
  | .channelRetrain ch => Sys2Proof.Machine.execChannelRetrain ch s
  | .channelRetrainDone ch ok => Sys2Proof.Machine.execChannelRetrainDone ch ok s
  | .refresh pc bank => Sys2Proof.Machine.execRefresh pc bank s
  | .upstreamMemoryRequest port req => Sys2Proof.Machine.execUpstreamMemoryRequest port req s
  | .msiWrite port addr size data rd => Sys2Proof.Machine.execMsiWrite port addr size data rd s
  | .iotRootWrite p w inner v => Sys2Proof.Machine.execIotRootWrite p w inner v s
  | .iotInvAll p w v => Sys2Proof.Machine.execIotInvAll p w v s
  | .iotInvRid p w v => Sys2Proof.Machine.execIotInvRid p w v s
  | .iotInvRidPasid p w v => Sys2Proof.Machine.execIotInvRidPasid p w v s
  | .iotInvRidPages p w v => Sys2Proof.Machine.execIotInvRidPages p w v s
  | .iotInvS2id p w v => Sys2Proof.Machine.execIotInvS2id p w v s
  | .iotInvS2idPages p w v => Sys2Proof.Machine.execIotInvS2idPages p w v s
  | .iotInvDone p => Sys2Proof.Machine.execIotInvDone p s
  | .atsInvTimeout p rid => Sys2Proof.Machine.execAtsInvTimeout p rid s
  | .iotFaultPop p => Sys2Proof.Machine.execIotFaultPop p s
  | .cxlDeviceLost port => Sys2Proof.Machine.execCxlDeviceLost port s
  | .portQuiesceWaitEnd port => Sys2Proof.Machine.execPortQuiesceWaitEnd port s
  | .portQuiesceDone port => Sys2Proof.Machine.execPortQuiesceDone port s
  | .portContainment port => Sys2Proof.Machine.execPortContainment port s
  | .dpcRelease port => Sys2Proof.Machine.execDpcRelease port s
  | .portLinkUp port width speed flit => Sys2Proof.Machine.execPortLinkUp port width speed flit s
  | .irdRouteWrite p w n v => Sys2Proof.Machine.execIrdRouteWrite p w n v s
  | .irdIpiWrite p w v => Sys2Proof.Machine.execIrdIpiWrite p w v s
  | .ringEnable p w v => Sys2Proof.Machine.execRingEnable p w v s
  | .ringDisable p w v => Sys2Proof.Machine.execRingDisable p w v s
  | .sqDoorbell p w v => Sys2Proof.Machine.execSqDoorbell p w v s
  | .cqDoorbell p w v => Sys2Proof.Machine.execCqDoorbell p w v s
  | .completionInterrupt p => Sys2Proof.Machine.execCompletionInterrupt p s
  | .deadlineTimeout job => Sys2Proof.Machine.execDeadlineTimeout job s
  | .powerReq ring => Sys2Proof.Machine.execPowerReq ring s
  | .meterRead ring => Sys2Proof.Machine.execMeterRead ring s
  | .ctrDumpCfg ring => Sys2Proof.Machine.execCtrDumpCfg ring s
  | .rasFetch ring => Sys2Proof.Machine.execRasFetch ring s
  | .partReset ring => Sys2Proof.Machine.execPartReset ring s
  | .portEnable ring => Sys2Proof.Machine.execPortEnable ring s
  | .portDisable ring => Sys2Proof.Machine.execPortDisable ring s
  | .portRetrain ring => Sys2Proof.Machine.execPortRetrain ring s
  | .timeSyncRead ring => Sys2Proof.Machine.execTimeSyncRead ring s
  | .timeSyncAdjust ring => Sys2Proof.Machine.execTimeSyncAdjust ring s
  | .blackboxRead ring => Sys2Proof.Machine.execBlackboxRead ring s
  | .attest ring => Sys2Proof.Machine.execAttest ring s
  | .drtUpdate ring => Sys2Proof.Machine.execDrtUpdate ring s
  | .slotGrant ring => Sys2Proof.Machine.execSlotGrant ring s
  | .slotRelease ring => Sys2Proof.Machine.execSlotRelease ring s
  | .park ring => Sys2Proof.Machine.execPark ring s
  | .unpark ring => Sys2Proof.Machine.execUnpark ring s
  | .cxlHealth ring data => Sys2Proof.Machine.execCxlHealth ring data s
  | .cxlPoisonList ring data => Sys2Proof.Machine.execCxlPoisonList ring data s
  | .cxlHotAdd ring granules => Sys2Proof.Machine.execCxlHotAdd ring granules s
  | .cxlRemove ring => Sys2Proof.Machine.execCxlRemove ring s
  | .ownerMessage id kind desc data complete => Sys2Proof.Machine.execOwnerMessage id kind desc data complete s
  | .ownerMessageTimeout id => Sys2Proof.Machine.execOwnerMessageTimeout id s
  | .i3cBusReset => Sys2Proof.Machine.execI3cBusReset s
  | .spdmRequest req => Sys2Proof.Machine.execSpdmRequest req s
  | .meterLedgerClose raw temp => Sys2Proof.Machine.execMeterLedgerClose raw temp s
  | .feedMessage fd => Sys2Proof.Machine.execFeedMessage fd s
  | .layoutFeed gen => Sys2Proof.Machine.execLayoutFeed gen s
  | .meterConservationCheck sum => Sys2Proof.Machine.execMeterConservationCheck sum s
  | .channelFail c => Sys2Proof.Machine.execChannelFail c s
  | .channelRestore c => Sys2Proof.Machine.execChannelRestore c s
  | .facetCrosscheck f => Sys2Proof.Machine.execFacetCrosscheck f s
  | .ident => Sys2Proof.Machine.execIdent s
  | .ledger nonce => Sys2Proof.Machine.execLedger nonce s
  | .gap idx nonce => Sys2Proof.Machine.execGap idx nonce s
  | .event idx nonce => Sys2Proof.Machine.execEvent idx nonce s
  | .paramlog idx nonce => Sys2Proof.Machine.execParamlog idx nonce s
  | .cert part => Sys2Proof.Machine.execCert part s
  | .paramLoad img => Sys2Proof.Machine.execParamLoad img s
  | .evonisumFrameTimeout => Sys2Proof.Machine.execEvonisumFrameTimeout s
  | .meterCheckpoint => Sys2Proof.Machine.execMeterCheckpoint s
  | .warningCheckpoint => Sys2Proof.Machine.execWarningCheckpoint s
  | .meterRestore => Sys2Proof.Machine.execMeterRestore s
  | .pwrCtlWrite d w v => Sys2Proof.Machine.execPwrCtlWrite d w v s
  | .domainPowerOff d => Sys2Proof.Machine.execDomainPowerOff d s
  | .coreWake k => Sys2Proof.Machine.execCoreWake k s
  | .clusterStateEntry g => Sys2Proof.Machine.execClusterStateEntry g s
  | .powerdownAbandon k => Sys2Proof.Machine.execPowerdownAbandon k s
  | .boostUpdate => Sys2Proof.Machine.execBoostUpdate s
  | .droopStretch g n => Sys2Proof.Machine.execDroopStretch g n s
  | .thermalThrottle u temp => Sys2Proof.Machine.execThermalThrottle u temp s
  | .throttleRelease u temp => Sys2Proof.Machine.execThrottleRelease u temp s
  | .thermalTrip u temp => Sys2Proof.Machine.execThermalTrip u temp s
  | .parkComplete p => Sys2Proof.Machine.execParkComplete p s
  | .parkDrainTimeout p => Sys2Proof.Machine.execParkDrainTimeout p s
  | .parkSample p smp => Sys2Proof.Machine.execParkSample p smp s
  | .partitionWake p => Sys2Proof.Machine.execPartitionWake p s
  | .partitionDown p code unit ppa => Sys2Proof.Machine.execPartitionDown p code unit ppa s
  | .fatal code => Sys2Proof.Machine.execFatal code s
  | .pscHeartbeatLoss => Sys2Proof.Machine.execPscHeartbeatLoss s
  | .blackboxRecord r => Sys2Proof.Machine.execBlackboxRecord r s
  | .sensorCheck die sensor reading median => Sys2Proof.Machine.execSensorCheck die sensor reading median s
  | .spiTimeout ctx => Sys2Proof.Machine.execSpiTimeout ctx s
  | .pcieRefclkFault rc => Sys2Proof.Machine.execPcieRefclkFault rc s
  | .coldReset cause => Sys2Proof.Machine.execColdReset cause s
  | .warmReset => Sys2Proof.Machine.execWarmReset s
  | .bootReferenceCheck ok => Sys2Proof.Machine.execBootReferenceCheck ok s
  | .firmwareAuthentication a b => Sys2Proof.Machine.execFirmwareAuthentication a b s
  | .bootChordTraining up => Sys2Proof.Machine.execBootChordTraining up s
  | .bootHbmTraining bad ok => Sys2Proof.Machine.execBootHbmTraining bad ok s
  | .bootMemoryWipe cxl => Sys2Proof.Machine.execBootMemoryWipe cxl s
  | .bootLayoutBuild rec dir => Sys2Proof.Machine.execBootLayoutBuild rec dir s
  | .bootImageLoad p image => Sys2Proof.Machine.execBootImageLoad p image s
  | .bootStepTimeout => Sys2Proof.Machine.execBootStepTimeout s
  | .facetReset f => Sys2Proof.Machine.execFacetReset f s
  | .coreReset k => Sys2Proof.Machine.execCoreReset k s
  | .lifecycleRequest target token => Sys2Proof.Machine.execLifecycleRequest target token s
  | .tapReset => Sys2Proof.Machine.execTapReset s
  | .bypass die => Sys2Proof.Machine.execBypass die s
  | .idcode die => Sys2Proof.Machine.execIdcode die s
  | .samplePreload die v => Sys2Proof.Machine.execSamplePreload die v s
  | .extest die v => Sys2Proof.Machine.execExtest die v s
  | .clamp die => Sys2Proof.Machine.execClamp die s
  | .highz die => Sys2Proof.Machine.execHighz die s
  | .ijtagConnect die => Sys2Proof.Machine.execIjtagConnect die s
  | .prsAccess addr size wr v => Sys2Proof.Machine.execPrsAccess addr size wr v s
  | .coreDebugAccess k op => Sys2Proof.Machine.execCoreDebugAccess k op s
  | .traceAccess k => Sys2Proof.Machine.execTraceAccess k s
  | .memoryBist unit => Sys2Proof.Machine.execMemoryBist unit s
  | .haltReq k => Sys2Proof.Machine.execHaltReq k s
  | .resume k v => Sys2Proof.Machine.execResume k v s
  | .debugHalt k => Sys2Proof.Machine.execDebugHalt k s
  | .bpCtlWrite k w idx ctl v => Sys2Proof.Machine.execBpCtlWrite k w idx ctl v s
  | .dumpRecordWrite p => Sys2Proof.Machine.execDumpRecordWrite p s
  | .sampleTag k pc va enc => Sys2Proof.Machine.execSampleTag k pc va enc s
  | .sampleRingWrite g => Sys2Proof.Machine.execSampleRingWrite g s
  | .sampleRingEnable g w v => Sys2Proof.Machine.execSampleRingEnable g w v s
  | .mainEnRaise => Sys2Proof.Machine.execMainEnRaise s
  | .mainEnRearm cool => Sys2Proof.Machine.execMainEnRearm cool s
  | .railLoss rail => Sys2Proof.Machine.execRailLoss rail s
  | .railOvervoltage rail => Sys2Proof.Machine.execRailOvervoltage rail s
  | .vddAonLoss => Sys2Proof.Machine.execVddAonLoss s
  | .illegalInstruction k w => Sys2Proof.Machine.execIllegalInstruction k w s
  | .instructionFetchFault k second => Sys2Proof.Machine.execInstructionFetchFault k second s
  | .pmeMessage port => Sys2Proof.Machine.execPmeMessage port s
  | .ownerCompletionRead => Sys2Proof.Machine.execOwnerCompletionRead s
  | .meterSealing => Sys2Proof.Machine.execMeterSealing s
  | .dynamicAddressAssignment addr => Sys2Proof.Machine.execDynamicAddressAssignment addr s

end Sys2Proof.Machine
end

