-- ==== Sys2Proof/WellFormed.lean ====
section
/-! DEFINITION. Well-formed commands: operands that are plain numbers or lists lie in the ranges of the fields they stand for. -/

namespace Sys2Proof

/-- A message names a line of the device address space: DA[51:6], or PPA[47:6] of a device access (R235, R269). -/
def Msg.wf (m : Msg) : Bool := decide (m.ln < 2 ^ 46)

/-- A feed has one row of counts for P0–P15 and OVERHEAD, eight for the stacks, or twelve for the Facets (R423). -/
def Feed.wf (f : Feed) : Bool :=
  (f.counts.all fun r => r.length == 17) &&
  (match f.kind.val with
   | 0 => f.counts.length == 1
   | 1 => f.counts.length == 1
   | 2 => f.counts.length == 8
   | 3 => f.counts.length == 12
   | _ => f.counts.isEmpty)

/-- An upstream request: a page-offset address of 64 bits, at most 4,096 bytes, and a write's bytes are its size (R369, R370). -/
def UpReq.wf (r : UpReq) : Bool :=
  decide (r.addr < 2 ^ 64) && decide (r.size ≤ 4096) && (match r.kind with | .write => r.data.length == r.size | _ => r.data.isEmpty)

/-- A register access of 1, 2, 4 or 8 bytes in the package register space (R2, R15). -/
def accessWf (addr size : Nat) : Bool := decide (addr < 2 ^ 28) && (size == 1 || size == 2 || size == 4 || size == 8)

/-- The command is well formed. -/
def Instr.wf : Instr → Bool
  | .registerWrite _ addr size _ => accessWf addr size
  | .prsAccess addr size _ _ => accessWf addr size
  | .rds m _ | .rdu m _ | .upg m _ => m.wf
  | .rdo m | .wrh m | .wri m | .atf m | .cln m | .inv m | .cli m | .iiv m | .rsv m | .stc m => m.wf
  | .sns m | .snu m | .sno m | .sni m | .snr m | .snc m | .snic m | .srsp m | .evc m | .cack m => m.wf
  | .cmp m | .eva m | .err m | .dro m | .wbd m | .sdh m | .atr m => m.wf
  | .dh m _ | .df m _ => m.wf
  | .netPacketForward _ _ (some (.inject _ m _)) => m.wf
  | .drd m | .dwr m | .dcmp m | .drr m => m.wf
  | .feedMessage f => f.wf
  | .meterLedgerClose raw _ => raw.length == 72
  | .upstreamMemoryRequest _ r => r.wf
  | .msiWrite _ addr size _ _ => decide (addr < 2 ^ 64) && decide (size ≤ 4096)
  | .hbmReadData _ ln _ => decide (ln < 2 ^ 46)
  | .mergeBufferDrain ln => decide (ln < 2 ^ 46)
  | .homeTrackerTimeout ln => decide (ln < 2 ^ 46)
  | .l1Fill _ ln _ _ _ => decide (ln < 2 ^ 46)
  | .bootChordTraining up => up.all fun i => decide (i < 72)
  | .bootHbmTraining bad _ => bad.all fun i => decide (i < 128)
  | .bootMemoryWipe cxl => cxl.all fun e => decide (e.1 < 32)
  | .ownerMessage _ _ desc _ _ => decide (desc.length ≤ 8)
  | .gap idx _ => decide (idx < 2 ^ 16)
  | .event idx _ => decide (idx < 2 ^ 16)
  | .paramlog idx _ => decide (idx < 2 ^ 16)
  | .blackboxRecord r => decide (r.tick < 2 ^ 48)
  | .sensorCheck die sensor _ _ => decide (die < 21) && decide (sensor < 64)
  | _ => true

end Sys2Proof
end

