-- ==== Sys2Proof/Safety.lean ====
section
/-! DEFINITION. What counts as a safe state and a normal step, in the terms the claims use. -/

namespace Sys2Proof.Machine

/-- The canonical form of memory: addresses strictly rising, no listed byte zero. -/
def State.memOk (s : State) : Prop := Memory.wf s.mem = true

/-- A core executes its next instruction normally: it runs, no run-ahead, no hardware breakpoint on the instruction, and no deferred
snoop waits for an answer (R156, R506, R507, R220). -/
def State.ready (s : State) (k : CoreId) : Prop :=
  s.runs k = true ∧ (s.core k).ra = none ∧ s.bpHit k = none ∧ s.settled = true

/-- The system registers that count and sample, which change with every instruction that retires: SYS_PMU_CTL, SYS_PMCn and
SYS_SMPL_CTL (R509, R520). -/
def counterSrn (n : Nat) : Bool := n == 0x420 || n == 0x440 || decide (0x428 ≤ n ∧ n ≤ 0x42F)

/-- Two cores agree in the registers that instructions name but the counters: the pc, the three classes with the copies of A15, the level
and the world, and every other system register. -/
def Core.sameRegs (x y : Core) : Prop :=
  x.pc = y.pc ∧ x.d = y.d ∧ x.a = y.a ∧ x.sp = y.sp ∧ x.q = y.q ∧ x.pl = y.pl ∧ x.inner = y.inner ∧
  ∀ n, counterSrn n = false → x.rsys n = y.rsys n

/-- Two cores agree also in the translation registers not yet in effect, the reservation, the pending abort and interrupts, the store
queues, the TLBs, the caches and misses, the operations in progress and the core state. -/
def Core.like (x y : Core) : Prop :=
  x.sameRegs y ∧ x.trOld = y.trOld ∧ x.resv = y.resv ∧ x.abort = y.abort ∧ x.pendO = y.pendO ∧
  x.pendI = y.pendI ∧ x.sq = y.sq ∧ x.dq = y.dq ∧ x.dtlb = y.dtlb ∧ x.itlb = y.itlb ∧ x.tlb = y.tlb ∧ x.wc = y.wc ∧
  x.l1d = y.l1d ∧ x.l1i = y.l1i ∧ x.vc = y.vc ∧ x.miss = y.miss ∧ x.deferred = y.deferred ∧ x.tlbOut = y.tlbOut ∧ x.maintOut = y.maintOut ∧ x.wait = y.wait ∧ x.cs = y.cs ∧ x.held = y.held

/-- Everything outside core `k` that an instruction which only acts on its core leaves alone: the other cores, every byte of memory, the
coherence state of every line, and the queue. -/
def SameOutside (s t : State) (k : CoreId) : Prop :=
  (∀ j, j ≠ k → t.core j = s.core j) ∧ t.mem = s.mem ∧ t.lines = s.lines ∧ t.pending = s.pending

/-- Command `i` completes in `s`: the core is then as `c` but for its counters, and everything outside it is unchanged. -/
def Retires (i : Instr) (s : State) (k : CoreId) (c : Core) : Prop :=
  ∃ t, exec i s = .next t ∧ (t.core k).like c ∧ SameOutside s t k

/-- Command `i` completes in `s` with the core's registers as those of `c` but for the counters; the caches may differ, memory and the
coherence state of every line are as before. -/
def Completes (i : Instr) (s : State) (k : CoreId) (c : Core) : Prop :=
  ∃ t, exec i s = .next t ∧ (t.core k).sameRegs c ∧ SameOutside s t k

/-- The core would take an exception of its next instruction at once: no asynchronous event goes before it (R156), and no snoop waits on
its reservation, which entry ends (R129, R220). -/
def State.calm (s : State) (k : CoreId) : Prop := s.ready k ∧ s.asyncPending k = false ∧ (s.core k).deferred = []

/-- Command `i` takes a synchronous exception to level `l` with a syndrome and an address, the saved pc `skip` bytes on (R158, R162). -/
def Raises (i : Instr) (s : State) (k : CoreId) (l : Level) (cause info : Nat) (wide : Bool) (addr skip : Word) : Prop :=
  Retires i s k ((s.core k).enter l ((s.core k).pc + skip) (BitVec.ofNat 64 (cause + (if wide then 64 else 0) + info * 65536)) addr 0)

/-- The level of a synchronous exception that is neither a call nor of stage 2 (R155). -/
def Core.excLevel (c : Core) : Level := if c.pl = 0 then 1 else if c.pl = 2 ∧ c.inner = true then 3 else c.pl

/-- An access of `n` bytes inside one line of cacheable memory finds its translation without a walk and its bytes in the core's L1 data
cache, its victim cache or a miss's data units, or in a draining L2: `p` is its part, `da` its device address and `cp` the L2's copy;
nothing on its way refuses it or waits, the stored bits are good, and no load may still be performed before an older one
(R164–R166, R205, R225, R257, R260). -/
def State.hits (s : State) (k : CoreId) (kind : Kind) (tc : TypeCheck) (va : Word) (n : Nat) (p : Part) (da : Nat) (cp : L2Copy) : Prop :=
  xlate k kind false tc va n s = .ok [p] s ∧ p.n = n ∧ p.dev = false ∧ p.cacheable = true ∧ (s.core k).sq = [] ∧
  s.firewall k p.ppa (s.core k).inner false = .inl da ∧ da % 64 + n ≤ 64 ∧ (s.pidOf k).val ∉ s.refused ∧
  s.l2State (clusterOf k) ≠ 2 ∧ s.copy (da / 64) (clusterOf k) = some cp ∧ cp.st.stable = true ∧ cp.err = .none ∧ cp.poison = false ∧
  ((s.core k).hasBytes (da / 64) (da % 64) n (s.core k).inner = true ∨ s.l2State (clusterOf k) = 1) ∧ (s.core k).stale = [] ∧
  ∀ r w, s.wpHit k va n r w = none

/-- Command `i` completes in `s`, and the next state is as `p` says. -/
def Does (i : Instr) (s : State) (p : State → Prop) : Prop := ∃ t, exec i s = .next t ∧ p t

/-- What a command of the clocks, controllers and service functions leaves alone: every byte of memory, the coherence state of every
line, every core, and the queue. -/
def Quiet (s t : State) : Prop :=
  t.mem = s.mem ∧ t.lines = s.lines ∧ t.cores = s.cores ∧ t.pending = s.pending

/-- No merge-buffer entry lies over a line, and no copy of it holds a stored error (R247, R260). -/
def State.sound (s : State) (ln : Nat) : Prop :=
  (s.line ln).mb = none ∧ (∀ g c, s.copy ln g = some c → c.err = .none) ∧ ∀ c, (s.line ln).l3 = some c → c.err = .none

/-- Message `m` reaches its receiver: nothing sent before it on its way is in flight, its sender had a route for it, it does not stand in a
landing buffer, and the package has not stopped (R267, R275, R287, R477). -/
def State.comes (s : State) (kd : MsgKind) (m : Msg) : Prop :=
  s.delivers kd m = true ∧ (s.net.landQ.find? fun x => x.kind == kd && x.msg == m) = none ∧ s.fatal = false

/-- No core defers a snoop (R220). -/
def State.noneDeferred (s : State) : Prop := ∀ j, (s.core j).deferred = []

end Sys2Proof.Machine
end

