-- ==== Sys2Proof/Certificates/Slice0/Obligations.lean ====
section
/-! DEFINITION. The statements for the provers. -/

open Sys2Proof Sys2Proof.Machine

/-! ## The step -/

/-- A step takes the command at the front of the queue and runs it on the rest. With no command waiting what waits goes on and one Net
cycle passes: the model's choice (log entry 1). -/
def Obligations.StepRunsFrontCommand : Prop :=
  (∀ (s : State) (i : Instr) (rest : List Instr), s.pending = i :: rest → step s = exec i { s with pending := rest }) ∧
  (∀ s : State, s.pending = [] → step s = .next s.elapse)

/-! ## Kosal: registers (R72–R74) -/

/-- What a write to a register of a class leaves in every register of the classes: D0 reads zero and discards writes (R72); A15 is the
copy of the current level (R74). -/
def Obligations.RegisterReadAfterWrite : Prop :=
  (∀ (c : Core) (r x : DReg) (v : Word), (c.wd r v).rd x = if x.val = 0 then 0 else if x = r then v else c.rd x) ∧
  (∀ (c : Core) (r x : AReg) (v : Word), (c.wa r v).ra' x = if x = r then v else c.ra' x) ∧
  (∀ (c : Core) (r x : QReg) (v : Line), (c.wq r v).rq x = if x = r then v else c.rq x) ∧
  (∀ (c : Core) (v : Word) (l : Nat), (c.wa 15 v).sp.get 0 l = if l = c.pl.val then v else c.sp.get 0 l)

/-! ## Kosal: integer instructions (R101–R104, R114, R115) -/

/-- R101, the three-register forms: Dd takes the result of the table, nothing else changes but the pc. -/
def Sys2Proof.Machine.AluRegisterResults : Prop :=
  ∀ (s : State) (k : CoreId) (rd rs rt : DReg), s.ready k →
    let c := s.core k
    let a := c.rd rs
    let b := c.rd rt
    let n := b.toNat % 64
    let m := b.toNat % 32
    let gives (i : Instr) (v : Word) : Prop := Retires i s k ((c.wd rd v).adv 4)
    gives (.add k rd rs rt) (a + b) ∧ gives (.sub k rd rs rt) (a - b) ∧ gives (.andD k rd rs rt) (a &&& b) ∧
    gives (.orD k rd rs rt) (a ||| b) ∧ gives (.xorD k rd rs rt) (a ^^^ b) ∧ gives (.andn k rd rs rt) (a &&& ~~~ b) ∧
    gives (.sll k rd rs rt) (a <<< n) ∧ gives (.srl k rd rs rt) (a >>> n) ∧ gives (.sra k rd rs rt) (a.sshiftRight n) ∧
    gives (.ror k rd rs rt) (a.rotateRight n) ∧
    gives (.addW k rd rs rt) (((a + b).setWidth 32).signExtend 64) ∧ gives (.subW k rd rs rt) (((a - b).setWidth 32).signExtend 64) ∧
    gives (.sllW k rd rs rt) ((a.setWidth 32 <<< m).signExtend 64) ∧ gives (.srlW k rd rs rt) ((a.setWidth 32 >>> m).signExtend 64) ∧
    gives (.sraW k rd rs rt) (((a.setWidth 32).sshiftRight m).signExtend 64) ∧
    gives (.min k rd rs rt) (if a.toInt ≤ b.toInt then a else b) ∧ gives (.max k rd rs rt) (if a.toInt ≤ b.toInt then b else a) ∧
    gives (.minu k rd rs rt) (if a.toNat ≤ b.toNat then a else b) ∧ gives (.maxu k rd rs rt) (if a.toNat ≤ b.toNat then b else a)

/-- What a condition code asks of two words (R77). -/
def Sys2Proof.Machine.holdsCc (cc : Fin 8) (a b : Word) : Prop :=
  (cc = 0 ∧ a = b) ∨ (cc = 1 ∧ a ≠ b) ∨ (cc = 2 ∧ a.toInt < b.toInt) ∨ (cc = 3 ∧ b.toInt ≤ a.toInt) ∨ (cc = 4 ∧ a.toNat < b.toNat) ∨
  (cc = 5 ∧ b.toNat ≤ a.toNat)

/-- R101, the immediate forms, the shifts of R97 and MOVU. -/
def Sys2Proof.Machine.AluImmediateResults : Prop :=
  ∀ (s : State) (k : CoreId) (rd rs : DReg) (imm : BitVec 14) (sh : Fin 64) (up : BitVec 19), s.ready k →
    let c := s.core k
    let a := c.rd rs
    let gives (i : Instr) (v : Word) : Prop := Retires i s k ((c.wd rd v).adv 4)
    gives (.addi k rd rs imm) (a + imm.signExtend 64) ∧ gives (.andi k rd rs imm) (a &&& imm.setWidth 64) ∧
    gives (.ori k rd rs imm) (a ||| imm.setWidth 64) ∧ gives (.xori k rd rs imm) (a ^^^ imm.setWidth 64) ∧
    gives (.shi k rd rs 0 sh) (a <<< sh.val) ∧ gives (.shi k rd rs 1 sh) (a >>> sh.val) ∧
    gives (.shi k rd rs 2 sh) (a.sshiftRight sh.val) ∧ gives (.shi k rd rs 3 sh) (a.rotateRight sh.val) ∧
    gives (.movu k rd up) ((up.setWidth 64 <<< 45).sshiftRight 32)

/-- CSET.cc, CSETI, CSET.S and CMPA write 1 where their condition holds and 0 where it does not (R77, R101, R104). -/
def Sys2Proof.Machine.ConditionSetResults : Prop :=
  ∀ (s : State) (k : CoreId) (rd rs rt : DReg) (ar at_ : AReg) (sd ss : SDReg) (cc : Fin 8) (imm : BitVec 11) (v : Word),
    s.ready k → cc.val < 6 →
    let c := s.core k
    let shows (a b : Word) : Prop := (holdsCc cc a b ∧ v = 1) ∨ (¬ holdsCc cc a b ∧ v = 0)
    (shows (c.rd rs) (c.rd rt) → Retires (.cset k rd rs rt cc) s k ((c.wd rd v).adv 4)) ∧
    (shows (c.rd rs) (imm.signExtend 64) → Retires (.cseti k rd rs cc imm) s k ((c.wd rd v).adv 4)) ∧
    (shows (c.ra' ar) (c.ra' at_) → Retires (.cmpa k rd ar at_ cc) s k ((c.wd rd v).adv 4)) ∧
    (shows (c.rd (longD sd)) (c.rd (longD ss)) → Retires (.csetS k cc sd ss) s k ((c.wd (longD sd) v).adv 2))

/-- R102: products, quotients and remainders, with a divisor of zero and the one signed overflow as the table fixes them. -/
def Sys2Proof.Machine.MultiplyDivideResults : Prop :=
  ∀ (s : State) (k : CoreId) (rd rs rt : DReg), s.ready k →
    let c := s.core k
    let a := c.rd rs
    let b := c.rd rt
    let a' : BitVec 32 := a.setWidth 32
    let b' : BitVec 32 := b.setWidth 32
    let gives (i : Instr) (v : Word) : Prop := Retires i s k ((c.wd rd v).adv 4)
    gives (.mul k rd rs rt) (a * b) ∧
    gives (.mulh k rd rs rt) (((a.signExtend 128 * b.signExtend 128) >>> 64).setWidth 64) ∧
    gives (.mulhu k rd rs rt) (((a.setWidth 128 * b.setWidth 128) >>> 64).setWidth 64) ∧
    gives (.mulW k rd rs rt) (((a * b).setWidth 32).signExtend 64) ∧
    gives (.div k rd rs rt) (if b = 0 then -1 else if a = 0x8000000000000000#64 ∧ b = -1 then 0x8000000000000000#64 else BitVec.ofInt 64 (a.toInt.tdiv b.toInt)) ∧
    gives (.divu k rd rs rt) (if b = 0 then -1 else BitVec.ofNat 64 (a.toNat / b.toNat)) ∧
    gives (.rem k rd rs rt) (if b = 0 then a else if a = 0x8000000000000000#64 ∧ b = -1 then 0 else BitVec.ofInt 64 (a.toInt.tmod b.toInt)) ∧
    gives (.remu k rd rs rt) (if b = 0 then a else BitVec.ofNat 64 (a.toNat % b.toNat)) ∧
    gives (.divW k rd rs rt)
      ((if b' = 0 then -1 else if a' = 0x80000000#32 ∧ b' = -1 then 0x80000000#32 else BitVec.ofInt 32 (a'.toInt.tdiv b'.toInt)).signExtend 64) ∧
    gives (.divuW k rd rs rt) ((if b' = 0 then -1 else BitVec.ofNat 32 (a'.toNat / b'.toNat)).signExtend 64) ∧
    gives (.remW k rd rs rt)
      ((if b' = 0 then a' else if a' = 0x80000000#32 ∧ b' = -1 then 0 else BitVec.ofInt 32 (a'.toInt.tmod b'.toInt)).signExtend 64) ∧
    gives (.remuW k rd rs rt) ((if b' = 0 then a' else BitVec.ofNat 32 (a'.toNat % b'.toNat)).signExtend 64)

/-- R103 and ADDPC of R104: sums and moves on address registers, with their short forms. -/
def Sys2Proof.Machine.AddressArithmeticResults : Prop :=
  ∀ (s : State) (k : CoreId) (rd rs : AReg) (dd dt : DReg) (n : Fin 3) (imm : BitVec 14) (up : BitVec 19) (sd ss : SAReg) (st : SDReg)
    (i8 : BitVec 8) (i11 : BitVec 11), s.ready k →
    let c := s.core k
    let a := c.ra' rs
    let b := c.rd dt
    let tgt (i : Instr) (r : AReg) (v : Word) (len : Nat) : Prop := Retires i s k ((c.wa r v).adv len)
    tgt (.adda k rd rs dt) rd (a + b) 4 ∧ tgt (.sadda k rd rs dt n) rd (a + (b <<< (n.val + 1))) 4 ∧ tgt (.suba k rd rs dt) rd (a - b) 4 ∧
    tgt (.addai k rd rs imm) rd (a + imm.signExtend 64) 4 ∧ tgt (.movad k rd dt) rd b 4 ∧
    Retires (.movda k dd rs) s k ((c.wd dd a).adv 4) ∧
    tgt (.addpc k rd up) rd (c.pc + (up.setWidth 64 <<< 45).sshiftRight 32) 4 ∧
    tgt (.addaS k sd i8) (longA sd) (c.ra' (longA sd) + i8.signExtend 64 * 8) 2 ∧ tgt (.addspS k i11) 15 (c.ra' 15 + i11.signExtend 64 * 16) 2 ∧
    tgt (.movaS k sd ss) (longA sd) (c.ra' (longA ss)) 2 ∧
    tgt (.adS k 0 sd st) (longA sd) (c.ra' (longA sd) + c.rd (longD st)) 2 ∧ tgt (.adS k 1 sd st) (longA sd) (c.ra' (longA sd) + c.rd (longD st) * 2) 2 ∧
    tgt (.adS k 2 sd st) (longA sd) (c.ra' (longA sd) + c.rd (longD st) * 4) 2 ∧ tgt (.adS k 3 sd st) (longA sd) (c.ra' (longA sd) + c.rd (longD st) * 8) 2 ∧
    tgt (.adS k 4 sd st) (longA sd) (c.ra' (longA sd) - c.rd (longD st)) 2 ∧ tgt (.adS k 5 sd st) (longA sd) (c.rd (longD st)) 2 ∧
    Retires (.adS k 6 sd st) s k ((c.wd (longD st) (c.ra' (longA sd))).adv 2)

/-- The 16-bit arithmetic forms (R87): ALU.S with every function, ADDI.S, MOVI.S and SHI.S. -/
def Sys2Proof.Machine.ShortAluResults : Prop :=
  ∀ (s : State) (k : CoreId) (rd rs : SDReg) (imm : BitVec 7) (sh : Fin 64), s.ready k →
    let c := s.core k
    let a := c.rd (longD rd)
    let b := c.rd (longD rs)
    let gives (i : Instr) (v : Word) : Prop := Retires i s k ((c.wd (longD rd) v).adv 2)
    (¬ (rd = 0 ∧ rs = 0) → gives (.aluS k 0 rd rs) b) ∧ gives (.aluS k 1 rd rs) (a + b) ∧ gives (.aluS k 2 rd rs) (a - b) ∧
    gives (.aluS k 3 rd rs) (a &&& b) ∧ gives (.aluS k 4 rd rs) (a ||| b) ∧ gives (.aluS k 5 rd rs) (a ^^^ b) ∧
    gives (.aluS k 6 rd rs) (a <<< (b.toNat % 64)) ∧ gives (.aluS k 7 rd rs) (a.sshiftRight (b.toNat % 64)) ∧
    (rd ≠ 0 ∨ imm = 0 → gives (.addiS k rd imm) (a + imm.signExtend 64)) ∧ (rd ≠ 0 → gives (.moviS k rd imm) (imm.signExtend 64)) ∧
    gives (.shiS k rd false sh) (a <<< sh.val) ∧ gives (.shiS k rd true sh) (a >>> sh.val)

/-- The integer and address arithmetic of R101, R103 and ADDPC of R104, in every form: three registers, immediates, conditions and the 16-bit forms. -/
def Obligations.IntegerAndAddressResults : Prop := AluRegisterResults ∧ AluImmediateResults ∧ ConditionSetResults ∧ AddressArithmeticResults ∧ ShortAluResults

/-- R114: counts, reversals and parities, bit by bit. -/
def Sys2Proof.Machine.BitManipulationResults : Prop :=
  ∀ (s : State) (k : CoreId) (rd rs : DReg), s.ready k →
    let c := s.core k
    let a := c.rd rs
    let gives (i : Instr) (p : Word → Prop) : Prop := ∃ v, p v ∧ Retires i s k ((c.wd rd v).adv 4)
    let ones (lo n : Nat) : Nat := ((List.range n).filter fun j => a.getLsbD (lo + j)).length
    gives (.clz k rd rs) (fun v => v.toNat ≤ 64 ∧ a.toNat < 2 ^ (64 - v.toNat) ∧ (v.toNat < 64 → 2 ^ (63 - v.toNat) ≤ a.toNat)) ∧
    gives (.ctz k rd rs) (fun v => v.toNat ≤ 64 ∧ (∀ j, j < v.toNat → a.getLsbD j = false) ∧ (v.toNat < 64 → a.getLsbD v.toNat = true)) ∧
    gives (.popc k rd rs) (fun v => v.toNat = ones 0 64) ∧
    gives (.brev k rd rs) (fun v => ∀ j, j < 64 → v.getLsbD j = a.getLsbD (63 - j)) ∧
    gives (.bswap k rd rs) (fun v => ∀ i j, i < 8 → j < 8 → v.getLsbD (8 * i + j) = a.getLsbD (8 * (7 - i) + j)) ∧
    gives (.hswap k rd rs) (fun v => ∀ i j, i < 4 → j < 16 → v.getLsbD (16 * i + j) = a.getLsbD (16 * (3 - i) + j)) ∧
    gives (.parb k rd rs) (fun v => (∀ i, i < 8 → v.getLsbD i = decide (ones (8 * i) 8 % 2 = 1)) ∧ ∀ i, 8 ≤ i → v.getLsbD i = false) ∧
    gives (.parw k rd rs) (fun v => (∀ i, i < 2 → v.getLsbD i = decide (ones (32 * i) 32 % 2 = 1)) ∧ ∀ i, 2 ≤ i → v.getLsbD i = false)

/-- One bit of a CRC step (R115). -/
def Sys2Proof.Machine.crcStep (p : Word) (crc : Word) (b : Bool) : Word :=
  if crc.getLsbD 0 != b then (crc >>> 1) ^^^ p else crc >>> 1

/-- R115: a CRC step takes the low nb bits of d[t], the least significant first. -/
def Sys2Proof.Machine.CrcStepResults : Prop :=
  ∀ (s : State) (k : CoreId) (rd rs rt : DReg) (wd : Fin 4), s.ready k →
    let c := s.core k
    let upon (p crc : Word) : Word := (List.range (8 * 2 ^ wd.val)).foldl (fun x i => crcStep p x ((c.rd rt).getLsbD i)) crc
    let gives (i : Instr) (v : Word) : Prop := Retires i s k ((c.wd rd v).adv 4)
    gives (.crc32c k rd rs rt wd) (upon 0x82F63B78 (((c.rd rs).setWidth 32).setWidth 64)) ∧
    gives (.crc64 k rd rs rt wd) (upon 0xC96C5795D7870F42 (c.rd rs)) ∧ gives (.crcp k rd rs rt wd) (upon (c.rsys 0x004) (c.rd rs))

/-- Products, quotients and remainders (R102), counts, reversals and parities (R114), and CRC steps (R115). -/
def Obligations.MultiplyDivideAndBitResults : Prop := MultiplyDivideResults ∧ BitManipulationResults ∧ CrcStepResults

/-! ## Kosal: floating point (R110–R113) -/

/-- The instructions that round complete with the rounded result and the flags it signals, under a valid mode; every other mode traps
(R110, R111, R113). -/
def Sys2Proof.Machine.FloatRoundedResults : Prop :=
  ∀ (s : State) (k : CoreId) (rd rs rt ra : DReg) (dp : Bool) (rm : Fin 8) (m : FpRm), s.ready k → (s.core k).fpRm rm = some m →
    let c := s.core k
    let f := fmtOf dp
    let x := f.decode (fpArg dp (c.rd rs))
    let y := f.decode (fpArg dp (c.rd rt))
    let z := f.decode (fpArg dp (c.rd ra))
    let gives (i : Instr) (r : Nat × FpFlags) : Prop :=
      Retires i s k ((((c.wd rd (BitVec.ofNat 64 r.1)).wsys 0x005 (c.rsys 0x005 ||| r.2.setWidth 64))).adv 4)
    gives (.fadd k rd rs rt dp rm) (f.add m x y) ∧ gives (.fsub k rd rs rt dp rm) (f.add m x y.negate) ∧
    gives (.fmul k rd rs rt dp rm) (f.mul m x y) ∧ gives (.fdiv k rd rs rt dp rm) (f.div m x y) ∧ gives (.fsqrt k rd rs dp rm) (f.sqrt m x) ∧
    gives (.fmadd k rd rs rt ra dp rm) (f.fma m x y z) ∧ gives (.fmsub k rd rs rt ra dp rm) (f.fma m x y z.negate) ∧
    gives (.fcvtI k rd rs dp rm) ((Sys2Proof.Machine.fcvtI m x).1.toNat, (Sys2Proof.Machine.fcvtI m x).2) ∧
    gives (.fcvtU k rd rs dp rm) ((Sys2Proof.Machine.fcvtU m x).1.toNat, (Sys2Proof.Machine.fcvtU m x).2) ∧
    gives (.fcvtF k rd rs dp rm) (f.round m (decide ((c.rd rs).toInt < 0)) (c.rd rs).toInt.natAbs 0 false) ∧
    gives (.fcvtFu k rd rs dp rm) (f.round m false (c.rd rs).toNat 0 false) ∧ gives (.fcvtP k rd rs dp rm) ((fmtOf (!dp)).fromVal m x)

/-- The FP instructions that do not round: minimum and maximum, the compares, the sign operations and the kind code (R112, R113). -/
def Sys2Proof.Machine.FloatUnroundedResults : Prop :=
  ∀ (s : State) (k : CoreId) (rd rs rt : DReg) (dp : Bool), s.ready k →
    let c := s.core k
    let f := fmtOf dp
    let x := f.decode (fpArg dp (c.rd rs))
    let y := f.decode (fpArg dp (c.rd rt))
    let sig := x = .nan true ∨ y = .nan true
    let some1 := x.isNan = true ∨ y.isNan = true
    let flags (nv : Prop) (c' : Core) : Core → Prop := fun c2 =>
      (nv ∧ c2 = (c'.wsys 0x005 (c'.rsys 0x005 ||| 16)).adv 4) ∨ (¬ nv ∧ c2 = (c'.wsys 0x005 (c'.rsys 0x005)).adv 4)
    let gives (i : Instr) (nv : Prop) (v : Word) : Prop := ∀ c2, flags nv (c.wd rd v) c2 → Retires i s k c2
    let quiet (i : Instr) (v : Word) : Prop := Retires i s k ((c.wd rd v).adv 4)
    let holds (p : Prop) (v : Word) : Prop := (p ∧ v = 1) ∨ (¬ p ∧ v = 0)
    (∀ v, holds (¬ some1 ∧ fpCmp x y = 0) v → gives (.fceq k rd rs rt dp) sig v) ∧
    (∀ v, holds (¬ some1 ∧ fpCmp x y < 0) v → gives (.fclt k rd rs rt dp) some1 v) ∧
    (∀ v, holds (¬ some1 ∧ fpCmp x y ≤ 0) v → gives (.fcle k rd rs rt dp) some1 v) ∧
    (∀ v, holds some1 v → gives (.fcun k rd rs rt dp) sig v) ∧
    (let a := BitVec.ofNat 64 (fpArg dp (c.rd rs))
     let b := BitVec.ofNat 64 (fpArg dp (c.rd rt))
     let least (lo hi : Word) (l h : FpVal) (v : Word) : Prop :=
       (l.isNan = false ∧ h.isNan = false ∧ (fpCmp l h < 0 ∨ (fpCmp l h = 0 ∧ f.neg lo.toNat = true ∧ f.neg hi.toNat = false)) ∧ v = lo) ∨
       (l.isNan = false ∧ h.isNan = true ∧ v = lo) ∨ (l.isNan = true ∧ h.isNan = true ∧ v = BitVec.ofNat 64 f.encNan)
     let same := x.isNan = false ∧ y.isNan = false ∧ fpCmp x y = 0 ∧ f.neg a.toNat = f.neg b.toNat
     (∀ v, least a b x y v ∨ least b a y x v ∨ (same ∧ v = a) → gives (.fmin k rd rs rt dp) sig v) ∧
     (∀ v, (x.isNan = false ∧ y.isNan = false ∧ fpCmp x y < 0 ∧ v = b) ∨ (x.isNan = false ∧ y.isNan = false ∧ 0 < fpCmp x y ∧ v = a) ∨
           (x.isNan = false ∧ y.isNan = false ∧ fpCmp x y = 0 ∧ v = if f.neg a.toNat = true ∧ f.neg b.toNat = false then b else a) ∨
           (x.isNan = false ∧ y.isNan = true ∧ v = a) ∨ (x.isNan = true ∧ y.isNan = false ∧ v = b) ∨
           (x.isNan = true ∧ y.isNan = true ∧ v = BitVec.ofNat 64 f.encNan) → gives (.fmax k rd rs rt dp) sig v)) ∧
    quiet (.fneg k rd rs dp) (if dp then c.rd rs ^^^ 0x8000000000000000#64 else ((c.rd rs).setWidth 32 ^^^ 0x80000000#32).setWidth 64) ∧
    quiet (.fabs k rd rs dp) (if dp then c.rd rs &&& 0x7FFFFFFFFFFFFFFF#64 else ((c.rd rs).setWidth 32 &&& 0x7FFFFFFF#32).setWidth 64) ∧
    quiet (.fkind k rd rs dp) (BitVec.ofNat 64 (f.kind (fpArg dp (c.rd rs))))

/-- The special values of the FP operations (R112, R113): canonical NaNs and what is invalid, signed infinities and DZ, the saturated
conversions, and that a value which a format holds rounds to itself without a flag in every mode. -/
def Sys2Proof.Machine.FloatSpecialValues : Prop :=
  ∀ (dp : Bool) (m : FpRm),
    let f := fmtOf dp
    let nan := f.encNan
    f.encNan = (if dp then 0x7FF8000000000000 else 0x7FC00000) ∧
    (∀ a b : FpVal, a.isNan = true ∨ b.isNan = true →
      (f.add m a b).1 = nan ∧ (f.mul m a b).1 = nan ∧ (f.div m a b).1 = nan ∧
      ((f.add m a b).2 = (if a = .nan true ∨ b = .nan true then 16 else 0)) ∧ (f.mul m a b).2 = (f.add m a b).2 ∧ (f.div m a b).2 = (f.add m a b).2) ∧
    (∀ n : Bool, f.add m (.inf n) (.inf (!n)) = (nan, 16)) ∧
    (∀ (n k : Bool) (e : Int), f.mul m (.inf n) (.fin k 0 e) = (nan, 16) ∧ f.mul m (.fin k 0 e) (.inf n) = (nan, 16) ∧
      (∀ q, f.fma m (.inf n) (.fin k 0 e) (.nan q) = (nan, 16)) ∧ f.sqrt m (.fin n 0 e) = (f.signBit n, 0)) ∧
    (∀ (n k : Bool) (x : Nat) (e e' : Int), x ≠ 0 →
      f.div m (.fin n x e) (.fin k 0 e') = (f.encInf (n != k), 8) ∧ f.sqrt m (.fin true x e) = (nan, 16)) ∧
    (∀ q : Bool, fcvtI m (.nan q) = (0x7FFFFFFFFFFFFFFF, 16) ∧ fcvtU m (.nan q) = (0xFFFFFFFFFFFFFFFF, 16)) ∧
    (∀ v : Word, (f.decode (fpArg dp v)).isNan = false → f.fromVal m (f.decode (fpArg dp v)) = (fpArg dp v, 0))

/-- Floating point: the instructions that round, those that do not, and the operations on special values (R110–R113). -/
def Obligations.FloatResults : Prop := FloatRoundedResults ∧ FloatUnroundedResults ∧ FloatSpecialValues

/-! ## Kosal: branches and jumps (R75, R76, R84, R105) -/

/-- R105 and R84: where a branch or a jump goes, what it links, and that an odd register target traps on the jump. -/
def Obligations.BranchAndJumpResults : Prop :=
  ∀ (s : State) (k : CoreId) (ds : DReg) (sd : SDReg) (ad as : AReg) (sa : SAReg) (o19 : BitVec 19) (o24 : BitVec 24) (o7 : BitVec 7)
    (o11 : BitVec 11), s.ready k →
    let c := s.core k
    let goes (i : Instr) (c' : Core) (pc : Word) : Prop := Retires i s k { c' with pc := pc }
    let reg (i : Instr) (t : Word) (c' : Core) (wide : Bool) : Prop :=
      (t.getLsbD 0 = false → goes i c' t) ∧ (t.getLsbD 0 = true → s.calm k → Raises i s k c.excLevel 0x03 0 wide t 0)
    goes (.bz k ds o19) c (if c.rd ds = 0 then c.pc + o19.signExtend 64 * 2 else c.pc + 4) ∧
    goes (.bnz k ds o19) c (if c.rd ds = 0 then c.pc + 4 else c.pc + o19.signExtend 64 * 2) ∧
    goes (.bzS k sd o7) c (if c.rd (longD sd) = 0 then c.pc + o7.signExtend 64 * 2 else c.pc + 2) ∧
    goes (.bnzS k sd o7) c (if c.rd (longD sd) = 0 then c.pc + 2 else c.pc + o7.signExtend 64 * 2) ∧
    goes (.j k o24) c (c.pc + o24.signExtend 64 * 2) ∧ goes (.jS k o11) c (c.pc + o11.signExtend 64 * 2) ∧
    goes (.jal k o24) (c.wa 14 (c.pc + 4)) (c.pc + o24.signExtend 64 * 2) ∧
    reg (.jr k as) (c.ra' as) c true ∧ reg (.jrS k sa) (c.ra' (longA sa)) c false ∧ reg (.retS k) (c.ra' 14) c false ∧
    reg (.jalr k ad as) (c.ra' as) (c.wa ad (c.pc + 4)) true ∧ reg (.jalrS k sa) (c.ra' (longA sa)) (c.wa 14 (c.pc + 2)) false

/-! ## Kosal: loads and stores (R90, R93, R106–R109, R208) -/

/-- A load instruction. From normal memory it completes with what the access reads: the base is updated only with P = 1, and memory is as
the read left it. From device memory, with the device-store queue drained, the core sends DRD and waits for the answer (R209). -/
def Sys2Proof.Machine.LoadsTo (i : Instr) (k : CoreId) (ab : AReg) (off : Word) (post aligned : Bool) (o : LoadOp)
    (put : Core → Nat → Core) : Prop :=
  ∀ (s s1 : State) (p : Part) (ps : List Part), s.ready k →
    let c := s.core k
    let va := if post then c.ra' ab else c.ra' ab + off
    let upd := if post then some (ab, c.ra' ab + off) else none
    let o := { o with base := ab, upd := upd }
    (aligned = true → va.toNat % o.n = 0) → xlate k .read false (tcDevAligned va.toNat o.n .read) va o.n s = .ok (p :: ps) s1 →
    s1.wpHit k va o.n true false = none →
    (∀ (s2 : State) (v : Nat), (∀ x ∈ p :: ps, x.dev = false) → loadNormal k o (p :: ps) s1 = .ok v s2 → s2.settled = true →
      Does i s fun t => (t.core k).sameRegs ((put (if post then c.wa ab (c.ra' ab + off) else c) v).adv o.len) ∧ SameOutside s2 t k) ∧
    (p.dev = true → c.dq = [] → s1.settled = true →
      let w : DevWait := { va := va, ppa := p.ppa, size := o.n, sign := o.sign, dst := o.dst, upd := upd, len := o.len }
      exec i s = .next ((s1.send .drd (drdMsg s1 k c.inner p.ppa o.n)).setCore k { (s1.core k) with wait := some w }))

/-- Every load from normal memory (R90, R93, R106): its address, its size, the extension of the value, and the base update. -/
def Sys2Proof.Machine.LoadResults : Prop :=
  ∀ (k : CoreId) (rt : DReg) (ra ab : AReg) (qt : QReg) (off : BitVec 14) (post : Bool) (sr : SDReg) (sb : SAReg) (o3 : Fin 8) (o7 : BitVec 7),
    let op (n : Nat) (sign : Bool) (dst : RaDest) (len : Nat) : LoadOp :=
      { n := n, sign := sign, dst := dst, fwd := n != 64, stream := n == 64, base := 0, upd := none, len := len }
    let zx (r : DReg) : Core → Nat → Core := fun c v => c.wd r (BitVec.ofNat 64 v)
    let sx (r : DReg) (n : Nat) : Core → Nat → Core := fun c v => c.wd r ((BitVec.ofNat (8 * n) v).signExtend 64)
    let off14 := off.signExtend 64
    let off3 (size : Nat) : Word := BitVec.ofNat 64 (if post then (o3.val + 1) * size else o3.val * size)
    LoadsTo (.lb k rt ab off post) k ab off14 post false (op 1 true (.d rt) 4) (sx rt 1) ∧
    LoadsTo (.lbu k rt ab off post) k ab off14 post false (op 1 false (.d rt) 4) (zx rt) ∧
    LoadsTo (.lh k rt ab off post) k ab off14 post false (op 2 true (.d rt) 4) (sx rt 2) ∧
    LoadsTo (.lhu k rt ab off post) k ab off14 post false (op 2 false (.d rt) 4) (zx rt) ∧
    LoadsTo (.lw k rt ab off post) k ab off14 post false (op 4 true (.d rt) 4) (sx rt 4) ∧
    LoadsTo (.lwu k rt ab off post) k ab off14 post false (op 4 false (.d rt) 4) (zx rt) ∧
    LoadsTo (.ld k rt ab off post) k ab off14 post false (op 8 false (.d rt) 4) (zx rt) ∧
    (¬ (post = true ∧ ra = ab) →
      LoadsTo (.lda k ra ab off post) k ab off14 post false (op 8 false (.a ra) 4) (fun c v => c.wa ra (BitVec.ofNat 64 v))) ∧
    LoadsTo (.qload k qt ab off post) k ab off14 post true (op 64 false (.q qt) 4) (fun c v => c.wq qt (BitVec.ofNat 512 v)) ∧
    LoadsTo (.ldS k sr sb o3 post) k (longA sb) (off3 8) post false (op 8 false (.d (longD sr)) 2) (zx (longD sr)) ∧
    LoadsTo (.lwS k sr sb o3 post) k (longA sb) (off3 4) post false (op 4 true (.d (longD sr)) 2) (sx (longD sr) 4) ∧
    LoadsTo (.ldspS k sr o7) k 15 (o7.setWidth 64 * 8) false false (op 8 false (.d (longD sr)) 2) (zx (longD sr))

/-- What a load of normal memory reads (R107, R208, R227, R246): the youngest overlapping store where it holds every byte; a wait where it
holds some; otherwise the cluster's copy of a line that the core has, or for non-cacheable memory the newest copy of the line. A value that
R205 leaves to a load performed before older ones is not among these: no earlier value of the line is still to be read. -/
def Sys2Proof.Machine.LoadValues : Prop :=
  ∀ (s : State) (k : CoreId) (o : LoadOp) (p : Part),
    let q := (s.core k).sq
    let upon (e : SqEnt) : Prop := e.ppa < p.ppa + p.n ∧ p.ppa < e.ppa + e.size
    let whole (e : SqEnt) : Prop := e.ppa ≤ p.ppa ∧ p.ppa + p.n ≤ e.ppa + e.size
    (∀ q1 q2 e, o.fwd = true → q = q1 ++ e :: q2 → (∀ x ∈ q2, ¬ upon x) → upon e → whole e →
      loadNormal k o [p] s = .ok (if e.zero then 0 else e.data.toNat / 2 ^ (8 * (p.ppa - e.ppa)) % 2 ^ (8 * p.n)) s) ∧
    (∀ q1 q2 e, o.fwd = true → q = q1 ++ e :: q2 → (∀ x ∈ q2, ¬ upon x) → upon e → ¬ whole e → loadNormal k o [p] s = .wait s) ∧
    (∀ q1 q2 e, o.fwd = false → q = q1 ++ e :: q2 → upon e → loadNormal k o [p] s = .wait s) ∧
    (∀ kind tc va da cp, s.hits k kind tc va p.n p da cp →
      ∃ t, loadNormal k o [p] s = .ok (cp.data.toNat / 2 ^ (8 * (da % 64)) % 2 ^ (8 * p.n)) t ∧ t.mem = s.mem ∧ t.lines = s.lines) ∧
    (∀ da, q = [] → (s.core k).stale = [] → p.dev = false → p.cacheable = false → s.firewall k p.ppa (s.core k).inner false = .inl da →
      da % 64 + p.n ≤ 64 → (s.pidOf k).val ∉ s.refused → s.lineQuiet (da / 64) = true → s.reqHold (clusterOf k) = false →
      s.sound (da / 64) → (s.newest (da / 64) (s.pidOf k)).2 = false →
      ∃ t, loadNormal k o [p] s = .ok ((s.newest (da / 64) (s.pidOf k)).1.toNat / 2 ^ (8 * (da % 64)) % 2 ^ (8 * p.n)) t ∧ t.mem = s.mem)

/-- Loads: what each form asks memory for, and the value that it brings back. -/
def Obligations.LoadAndValueResults : Prop := LoadResults ∧ LoadValues

/-- A store instruction completes: its bytes stand at the end of the store queue, or for device memory of the device-store queue, with
its address and world; the base is updated only with P = 1, and memory is unchanged until the queue drains (R208). -/
def Sys2Proof.Machine.StoresFrom (i : Instr) (k : CoreId) (ab : AReg) (off : Word) (post aligned : Bool) (n len : Nat)
    (val : Core → Nat) : Prop :=
  ∀ (s s1 : State) (p : Part) (ps : List Part), s.ready k →
    let c := s.core k
    let va := if post then c.ra' ab else c.ra' ab + off
    let es := sqEntries c.inner (p :: ps) (val c % 2 ^ (8 * n))
    let e : DqEnt := { ppa := p.ppa, size := n, data := BitVec.ofNat 512 (val c % 2 ^ (8 * n)), issued := false, inner := c.inner }
    let done (t : State) : Prop :=
      (t.core k).sameRegs ((if post then c.wa ab (c.ra' ab + off) else c).adv len) ∧ SameOutside s1 t k
    (aligned = true → va.toNat % n = 0) → xlate k .write false (tcDevAligned va.toNat n .write) va n s = .ok (p :: ps) s1 →
    s1.wpHit k va n false true = none → s1.settled = true →
    ((∀ x ∈ p :: ps, x.dev = false) → sqUsed c.sq + sqUsed es ≤ 128 →
      Does i s fun t => done t ∧ (t.core k).sq = c.sq ++ es ∧ (t.core k).dq = c.dq) ∧
    (p.dev = true → c.dq.length < 16 → Does i s fun t => done t ∧ (t.core k).dq = c.dq ++ [e] ∧ (t.core k).sq = c.sq)

/-- Every store to normal memory (R90, R93, R106, R109, R208). -/
def Obligations.StoreResults : Prop :=
  ∀ (k : CoreId) (rt : DReg) (ra ab : AReg) (qt : QReg) (off : BitVec 14) (post : Bool) (sr : SDReg) (sb : SAReg) (o3 : Fin 8) (o7 : BitVec 7),
    let d (r : DReg) : Core → Nat := fun c => (c.rd r).toNat
    let off14 := off.signExtend 64
    let off3 (size : Nat) : Word := BitVec.ofNat 64 (if post then (o3.val + 1) * size else o3.val * size)
    StoresFrom (.sb k rt ab off post) k ab off14 post false 1 4 (d rt) ∧ StoresFrom (.sh k rt ab off post) k ab off14 post false 2 4 (d rt) ∧
    StoresFrom (.sw k rt ab off post) k ab off14 post false 4 4 (d rt) ∧ StoresFrom (.sd k rt ab off post) k ab off14 post false 8 4 (d rt) ∧
    StoresFrom (.sda k ra ab off post) k ab off14 post false 8 4 (fun c => (c.ra' ra).toNat) ∧
    StoresFrom (.qsave k qt ab off post) k ab off14 post true 64 4 (fun c => (c.rq qt).toNat) ∧
    StoresFrom (.stS k sr sb o3 post) k (longA sb) (off3 8) post false 8 2 (d (longD sr)) ∧
    StoresFrom (.swS k sr sb o3 post) k (longA sb) (off3 4) post false 4 2 (d (longD sr)) ∧
    StoresFrom (.stspS k sr o7) k 15 (o7.setWidth 64 * 8) false false 8 2 (d (longD sr))

/-! ## Kosal: accumulators (R117–R121) -/

/-- QACC: Qd gains what R118 says of the blocks that the addresses hold, and with P = 1 each named A register rises by 64 once (R96). -/
def Sys2Proof.Machine.AccumulateResults : Prop :=
  ∀ (s : State) (k : CoreId) (rd : QReg) (rs rt : AReg) (post : Bool) (p q : Part) (da db : Nat) (x y : L2Copy), s.ready k →
    let c := s.core k
    let tgt (r : AReg) : Word := c.ra' r
    let hit (r : AReg) (p : Part) (da : Nat) (x : L2Copy) : Prop :=
      (tgt r).toNat % 64 = 0 ∧ s.hits k .read (fun _ => none) (tgt r) 64 p da x
    let up1 (c : Core) : Core := if post then c.wa rs (c.ra' rs + 64) else c
    let up2 (c : Core) : Core := if post then (if rs = rt then c.wa rs (c.ra' rs + 64) else (c.wa rs (c.ra' rs + 64)).wa rt (c.ra' rt + 64)) else c
    let gives (i : Instr) (v : Line) (up : Core → Core) : Prop := Completes i s k ((up (c.wq rd v)).adv 4)
    let ln32 (v : Line) (i : Nat) : BitVec 32 := BitVec.extractLsb' (32 * i) 32 v
    let ln64 (v : Line) (i : Nat) : BitVec 64 := BitVec.extractLsb' (64 * i) 64 v
    let ln16 (v : Line) (i : Nat) : BitVec 16 := BitVec.extractLsb' (16 * i) 16 v
    let sb (v : Line) (i : Nat) : Int := (BitVec.extractLsb' (8 * i) 8 v).toInt
    (hit rs p da x → hit rt q db y → (∀ v : Line, (∀ i, i < 16 → ln32 v i = ln32 (c.rq rd) i + BitVec.ofInt 32
        (sb x.data (4 * i) * sb y.data (4 * i) + sb x.data (4 * i + 1) * sb y.data (4 * i + 1) +
         sb x.data (4 * i + 2) * sb y.data (4 * i + 2) + sb x.data (4 * i + 3) * sb y.data (4 * i + 3))) →
      gives (.qdot8 k rd rs rt post) v up2)) ∧
    (hit rs p da x → hit rt q db y → (∀ v : Line, (∀ i, i < 16 → (ln32 v i).toNat = roundF32 (exactAdd (exactAdd (fp32.decode (ln32 (c.rq rd) i).toNat)
        (exactMul (bf16 (ln16 x.data (2 * i)).toNat) (bf16 (ln16 y.data (2 * i)).toNat)))
        (exactMul (bf16 (ln16 x.data (2 * i + 1)).toNat) (bf16 (ln16 y.data (2 * i + 1)).toNat)))) →
      gives (.qdotbf k rd rs rt post) v up2)) ∧
    (hit rs p da x → (∀ v : Line, (∀ i, i < 8 → ln64 v i = ln64 (c.rq rd) i +
        BitVec.ofNat 64 ((List.range 64).filter fun j => (ln64 x.data i).getLsbD j).length) → gives (.qpopc k rd rs post) v up1)) ∧
    (hit rs p da x → c.rsys 0x004 ≠ 0 → gives (.qclf k rd rs post) (qclf (c.rsys 0x004) (c.rq rd) x.data) up1)

/-- QZERO and the reductions (R121); QRED.C and QCLF trap while SYS_CRC_POLY is 0 (R120). -/
def Sys2Proof.Machine.ReductionResults : Prop :=
  ∀ (s : State) (k : CoreId) (rd : DReg) (rs qd : QReg) (as : AReg) (post : Bool), s.ready k →
    let c := s.core k
    let q := c.rq rs
    let l (i : Nat) : Nat := (BitVec.extractLsb' (32 * i) 32 q).toNat
    let t (i : Nat) : Nat := f32add (l (2 * i)) (l (2 * i + 1))
    let u (i : Nat) : Nat := f32add (t (2 * i)) (t (2 * i + 1))
    let gives (i : Instr) (v : Word) : Prop := Retires i s k ((c.wd rd v).adv 4)
    Retires (.qzero k qd) s k ((c.wq qd 0).adv 4) ∧
    gives (.qredI k rd rs) (BitVec.ofInt 64 (((List.range 16).map fun i => (BitVec.extractLsb' (32 * i) 32 q).toInt).sum)) ∧
    gives (.qredF k rd rs) (BitVec.ofNat 64 (f32add (f32add (u 0) (u 1)) (f32add (u 2) (u 3)))) ∧
    gives (.qredP k rd rs) (((List.range 8).map fun i => BitVec.extractLsb' (64 * i) 64 q).sum) ∧
    (c.rsys 0x004 ≠ 0 → gives (.qredC k rd rs) (qredC (c.rsys 0x004) q)) ∧
    (c.rsys 0x004 = 0 → s.calm k → Raises (.qredC k rd rs) s k c.excLevel 0x01 0 true 0 0 ∧ Raises (.qclf k qd as post) s k c.excLevel 0x01 0 true 0 0)

/-- The accumulates of the Q class and the reductions and folds over it. -/
def Obligations.AccumulateAndReductionResults : Prop := AccumulateResults ∧ ReductionResults

/-- QZERO, QCLF over blocks and QRED.C give the register that CRCP.D steps give over the same bytes from 0 (R122). -/
def Obligations.FoldEqualsCrcSteps : Prop :=
  ∀ (p : Word) (blocks : List Line), p ≠ 0 →
    qredC p (blocks.foldl (fun q a => qclf p q a) 0) =
      blocks.foldl (fun crc a => (List.range 512).foldl (fun x i => crcStep p x (a.getLsbD i)) crc) 0

/-! ## Kosal: atomics and reservations (R124–R129, R220, R251) -/

/-- R124: the new value of an ATOM at `w` bits. -/
def Sys2Proof.Machine.atomNew (op : AtomOp) {w : Nat} (old t d : BitVec w) : BitVec w :=
  match op with
  | .add => old + t | .and_ => old &&& t | .or_ => old ||| t | .xor_ => old ^^^ t | .swap => t
  | .smin => if old.toInt ≤ t.toInt then old else t
  | .smax => if old.toInt ≤ t.toInt then t else old
  | .umin => if old.toNat ≤ t.toNat then old else t
  | .umax => if old.toNat ≤ t.toNat then t else old
  | .cas => if old = d then t else old

/-- The command of an ATOM. -/
def Sys2Proof.Machine.atomInstr (op : AtomOp) (k : CoreId) (rd : DReg) (rs : AReg) (rt : DReg) (far w64 : Bool) : Instr :=
  match op with
  | .add => .atomAdd k rd rs rt far w64 | .and_ => .atomAnd k rd rs rt far w64 | .or_ => .atomOr k rd rs rt far w64
  | .xor_ => .atomXor k rd rs rt far w64 | .swap => .atomSwap k rd rs rt far w64 | .smin => .atomSmin k rd rs rt far w64
  | .smax => .atomSmax k rd rs rt far w64 | .umin => .atomUmin k rd rs rt far w64 | .umax => .atomUmax k rd rs rt far w64
  | .cas => .atomCas k rd rs rt far w64

/-- What a store into a line that the cluster owns leaves: the copy with its bytes replaced in M, every other line and all of memory as
before, and no core's reservation on the line (R129). -/
def Sys2Proof.Machine.WroteLine (s t : State) (k : CoreId) (ln off n v : Nat) (cp : L2Copy) : Prop :=
  t.copy ln (clusterOf k) = some { cp with st := .m, data := linePut cp.data off n v } ∧ t.mem = s.mem ∧
  (∀ x, x ≠ ln → t.line x = s.line x) ∧ (∀ j r, (t.core j).resv = some r → (s.core j).resv = some r ∧ r.ln ≠ ln) ∧
  ∀ j, j ≠ k → (t.core j).sameRegs (s.core j)

/-- Every ATOM performs its read and its write in one step (R124): near it acts on the owned line in the L2; far, on the newest data at
the home of a line that no cache holds (R125, R249). -/
def Sys2Proof.Machine.AtomicResults : Prop :=
  ∀ (op : AtomOp) (s : State) (k : CoreId) (rd : DReg) (rs : AReg) (rt : DReg) (far w64 : Bool) (p : Part) (da : Nat) (cp : L2Copy),
    s.ready k → s.noneDeferred →
    let n := if w64 then 8 else 4
    let c := s.core k
    let va := c.ra' rs
    let t' := (c.rd rt).toNat % 2 ^ (8 * n)
    let d' := (c.rd rd).toNat % 2 ^ (8 * n)
    let new (old : Nat) : Nat := (atomNew op (BitVec.ofNat (8 * n) old) (BitVec.ofNat (8 * n) t') (BitVec.ofNat (8 * n) d')).toNat
    let res (old : Nat) : Core := (c.wd rd ((BitVec.ofNat (8 * n) old).signExtend 64)).adv 4
    va.toNat % n = 0 →
    (far = false → s.hits k .rw (tcNoDev va.toNat .rw) va n p da cp → (c.holds (da / 64) c.inner = true ∨ s.l2State (clusterOf k) = 1) →
      cp.st = .m ∨ cp.st = .e →
      let old := cp.data.toNat / 2 ^ (8 * (da % 64)) % 2 ^ (8 * n)
      ∃ t, exec (atomInstr op k rd rs rt false w64) s = .next t ∧ (t.core k).sameRegs (res old) ∧ WroteLine s t k (da / 64) (da % 64) n (new old) cp) ∧
    (far = true → xlate k .rw false (tcNoDev va.toNat .rw) va n s = .ok [p] s → p.dev = false → c.sq = [] → (∀ r w, s.wpHit k va n r w = none) →
      s.firewall k p.ppa c.inner false = .inl da → (s.pidOf k).val ∉ s.refused → (s.line (da / 64)).tr = none → (s.line (da / 64)).queue = [] →
      (s.line (da / 64)).l2 = [] → (s.line (da / 64)).dir = none → s.sound (da / 64) → s.reqHold (clusterOf k) = false → s.cxlLost (da / 64) = false →
      (p.cacheable = true ∧ (∃ x, (s.line (da / 64)).l3 = some x ∧ x.pid = s.pidOf k)) ∨ ((s.line (da / 64)).l3 = none ∧ s.l3Peers (da / 64) = []) →
      (s.newest (da / 64) (s.pidOf k)).2 = false →
      let line := (s.newest (da / 64) (s.pidOf k)).1
      let old := line.toNat / 2 ^ (8 * (da % 64)) % 2 ^ (8 * n)
      ∃ t, exec (atomInstr op k rd rs rt true w64) s = .next t ∧ (t.core k).sameRegs (res old) ∧
        t.newest (da / 64) (s.pidOf k) = (linePut line (da % 64) n (new old), false) ∧ (∀ x, x ≠ da / 64 → t.line x = s.line x) ∧
        ∀ a, a / 64 ≠ da / 64 → t.rdByte a = s.rdByte a)

/-- LDRES sets the reservation on its line; STCOND stores exactly where it holds and ends it either way (R127, R220). -/
def Sys2Proof.Machine.ReservationResults : Prop :=
  ∀ (s : State) (k : CoreId) (rd : DReg) (rs : AReg) (rt : DReg) (w64 : Bool) (p : Part) (da since : Nat) (cp : L2Copy),
    s.ready k → s.noneDeferred →
    let n := if w64 then 8 else 4
    let c := s.core k
    let va := c.ra' rs
    let ln := da / 64
    let v := cp.data.toNat / 2 ^ (8 * (da % 64)) % 2 ^ (8 * n)
    va.toNat % n = 0 → cp.st = .m ∨ cp.st = .e → (c.holds ln c.inner = true ∨ s.l2State (clusterOf k) = 1) →
    (s.hits k .read (tcCacheable va.toNat .read) va n p da cp →
      ∃ t, exec (.ldres k rd rs w64) s = .next t ∧ (t.core k).sameRegs ((c.wd rd ((BitVec.ofNat (8 * n) v).signExtend 64)).adv 4) ∧
        (t.core k).resv = some { ln := ln, atHome := false, defer := true, since := s.now } ∧ t.mem = s.mem ∧ (∀ x, x ≠ ln → t.line x = s.line x) ∧
        ∀ j, j ≠ k → t.core j = s.core j) ∧
    (s.hits k .write (tcCacheable va.toNat .write) va n p da cp →
      (c.resv = some { ln := ln, atHome := false, defer := true, since := since } →
        ∃ t, exec (.stcond k rd rs rt w64) s = .next t ∧ (t.core k).sameRegs ((c.wd rd 0).adv 4) ∧ (t.core k).resv = none ∧
          WroteLine s t k ln (da % 64) n ((c.rd rt).toNat % 2 ^ (8 * n)) cp) ∧
      (c.resv = none ∨ (∃ r, c.resv = some r ∧ r.ln ≠ ln) →
        ∃ t, exec (.stcond k rd rs rt w64) s = .next t ∧ (t.core k).sameRegs ((c.wd rd 1).adv 4) ∧ (t.core k).resv = none ∧ SameOutside s t k))

/-- Atomic operations, and load-reserve with its conditional store. -/
def Obligations.AtomicAndReservationResults : Prop := AtomicResults ∧ ReservationResults

/-! ## Kosal: barriers, system registers and maintenance (R130–R133, R139, R172, R196, R197, R211, R252) -/

/-- Barriers complete when what they wait for is done and otherwise wait; ISYNC makes translation changes take effect; a WFI with a
wake event pending goes on (R130–R132, R211). -/
def Sys2Proof.Machine.BarrierResults : Prop :=
  ∀ (s : State) (k : CoreId), s.ready k →
    let c := s.core k
    let out := c.sq = [] ∧ ∀ e ∈ c.dq, e.issued = true
    (out → Retires (.barC k) s k (c.adv 4)) ∧ (¬ out → exec (.barC k) s = .next s) ∧
    (out → (∀ t ∈ c.tlbOut, t.2 ≠ (clusterOf k).val) → Retires (.barK k) s k (c.adv 4)) ∧ (¬ out → exec (.barK k) s = .next s) ∧
    (c.sq = [] → c.dq = [] → c.tlbOut = [] → c.maintOut = [] → Retires (.barS k) s k (c.adv 4)) ∧
    (c.sq ≠ [] ∨ c.dq ≠ [] ∨ c.tlbOut ≠ [] ∨ c.maintOut ≠ [] → exec (.barS k) s = .next s) ∧
    Retires (.isync k) s k { (c.adv 4) with trOld := none } ∧
    (c.pl ≠ 0 → s.wakeEvent k = true → Retires (.wfi k) s k (c.adv 4))

/-- What MFS reads and MTS writes in every register that is not a view of something else (R78, R79, R133), the A15 copies, the
translation registers, which take effect late (R172), package time, which never decreases on a Facet (R39), and the counters; SYS_CYCLE and
a counter whose event needs cycles read some count (model's choice, log entries 25 and 26). -/
def Obligations.SystemRegisterResults : Prop :=
  ∀ (s : State) (k : CoreId) (n : BitVec 12) (rd rs : DReg), s.ready k →
    let c := s.core k
    let v := c.rd rs
    let x := n.toNat
    let f := facetOf (clusterOf k)
    let old : TrRegs := { s1Root := c.rsys 0x410, s1Ctl := c.rsys 0x411, s2Root := c.rsys 0x810, s2Ctl := c.rsys 0x811 }
    let reads (w : Word) : Prop := Retires (.mfs k rd n) s k ((c.wd rd w).adv 4)
    let writes (c' : Core) : Prop := Retires (.mts k n rs) s k (c'.adv 4)
    srnListed x = true → (x / 1024 ≤ c.pl.val) →
    (x ∉ [0x200, 0x201, 0x400, 0x407, 0x600, 0x601, 0x800, 0x807, 0xC00, 0xC07] → (0x428 ≤ x → x ≤ 0x42F → c.pmcFree (x - 0x428) = false) →
      reads (c.rsys x)) ∧
    (0x428 ≤ x → x ≤ 0x42F → c.pmcFree (x - 0x428) = true → bit (c.rsys 0x420) 2 = false → ∃ m, reads (pmcAdd (c.rsys x) m).1) ∧
    (x = 0x407 → reads (c.sp.get 0 0)) ∧ (x = 0x807 → reads (c.sp.get 0 1)) ∧ (x = 0xC07 → reads (c.sp.get 0 2)) ∧
    (x ∈ [0x400, 0x800, 0xC00] → reads ((c.rsys x &&& ~~~ 7) ||| BitVec.ofNat 64 (c.pl.val + if c.inner then 4 else 0))) ∧
    (x = 0x200 → ∃ v : Int, (v = s.facetNow f ∨ (s.facets.get Facet.empty f.val).shown = some v) ∧ s.facetNow f ≤ v ∧
      (∀ w, (s.facets.get Facet.empty f.val).shown = some w → w ≤ v) ∧ ∃ t, exec (.mfs k rd n) s = .next t ∧
        (t.core k).like ((c.wd rd (BitVec.ofInt 64 v)).adv 4) ∧ SameOutside s t k ∧ (t.facets.get Facet.empty f.val).shown = some v) ∧
    (x = 0x601 → ∃ d : Word, Retires (.mfs k rd n) s k (((c.wsys 0x601 (c.rsys 0x601 + d)).wd rd (c.rsys 0x601 + d)).adv 4)) ∧
    (x = 0x201 → reads (BitVec.ofNat 64 (s.facetTime (facetOf (clusterOf k))).1)) ∧
    (x = 0x600 → reads (BitVec.ofNat 64 (k.val + k.val / 6 * 256 + k.val / 18 * 65536 + (s.pidOf k).val * 1048576))) ∧
    (x ∈ [0x003, 0x004, 0x402, 0x404, 0x406, 0x408, 0x802, 0x804, 0x806, 0xC02, 0xC04, 0xC06] → writes (c.wsys x v)) ∧
    (x = 0x002 → writes (c.wsys x ((c.rsys x &&& ~~~ 0xFFFFFFFF) ||| (v &&& 0xFFFFFFFF)))) ∧
    (x = 0x005 → writes (c.wsys x ((c.rsys x &&& ~~~ 0xFF) ||| (v &&& 0xFF)))) ∧
    (x ∈ [0x405, 0x805, 0xC05] → writes (c.wsys x ((c.rsys x &&& 0x7FF) ||| (v &&& ~~~ 0x7FF)))) ∧
    (x = 0x407 → writes { c with sp := c.sp.set 0 0 v }) ∧ (x = 0x807 → writes { c with sp := c.sp.set 0 1 v }) ∧
    (x = 0xC07 → writes { c with sp := c.sp.set 0 2 v }) ∧
    (x = 0x410 → writes { (c.wsys x ((c.rsys x &&& ~~~ 0x01FFFFFFFFFFF000) ||| (v &&& 0x01FFFFFFFFFFF000))) with trOld := some (c.trOld.getD old) }) ∧
    (x / 512 % 2 = 1 → s.calm k → Raises (.mts k n rs) s k c.excLevel 0x01 0 true 0 0)

/-- The TLBIs remove the named entries at once in the issuing core and send one TLBD to every cluster of its partition that is not powered down, whose
cores hold no entries (R139, R196, R197; the model's reading, log entry 80). -/
def Sys2Proof.Machine.TlbInvalidateResults : Prop :=
  ∀ (s : State) (k : CoreId) (rs : AReg) (rt : DReg) (tag : Nat), s.ready k →
    let c := s.core k
    let s2 := c.rsys 0x811
    let gs := (s.clustersOf (s.pidOf k)).filter fun g => s.rf (.pwrStatus (clusterDom (Fin.ofNat 36 g))) 1 0 != 3
    let op (n asid page : Nat) : TlbOp :=
      { op := n, en := bit s2 0, s2id := fld s2 23 16, asid := asid, inner := c.inner && decide (n < 3), page := page }
    let page := fld (c.ra' rs) 56 12
    let asid := fld (c.rd rt) 15 0
    let does (i : Instr) (o : TlbOp) : Prop := ∃ t l, exec i s = .next t ∧
      (t.core k).like { ((c.tlbi o).adv 4) with tlbOut := c.tlbOut ++ gs.map fun g => (tag, g) } ∧ SameOutside s t k ∧
      t.msgs = s.msgs ++ gs.map (fun g => (MsgKind.tlbd, { Msg.zero with
        pid := s.pidOf k, inner := o.inner, src := BitVec.ofNat 8 (clusterOf k).val, score := Fin.ofNat 8 (k.val % 6),
        dst := BitVec.ofNat 8 g, ln := o.page, arg := o.arg tag })) ++ l
    c.freeTag = some tag →
    (c.pl ≠ 0 → does (.tlbiVa k rs rt) (op 0 asid page) ∧ does (.tlbiAsid k rt) (op 1 asid 0) ∧ does (.tlbiS1all k) (op 2 0 0)) ∧
    (2 ≤ c.pl.val → does (.tlbiIpa k rs) (op 3 0 page) ∧ does (.tlbiS2all k) (op 4 0 0))

/-- The DC and IC operations act in the cluster and send their message to the line's home, where they complete; DC.ZERO is a store of 64
zero bytes (R139, R140, R252). -/
def Sys2Proof.Machine.CacheMaintenanceResults : Prop :=
  ∀ (s : State) (k : CoreId) (rs : AReg) (p : Part) (da : Nat), s.ready k →
    let c := s.core k
    let va := c.ra' rs &&& ~~~ 63
    let ln := da / 64
    let found (kind : Kind) (tc : TypeCheck) : Prop :=
      xlate k kind false tc va 64 s = .ok [p] s ∧ p.dev = false ∧ (∀ e ∈ c.sq, e.ppa / 64 ≠ p.ppa / 64) ∧
      s.firewall k p.ppa c.inner false = .inl da ∧ (s.pidOf k).val ∉ s.refused ∧ s.lineQuiet ln = true ∧ s.reqHold (clusterOf k) = false ∧
      s.noneDeferred
    let does (i : Instr) (m : MsgKind) : Prop := ∃ t l l', exec i s = .next t ∧ (t.core k).sameRegs (c.adv 4) ∧
      (t.core k).maintOut = c.maintOut ++ [(ln, s.tick)] ∧ t.msgs = s.msgs ++ l ++ [(m, s.reqMsg k c.inner ln 0)] ++ l'
    let kept (i : Instr) : Prop := ∃ t, exec i s = .next t ∧ t.mem = s.mem ∧ t.lines = s.lines
    let gone (i : Instr) : Prop := ∃ t, exec i s = .next t ∧ t.copy ln (clusterOf k) = none ∧ (t.core k).holds ln true = false
    (found .read (fun _ => none) →
      does (.dcClean k rs) .cln ∧ kept (.dcClean k rs) ∧ does (.icInv k rs) .iiv ∧ kept (.icInv k rs) ∧ does (.dcClinv k rs) .cli ∧
      ((s.copy ln (clusterOf k)).isSome = true → gone (.dcClinv k rs))) ∧
    (c.pl ≠ 0 → found .write (tcNoDev va.toNat .write) →
      does (.dcInv k rs) .inv ∧ ((s.copy ln (clusterOf k)).isSome = true → gone (.dcInv k rs))) ∧
    (xlate k .write false (tcNoDev va.toNat .write) va 64 s = .ok [p] s → (∀ r w, s.wpHit k va 64 r w = none) → sqUsed c.sq ≤ 120 →
      Retires (.dcZero k rs) s k { (c.adv 4) with
        sq := c.sq ++ [{ ppa := p.ppa / 64 * 64, size := 64, data := 0, cacheable := p.cacheable, zero := true, inner := c.inner }] })

/-- Barriers, TLB invalidation and cache maintenance. -/
def Obligations.BarrierAndMaintenanceResults : Prop := BarrierResults ∧ TlbInvalidateResults ∧ CacheMaintenanceResults

/-! ## Kosal: exceptions (R78, R84, R99, R100, R134–R137, R155–R162) -/

/-- R158 and R161: what one entry to a level writes, and what it leaves alone. -/
def Sys2Proof.Machine.ExceptionEntryEffect : Prop :=
  ∀ (c : Core) (l : Level) (epc syn addr : Word) (vec : Nat), l ≠ 0 →
    let e := c.enter l epc syn addr vec
    let st := 0x400 * l.val
    let old := c.rsys st
    let new := e.rsys st
    e.rsys (st + 2) = epc ∧ e.rsys (st + 3) = syn ∧ e.rsys (st + 4) = addr ∧
    new.getLsbD 7 = old.getLsbD 6 ∧ new.getLsbD 9 = old.getLsbD 8 ∧ new.getLsbD 6 = true ∧ new.getLsbD 8 = true ∧
    new.extractLsb' 4 2 = BitVec.ofNat 2 c.pl.val ∧ new.getLsbD 10 = (if l = 3 then c.inner else old.getLsbD 10) ∧
    (∀ i, i ∉ [4, 5, 6, 7, 8, 9, 10] → new.getLsbD i = old.getLsbD i) ∧
    e.pl = l ∧ e.inner = (c.inner || decide (l = 3)) ∧
    e.pc = c.rsys (st + 5) + BitVec.ofNat 64 (vec * 0x200 + if c.pl = l then 0 else 0x100) ∧ e.resv = none ∧
    (∀ n, n ≠ st → n ≠ st + 2 → n ≠ st + 3 → n ≠ st + 4 → e.rsys n = c.rsys n) ∧
    e.d = c.d ∧ e.a = c.a ∧ e.sp = c.sp ∧ e.q = c.q ∧ e.sq = c.sq ∧ e.dq = c.dq ∧ e.tlb = c.tlb ∧ e.l1d = c.l1d

/-- R134: where the gates and breakpoints go, with their causes and codes; a gate saves pc + 4 and a breakpoint pc. -/
def Sys2Proof.Machine.GateAndBreakpointEntries : Prop :=
  ∀ (s : State) (k : CoreId) (code : BitVec 12) (imm : BitVec 8), s.calm k →
    let c := s.core k
    let gate (i : Instr) (l : Level) (cause : Nat) : Prop := Raises i s k l cause code.toNat true 0 4
    let trap (i : Instr) (l : Level) (cause : Nat) : Prop := Raises i s k l cause 0 true 0 0
    gate (.gateK k code) c.excLevel 0x06 ∧
    (c.pl = 0 → trap (.gateH k code) 1 0x02 ∧ trap (.gateM k code) 1 0x02) ∧
    (c.pl = 1 → c.inner = false → gate (.gateH k code) 2 0x07) ∧ (c.pl = 1 → c.inner = true → trap (.gateH k code) 1 0x01) ∧
    (c.pl = 2 → c.inner = false → gate (.gateH k code) 2 0x07) ∧ (c.pl = 3 → c.inner = true → trap (.gateH k code) 3 0x01) ∧
    (c.pl ≠ 0 → gate (.gateM k code) 3 0x08) ∧
    (s.invasive (s.pidOf k) c.inner = false →
      Raises (.brk k imm) s k c.excLevel 0x09 imm.toNat true 0 0 ∧ Raises (.brkS k imm) s k c.excLevel 0x09 imm.toNat false 0 0)

/-- R136, R137, R160: ERET returns to the saved pc, level and world, with IM and AM restored; under SYS_WCTL.SWITCH it changes the world
and clears SWITCH and TGT_PL; where a rule forbids the return it raises illegal-instruction. -/
def Sys2Proof.Machine.EretResults : Prop :=
  ∀ (s : State) (k : CoreId) (ppl : Level), s.ready k → (s.core k).pl ≠ 0 → (s.core k).deferred = [] →
    let c := s.core k
    let n := 0x400 * c.pl.val
    let st := c.rsys n
    let w := c.rsys 0xC08
    let pw := st.getLsbD 10
    let switch := c.pl = 3 ∧ w.getLsbD 0 = true
    let tgt (l : Level) (inner : Bool) : Prop := ∃ t, exec (.eret k) s = .next t ∧
      (t.core k).pc = c.rsys (n + 2) &&& ~~~ 1 ∧ (t.core k).pl = l ∧ (t.core k).inner = inner ∧ (t.core k).resv = none ∧
      ((t.core k).rsys n).getLsbD 6 = st.getLsbD 7 ∧ ((t.core k).rsys n).getLsbD 8 = st.getLsbD 9 ∧
      (∀ i, i ≠ 6 → i ≠ 8 → ((t.core k).rsys n).getLsbD i = st.getLsbD i) ∧
      (∀ m, m ≠ n → m ≠ 0xC08 → counterSrn m = false → (t.core k).rsys m = c.rsys m) ∧
      ((t.core k).rsys 0xC08 = if switch then w &&& ~~~ 0xD else w) ∧ (t.core k).d = c.d ∧ (t.core k).a = c.a ∧ (t.core k).sp = c.sp ∧
      (∀ r, (t.core k).rq r = if switch ∧ w.getLsbD 1 = true then 0 else c.rq r) ∧ SameOutside s t k
    BitVec.ofNat 2 ppl.val = st.extractLsb' 4 2 →
    (c.pl ≠ 3 → ppl ≤ c.pl → tgt ppl c.inner) ∧
    (c.pl = 3 → w.getLsbD 0 = false → ¬ (ppl = 3 ∧ pw = false) → ¬ (ppl = 2 ∧ pw = true) → tgt ppl pw) ∧
    (switch → w.extractLsb' 2 2 = 0 → ppl ≠ 3 → tgt (if ppl = 2 ∧ pw = false then 1 else ppl) (!pw)) ∧
    (switch → w.extractLsb' 2 2 = 1 → tgt 1 (!pw)) ∧ (switch → w.extractLsb' 2 2 = 2 → pw = true → tgt 2 false) ∧
    (s.calm k → (c.pl < ppl ∨ (c.pl = 3 ∧ w.getLsbD 0 = false ∧ ((ppl = 3 ∧ pw = false) ∨ (ppl = 2 ∧ pw = true))) ∨
      (switch ∧ (w.extractLsb' 2 2 = 3 ∨ (w.extractLsb' 2 2 = 2 ∧ pw = false) ∨ (w.extractLsb' 2 2 = 0 ∧ ppl = 3)))) →
      Raises (.eret k) s k c.excLevel 0x01 0 true 0 0)

/-- Taking an exception, the instructions that take one, and the return. -/
def Obligations.ExceptionAndReturnResults : Prop := ExceptionEntryEffect ∧ GateAndBreakpointEntries ∧ EretResults

/-- An exception taken to a level at or above the current one, followed by that level's ERET with no register changed between, leaves the
core's pc, level, world and registers as they were, the handler level's exception registers and status fields apart (R158, R160). -/
def Obligations.EntryThenReturnRestores : Prop :=
  ∀ (c : Core) (l : Level) (epc syn addr : Word) (vec : Nat), c.pl ≤ l → l ≠ 0 → (l = 3 → c.inner = false → c.pl ≠ 3) →
    (c.inner = true → c.pl ≠ 2) → bit (c.rsys 0xC08) 0 = false → epc.getLsbD 0 = false →
    let e := c.enter l epc syn addr vec
    e.eretTarget = some (c.pl, c.inner) ∧
    (let r := e.return c.pl c.inner
     r.pc = epc ∧ r.pl = c.pl ∧ r.inner = c.inner ∧ r.d = c.d ∧ r.a = c.a ∧ r.sp = c.sp ∧ r.q = c.q ∧
     (r.rsys (0x400 * l.val)).getLsbD 6 = (c.rsys (0x400 * l.val)).getLsbD 6 ∧ (r.rsys (0x400 * l.val)).getLsbD 8 = (c.rsys (0x400 * l.val)).getLsbD 8)

/-- The traps of levels and reserved encodings (R77, R78, R85, R89, R93, R111, R132, R134, R139), and of alignment (R107, R125, R128). -/
def Obligations.TrapConditions : Prop :=
  ∀ (s : State) (k : CoreId) (rd rs rt ra : DReg) (ad as : AReg) (qd : QReg) (cc : Fin 8) (imm : BitVec 11) (dp post w64 far : Bool) (rm : Fin 8) (w : BitVec 32)
    (n : BitVec 12) (off : BitVec 14) (sd ss : SDReg) (sa : SAReg) (i7 : BitVec 7) (fn : Fin 16) (op : AtomOp), s.calm k →
    let c := s.core k
    let l := c.excLevel
    let priv (i : Instr) : Prop := Raises i s k l 0x02 0 true 0 0
    let ill (i : Instr) (wide : Bool) : Prop := Raises i s k l 0x01 0 wide 0 0
    let mis (i : Instr) (wr : Nat) (a : Word) : Prop := Raises i s k l 0x04 (wr * 256) true a 0
    let sz := if w64 then 8 else 4
    let at_ := if post then c.ra' as else c.ra' as + off.signExtend 64
    (kosalDecode k w.toNat = none → ill (.illegalInstruction k w) (kosalLen w.toNat == 4)) ∧
    (kosalDecode k w.toNat ≠ none → exec (.illegalInstruction k w) s = .next s) ∧
    (c.pl = 0 → priv (.wfi k) ∧ priv (.eret k) ∧ priv (.dcInv k as) ∧ priv (.tlbiVa k as rt) ∧ priv (.tlbiAsid k rt) ∧ priv (.tlbiS1all k)) ∧
    (c.pl.val < 2 → priv (.tlbiIpa k as) ∧ priv (.tlbiS2all k)) ∧
    (6 ≤ cc.val → ill (.cset k rd rs rt cc) true ∧ ill (.cseti k rd rs cc imm) true ∧ ill (.cmpa k rd ad as cc) true ∧ ill (.csetS k cc sd ss) false) ∧
    (c.fpRm rm = none → ill (.fadd k rd rs rt dp rm) true ∧ ill (.fmadd k rd rs rt ra dp rm) true ∧ ill (.fcvtP k rd rs dp rm) true) ∧
    (srnListed n.toNat = false → ill (.mfs k rd n) true ∧ ill (.mts k n rs) true) ∧
    (srnListed n.toNat = true → c.pl.val < n.toNat / 1024 →
      priv (.mts k n rs) ∧ (¬ (c.pl = 0 ∧ c.userRead n.toNat = true) → priv (.mfs k rd n))) ∧
    ill (.aluS k 0 0 0) false ∧ (i7 ≠ 0 → ill (.addiS k 0 i7) false) ∧ ill (.moviS k 0 i7) false ∧ (7 ≤ fn.val → ill (.adS k fn sa sd) false) ∧
    ill (.lda k as as off true) true ∧
    (at_.toNat % 64 ≠ 0 → mis (.qload k qd as off post) 0 at_ ∧ mis (.qsave k qd as off post) 1 at_) ∧
    ((c.ra' as).toNat % sz ≠ 0 → mis (atomInstr op k rd as rt far w64) 1 (c.ra' as) ∧ mis (.ldres k rd as w64) 0 (c.ra' as) ∧
      mis (.stcond k rd as rt w64) 1 (c.ra' as))

/-! ## The events of a core (R143, R149–R153, R155, R156, R208, R216–R220, R394, R395, R506, R507) -/

/-- Run-ahead: entry, where the load at the pc waits for a line that missed the L2, takes the checkpoint and marks the load's destination,
2,048 pseudo-retired instructions stop it, and its end, by the blocking load's bytes, RA_EN or a pending event, gives back every register as the checkpoint holds it (R143, R149–R153). -/
def Sys2Proof.Machine.RunAheadEpisode : Prop :=
  ∀ (s : State) (k : CoreId) (b : Block) (r : RunAhead) (v : Word),
    let c := s.core k
    let back (t : State) : Prop :=
      let x := t.core k
      x.ra = none ∧ x.pc = r.pc ∧ x.d = r.d ∧ x.a = r.a ∧ x.sp = r.sp ∧ x.q = r.q ∧ x.rsys 0x005 = r.fpcsr ∧
      x.hist = r.hist ∧ x.ras = r.ras ∧ x.vpred = r.vpred ∧ (c.resv ≠ none → x.resv = r.resv) ∧ (c.resv = none → x.resv = none) ∧ x.sq = c.sq ∧ x.pl = c.pl ∧ x.inner = c.inner ∧
      (∀ n, n ≠ 0x005 → x.rsys n = c.rsys n) ∧ SameOutside s t k
    (s.ready k → s.rb (.coreExecCtl k) 0 = true → c.stepping = false → s.asyncPending k = false → c.block = some b →
      b.pc = c.pc → c.blocked b = true →
      Does (.runAheadEntry k b.ln b.dst (b.len == 4)) s fun t => (t.core k).sameRegs (c.adv b.len) ∧ SameOutside s t k ∧
        ∃ x, (t.core k).ra = some x ∧ x.pc = c.pc ∧ x.d = c.d ∧ x.a = c.a ∧ x.sp = c.sp ∧ x.q = c.q ∧ x.fpcsr = c.rsys 0x005 ∧
          x.resv = c.resv ∧ x.hist = c.hist ∧ x.ras = c.ras ∧ x.vpred = c.vpred ∧ x.block = b ∧ x.count = 0 ∧ x.stop = false ∧ x.sb = [] ∧
          (∀ n, x.isInv n = true ↔ (n ∈ raNames b.dst ∧ n ≠ .d 0))) ∧
    (c.ra = some r → 2048 ≤ r.count → exec (.runAheadLimit k) s = .next (s.setCore k { c with ra := some { r with stop := true } })) ∧
    (c.ra = some r → c.blocked r.block = false ∨ s.rb (.coreExecCtl k) 0 = false ∨ s.asyncPending k = true → Does (.runAheadExit k) s back) ∧
    (c.ra = some r → c.blocked r.block = true → s.rb (.coreExecCtl k) 0 = true → s.asyncPending k = false → exec (.runAheadExit k) s = .next s) ∧
    (c.ra = some r → v.getLsbD 0 = false → Does (.execCtlWrite k v) s fun t => back t ∧ t.rb (.coreExecCtl k) 0 = false) ∧
    (Does (.execCtlWrite k v) s fun t => t.rg (.coreExecCtl k) = regWritten (.coreExecCtl k) false (s.rg (.coreExecCtl k)) v)

/-- An instruction that only computes, in run-ahead: it never changes a register of the checkpoint, and where a source is INV it changes no
register at all but the pc (R150–R152). -/
def Sys2Proof.Machine.RunAheadComputes : Prop :=
  ∀ (s : State) (k : CoreId) (rd rs rt : DReg) (r : RunAhead), s.runs k = true → (s.core k).ra = some r → r.stop = false → s.settled = true →
    s.asyncPending k = false →
    let c := s.core k
    let inv := r.isInv (.d rs.val) || r.isInv (.d rt.val)
    Does (.add k rd rs rt) s fun t => SameOutside s t k ∧
      (t.core k).sameRegs ((if inv then c else c.wd rd (c.rd rs + c.rd rt)).adv 4) ∧
      ∃ x, (t.core k).ra = some x ∧ x.pc = r.pc ∧ x.d = r.d ∧ x.a = r.a ∧ x.q = r.q ∧ x.sb = r.sb ∧ x.count = r.count + 1 ∧
        x.stop = decide (2048 ≤ r.count + 1) ∧ (rd ≠ 0 → x.isInv (.d rd.val) = inv)

/-- Run-ahead: its episode, and that it computes without architectural effect. -/
def Obligations.RunAheadResults : Prop := RunAheadEpisode ∧ RunAheadComputes

/-- Interrupts and imprecise aborts are taken at the level R155 routes them to, at the vectors of R161, with the syndromes of R162, and
from run-ahead with its checkpoint restored; an abort is kept pending, once (R156, R217). -/
def Sys2Proof.Machine.AsynchronousEventEntries : Prop :=
  ∀ (s : State) (k : CoreId) (ab : Abort) (grp : Bool),
    let c0 := s.core k
    let c := (s.raExit k).core k
    let ok := s.runs k = true ∧ s.haltTakeable k = false ∧ c0.deferred = [] ∧ s.settled = true
    let lvl : Level := if grp then (if c.inner then 1 else 3) else if (c.rsys 0x800).getLsbD 16 = true ∧ c.inner = false then 2 else 1
    let abl : Level := if (c.rsys 0x800).getLsbD 17 = true ∧ c.inner = false then 2 else 1
    (ok → c0.abortTakeable = false → c0.intChoice = some grp →
      Retires (.interruptTaken k) s k (c.enter lvl c.pc (BitVec.ofNat 64 (0x0F + (if grp then 65536 else 0))) 0 1)) ∧
    (ok → c0.abort = some ab → c0.abortTakeable = true →
      Retires (.impreciseAbortTaken k) s k { c.enter abl c.pc (BitVec.ofNat 64 (0x0E + 128 + (ab.status.toNat + if ab.write then 256 else 0) * 65536))
        (BitVec.ofNat 64 (ab.ppa / 4096 * 4096)) 2 with abort := none }) ∧
    (c0.held = false → c0.cs = 0 → c0.abort = none → s.wakeAb.get none k.val = none →
      exec (.impreciseAbortDelivery k ab) s = .next (s.setCore k { c0 with abort := some ab })) ∧
    (c0.held = false → c0.abort ≠ none → exec (.impreciseAbortDelivery k ab) s = .next s) ∧
    (c0.intChoice = some true ↔ (c0.pendI ≠ [] ∧ c0.takeable (c0.intLevel true) 6 = true ∧
      (c0.pendO = [] ∨ c0.takeable (c0.intLevel false) 6 = false ∨ c0.intLevel false ≤ c0.intLevel true)))

/-- CORE_INT_ACK: a read takes the lowest pending INTID of its group; of no pending one, or of the inner group by the outer world, it gives
0x80000000 (R395). -/
def Sys2Proof.Machine.InterruptAcknowledge : Prop :=
  ∀ (s : State) (k : CoreId) (w : World) (i : Nat) (rest : List Nat),
    let c := s.core k
    ((s.core k).pendO = i :: rest →
      Does (.intAckRead k w .outer) s fun t => t.reply = natBytes i 4 ∧ t.core k = { c with pendO := rest } ∧ SameOutside s t k) ∧
    ((s.core k).pendI = i :: rest →
      Does (.intAckRead k .inner .inner) s fun t => t.reply = natBytes i 4 ∧ t.core k = { c with pendI := rest } ∧ SameOutside s t k) ∧
    (c.pendO = [] → exec (.intAckRead k w .outer) s = .next { s with reply := [0, 0, 0, 0x80] }) ∧
    (c.pendI = [] → exec (.intAckRead k .inner .inner) s = .next { s with reply := [0, 0, 0, 0x80] }) ∧
    (Does (.intAckRead k .outer .inner) s fun t => t.reply = [0, 0, 0, 0x80] ∧ (∀ j, t.core j = s.core j))

/-- Asynchronous entries and the acknowledgement of interrupts. -/
def Obligations.InterruptAndAbortResults : Prop := AsynchronousEventEntries ∧ InterruptAcknowledge

/-- Debug of a core (R65, R135, R506, R507): a halt request stays until it is taken at a boundary, RESUME goes on, or after one instruction
with STEP, the comparators take what is written but for a world's protection, and the accesses of the instrument act while enabled. -/
def Sys2Proof.Machine.DebugResults : Prop :=
  ∀ (s : State) (k : CoreId) (v : Word) (i : Fin 16) (ctl : Bool) (w : World) (rd : DReg) (x : Word),
    let c := s.core k
    let inv := s.invasive (s.pidOf k) c.inner
    let reg := if ctl then Reg.coreBpCtl k i else Reg.coreBpAddr k i
    (c.halted = false → Does (.haltReq k) s fun t => (t.core k) = { c with haltReq := true } ∧ t.rb (.coreDbgCtl k) 0 = true ∧ SameOutside s t k) ∧
    (s.runs k = true → s.haltTakeable k = true → Does (.debugHalt k) s fun t =>
      (t.core k).halted = true ∧ (t.core k).haltReq = false ∧ (t.core k).pc = ((s.raExit k).core k).pc ∧ t.runs k = false ∧
      t.rb (.coreDbgCtl k) 8 = true ∧ t.rb (.coreDbgCtl k) 9 = ((s.raExit k).core k).inner ∧ t.rb (.coreDbgCtl k) 0 = false ∧ SameOutside s t k) ∧
    (c.halted = true → inv = true → v.getLsbD 0 = false → Does (.resume k v) s fun t =>
      t.core k = { c with halted := false, stepping := v.getLsbD 2 } ∧ t.rb (.coreDbgCtl k) 8 = false ∧
      t.rf (.coreDbgCtl k) 4 2 = fld v 4 2 ∧ SameOutside s t k) ∧
    (c.halted = true → inv = false → Does (.resume k v) s fun t => t.core k = c) ∧
    (w = .inner ∨ (s.rb (.coreBpCtl k i) 8 = false ∧ (ctl = true → v.getLsbD 8 = false)) →
      Does (.bpCtlWrite k w i ctl v) s fun t => t.rg reg = regWritten reg false (s.rg reg) v ∧ t.cores = s.cores) ∧
    (w = .outer → s.rb (.coreBpCtl k i) 8 = true → Does (.bpCtlWrite k w i ctl v) s fun t => t.rg reg = s.rg reg) ∧
    (s.lifeCycle ≠ 4 → inv = true → c.halted = true →
      Does (.coreDebugAccess k (.readD rd)) s (fun t => t = { s with reply := natBytes (c.rd rd).toNat 8 }) ∧
      Does (.coreDebugAccess k (.writeD rd x)) s (fun t => t = s.setCore k (c.wd rd x))) ∧
    (s.lifeCycle = 4 ∨ inv = false → ∀ op, exec (.coreDebugAccess k op) s = .next s) ∧
    (s.lifeCycle ≠ 4 → s.nonInvasive (s.pidOf k) c.inner = true → Does (.traceAccess k) s fun t =>
      t.reply.length = 72 ∧ t.reply.take 8 = natBytes c.pc.toNat 8 ∧ ((∀ i, i < 8 → c.pmcFree i = false) →
        t = { s with reply := natBytes c.pc.toNat 8 ++ (List.range 8).flatMap fun n => natBytes (c.rsys (0x428 + n)).toNat 8 }))

/-- The end of a reservation's deferral, 256 cycles of the core after its LDRES, and a fetch that faults: cause and address of the halfword that faulted, the saved pc that of the
first (R83, R162, R220). -/
def Sys2Proof.Machine.DeferralAndFetchFaults : Prop :=
  ∀ (s s1 : State) (k : CoreId) (e : Exc) (r : Resv) (second : Bool),
    let c := s.core k
    let s0 := { s with free := s.free + 1 }
    let taken (t : State) : Prop := ∃ wide : Bool, (second = true → wide = true) ∧ SameOutside s1 t k ∧
      (t.core k).sameRegs (c.enter (e.level c.pl c.inner) c.pc (syndrome e.cause e.info wide false e.walk) e.addr 0)
    (c.resv = some r → c.deferred = [] → s.settled = true → 256 * 20 ≤ (s.now - r.since) * s.coreFreq k →
      exec (.reservationDeferralEnd k) s = .next (s.setCore k { c with resv := some { r with defer := false } })) ∧
    (c.resv = some r → (s.now - r.since) * s.coreFreq k < 256 * 20 → exec (.reservationDeferralEnd k) s = .next s) ∧
    (s.calm k → e.skip = 0 → s0.fetchHalf k c.pc = .exc e s1 → s1.noneDeferred → Does (.instructionFetchFault k second) s taken) ∧
    (∀ s2, s.calm k → second = true → e.skip = 0 → s0.fetchHalf k c.pc = .ok () s2 → s2.fetchHalf k (c.pc + 2) = .exc e s1 → s1.noneDeferred →
      Does (.instructionFetchFault k true) s taken)

/-- Debug of a core, the end of a deferral, and faults of the fetch. -/
def Obligations.DebugAndDeferralResults : Prop := DebugResults ∧ DeferralAndFetchFaults

/-- The oldest entry of the store queue leaves it for its line, whole, and tells the TLB invalidations that wait for it; one that the fabric
refuses stores nothing and becomes an imprecise abort (R51, R197, R204, R208). DC.ZERO needs no data of the line (R252). -/
def Sys2Proof.Machine.StoreDrains : Prop :=
  ∀ (s s1 : State) (k : CoreId) (e : SqEnt) (rest : List SqEnt) (da st : Nat) (cp : L2Copy),
    let c := s.core k
    c.held = false → s.fatal = false → c.wfi = false → c.sq = e :: rest →
    (s.noneDeferred → s.firewall k e.ppa e.inner false = .inl da →
      (s.pidOf k).val ∉ s.refused → da % 64 + e.size ≤ 64 → e.cacheable = true → s.l2State (clusterOf k) ≠ 2 →
      s.copy (da / 64) (clusterOf k) = some cp → cp.poison = false → cp.err = .none → (cp.st = .m ∨ cp.st = .e) →
      (c.holds (da / 64) e.inner = true ∨ s.l2State (clusterOf k) ≠ 0 ∨ e.zero = true) →
      Does (.storeQueueDrain k) s fun t => (t.core k).sq = rest ∧ (t.core k).sameRegs c ∧
        WroteLine s t k (da / 64) (da % 64) e.size (if e.zero then 0 else e.data.toNat % 2 ^ (8 * e.size)) cp) ∧
    (c.cs = 0 → s.firewall k e.ppa e.inner false = .inr (st, s1) →
      c.abort = none → s.wakeAb.get none k.val = none → s1.wakeAb = s.wakeAb → s1.cores = s.cores →
      let ab : Abort := { status := BitVec.ofNat 8 st, write := true, ppa := e.ppa / 4096 * 4096 }
      Does (.storeQueueDrain k) s fun t => t.core k = { c with sq := rest, abort := some ab } ∧ t.mem = s1.mem ∧ t.lines = s1.lines)

/-- A data unit of a miss arrives: the first fills the miss buffer's count, the second brings the line into the L1 data cache or the L1
instruction cache, and frees the buffer (R142, R164, R165, R168). What the L2's array does to the line's data is kept for its next read (R260). -/
def Sys2Proof.Machine.MissUnitArrives : Prop :=
  ∀ (s : State) (k : CoreId) (ln : Nat) (b : MissBuf) (cp : L2Copy) (stream instr : Bool) (note : UnitNote),
    let c := s.core k
    let rest := c.miss.filter fun x => !(x.ln == ln && x.instr == instr)
    let line : L1Line := { ln := ln, way := 0, inner := s.lineInner ln, stream := b.stream, dirty := false }
    let gives (c' : Core) : Prop := exec (.l1Fill k ln stream instr note) s = .next ((s.l2Touch ln (clusterOf k)).setCore k c')
    (exec (.l1Fill k ln stream instr note) s = exec (.l1Fill k ln stream instr { note with err := .none }) (s.upsetL2 ln (clusterOf k) note.err)) ∧
    (note.err = .none → c.held = false → c.cs = 0 → s.fatal = false → s.settled = true → c.deferred = [] → c.ra = none → c.block = none → s.l2State (clusterOf k) = 0 →
    s.fillBuf k ln stream instr = some b → b.ln = ln → b.instr = instr → b.write = false → s.copy ln (clusterOf k) = some cp → cp.st.stable = true →
    (b.got = 0 → gives { c with miss := rest ++ [{ b with got := 1 }] }) ∧
    (b.got = 1 → cp.way.isSome = true → instr = false → c.holds ln true = false → gives ({ c with miss := rest }.l1Enter line)) ∧
    (b.got = 1 → cp.way.isSome = true → instr = true → gives ({ c with miss := rest }.l1iEnter line note.evict)))

/-- A line that enters the L1 data cache is there; one that it displaces has the way of the new line, and goes to the victim cache
(R164, R167). -/
def Sys2Proof.Machine.LineEntersL1 : Prop :=
  ∀ (c : Core) (l : L1Line),
    let d := c.l1Enter l
    (∃ w, w < 8 ∧ { l with way := w } ∈ d.l1d ∧
      ((d.l1d = { l with way := w } :: c.l1d ∧ (∀ x ∈ c.l1d, l1dSet x.ln = l1dSet l.ln → x.way ≠ w) ∧ d.vc = c.vc) ∨
       ∃ o, o ∈ c.l1d ∧ l1dSet o.ln = l1dSet l.ln ∧ o.way = w ∧ d.l1d = { l with way := w } :: c.l1d.filter (· != o) ∧
         ∃ i, i < 48 ∧ d.vc.get none i = some { line := o, age := if o.stream then 3 else 0 })) ∧
    d.l1i = c.l1i ∧ d.miss = c.miss ∧ d.sameRegs c

/-- The victim cache of 48 lines: a line inserted into a full one takes the place of a line of age 3, the ages rising until there is one
(R167). -/
def Sys2Proof.Machine.VictimCacheReplacement : Prop :=
  ∀ (c : Core) (l : L1Line),
    let d := c.vcInsert l
    (∃ i, i < 48 ∧ d.vc.get none i = some { line := l, age := if l.stream then 3 else 0 } ∧
      ((c.vc.get none i = none ∧ ∀ j, j ≠ i → d.vc.get none j = c.vc.get none j) ∨
       ((∀ j, j < 48 → c.vc.get none j ≠ none) ∧ ∀ j x, j ≠ i → j < 48 → c.vc.get none j = some x →
         ∃ y, d.vc.get none j = some y ∧ y.line = x.line ∧ x.age ≤ y.age))) ∧ d.l1d = c.l1d ∧ d.l1i = c.l1i

/-- Device accesses (R209, R210, R213–R216): the core issues its stores in order; the I/O bridge refuses an outer access to an inner
region, answers at once for a DEAD region, and passes an access of a window of an UP port on, with its watchdog; acknowledgements, data,
errors and timeouts end them. -/
def Sys2Proof.Machine.DeviceAccessPath : Prop :=
  ∀ (s : State) (k : CoreId) (e : DqEnt) (pre post : List DqEnt) (m : Msg) (a : DevAcc) (w : DevWait) (r : Fin 64) (port : PortId),
    let c := s.core k
    let x := s.core (msgCore m)
    let arr (kd : MsgKind) : State := s.arrived kd m
    let back : Msg := { m with src := 0x2C, dst := m.src, arg := 0, data := 0, poison := false }
    let lo := s.rg (.drtRegionLo m.pid r)
    let loaded : Core := (x.loaded { n := w.size, sign := w.sign, dst := w.dst, fwd := false, stream := false, base := 0, upd := w.upd, len := w.len }
      (lineGet m.data (w.ppa % 64) w.size)).adv w.len
    (c.held = false → s.fatal = false → c.dq = pre ++ e :: post → (∀ x ∈ pre, x.issued = true) → e.issued = false →
      exec (.deviceStoreIssue k) s =
        .next ((s.setCore k { c with dq := pre ++ { e with issued := true } :: post }).send .dwr (dwrMsg s k e))) ∧
    (m.dst = 0x2C → inMmio (reqPpa m) = true → s.drtFind m.pid (reqPpa m) = some r → lo.getLsbD 1 = true → m.inner = false →
      (s.comes .drd m → Does (.drd m) s fun t => t.msgs = (arr .drd).msgs ++ [(.err, { back with arg := 2 })] ∧ t.devs = s.devs) ∧
      (s.comes .dwr m → Does (.dwr m) s fun t => t.msgs = (arr .dwr).msgs ++ [(.err, { back with arg := 2 })] ∧ t.devs = s.devs)) ∧
    (m.dst = 0x2C → inMmio (reqPpa m) = true → s.drtFind m.pid (reqPpa m) = some r → (lo.getLsbD 1 = false ∨ m.inner = true) → lo.getLsbD 3 = true →
      (s.comes .drd m → exec (.drd m) s = .next ((arr .drd).send .err { back with arg := 4 })) ∧
      (s.comes .dwr m → exec (.dwr m) s = .next ((arr .dwr).send .err { back with arg := 4 }))) ∧
    (m.dst = 0x2C → inMmio (reqPpa m) = true → 0xFFF100000000 ≤ reqPpa m → s.drtFind m.pid (reqPpa m) = some r →
      (lo.getLsbD 1 = false ∨ m.inner = true) → lo.getLsbD 3 = false →
      (s.portsOf m.pid).find? (fun port => (s.portSt port).window (reqPpa m - 0xFFF080000000)) = some port → s.portState port = 2 →
      let acc (wr : Bool) : DevAcc := {
        id := s.devNext, core := bridgeCore m, ppa := reqPpa m, size := reqSize m, write := wr, port := some port.val,
        region := some r.val, early := wr && lo.getLsbD 2, orphan := false, armed := s.tick, timeout := s.drtTimeout m.pid (some r) }
      (s.comes .drd m → Does (.drd m) s fun t => t.devs = s.devs ++ [acc false] ∧ t.msgs = (arr .drd).msgs) ∧
      (s.comes .dwr m → Does (.dwr m) s fun t => t.devs = s.devs ++ [acc true] ∧
        t.msgs = (arr .dwr).msgs ++ if lo.getLsbD 2 = true then [(.dcmp, back)] else [])) ∧
    ((MsgKind.dcmp, m) ∈ s.msgs → s.comes .dcmp m → x.wfi = false → s.tlbOwed = [] → s.dqAnswered (msgCore m) m.ln = some e →
      x.dq = pre ++ e :: post → (∀ y ∈ pre, ¬ (y.issued = true ∧ y.ppa = e.ppa)) →
      Does (.dcmp m) s fun t => (t.core (msgCore m)).dq = pre ++ post ∧ t.msgs = (arr .dcmp).msgs) ∧
    ((MsgKind.dcmp, m) ∉ s.msgs → s.devOf m (·.write) = some a → a.early = false → a.orphan = false → x.wfi = false → s.tlbOwed = [] →
      x.dq = pre ++ e :: post → (∀ y ∈ pre, ¬ (y.issued = true ∧ y.ppa = a.ppa)) → e.issued = true → e.ppa = a.ppa →
      Does (.dcmp m) s fun t => (t.core (msgCore m)).dq = pre ++ post ∧ t.msgs = s.msgs ∧ t.devs = s.devs.filter fun y => y.id != a.id) ∧
    (s.settled = true → x.wait = some w → w.ppa / 64 = m.ln → m.poison = false →
      ((MsgKind.drr, m) ∈ s.msgs → s.comes .drr m → Does (.drr m) s fun t =>
        (t.core (msgCore m)).wait = none ∧ (t.core (msgCore m)).sameRegs loaded ∧ t.mem = s.mem) ∧
      ((MsgKind.drr, m) ∉ s.msgs → s.devOf m (fun y => !y.write) = some a → a.orphan = false → Does (.drr m) s fun t =>
        (t.core (msgCore m)).wait = none ∧ (t.core (msgCore m)).sameRegs loaded ∧ t.mem = s.mem ∧ t.devs = s.devs.filter fun y => y.id != a.id)) ∧
    (s.devs.find? (fun x => x.id == a.id) = some a → a.armed + a.timeout < s.tick → a.write = true → a.early = true → a.orphan = false → a.region = some r.val →
      (s.core a.core).held = false → (s.core a.core).cs = 0 → (s.core a.core).wfi = false → (s.core a.core).abort = none → s.wakeAb.get none a.core.val = none →
      s.rb (.drtRegionLo (s.pidOf a.core) r) 3 = false →
      Does (.deviceAccessTimeout a.id) s fun t => t.rb (.drtRegionLo (s.pidOf a.core) r) 3 = true ∧ (∀ x ∈ t.devs, x.id ≠ a.id) ∧
        (t.core a.core).abort = some { status := 4, write := true, ppa := a.ppa / 4096 * 4096 })

/-- The store queue, the misses and the L1, the victim cache and the device path of a core. -/
def Obligations.QueueAndCacheResults : Prop := StoreDrains ∧ MissUnitArrives ∧ LineEntersL1 ∧ VictimCacheReplacement ∧ DeviceAccessPath

/-! ## Coherence: the home (R51, R226–R229, R237, R238, R242, R243, R246–R252) -/

/-- A slice has nothing else to do: no request waits for its arbiter, which is not frozen, none waits for a directory entry, and no core defers
a snoop (R220, R233, R237, R294). -/
def Sys2Proof.Machine.SliceIdle (s : State) (sl : SliceId) : Prop :=
  s.settled = true ∧ s.noneDeferred ∧ s.net.sliceQ.get [] sl.val = [] ∧ s.rb (.l3sArbCfg sl) 8 = false ∧
  ∀ e ∈ s.lines, homeOf e.1 = sl → e.2.tr = none → e.2.queue = []

/-- A request `m` of kind `kd` reaches the idle home of an idle line that accepts it and has a tracker for it; no stored data that the home
may read or replace for it holds an error. -/
def Sys2Proof.Machine.HomeTakes (s : State) (kd : MsgKind) (m : Msg) : Prop :=
  s.comes kd m ∧ m.dst = sliceAgent (homeOf m.ln) ∧ SliceIdle s (homeOf m.ln) ∧ (m.pid.val ∉ s.refused ∨ m.priv = true) ∧
  ((kd = .wri ∧ m.priv = true) ∨ (kd ≠ .wri ∧ s.homeAllows m = true)) ∧ (s.line m.ln).tr = none ∧ (s.line m.ln).queue = [] ∧
  s.sound m.ln ∧ (∀ e ∈ s.l3Peers m.ln, e.2.err = .none) ∧ s.trackerFree (homeOf m.ln) m = true

/-- The home's message to the requester. -/
def Sys2Proof.Machine.toRequester (m : Msg) (num arg : Nat) (d : Line) (poison : Bool) : Msg :=
  { m with src := sliceAgent (homeOf m.ln), dst := m.src, trk := BitVec.ofNat 8 num, data := d, poison := poison, arg := BitVec.ofNat 64 arg }

/-- A line that no cluster holds: the home answers each request at once with its own data, and the directory then lists the requester of a
grant (R242, R246–R249, R251, R252). -/
def Sys2Proof.Machine.HomeAnswersUncachedLine : Prop :=
  ∀ (s : State) (m : Msg),
    let l := s.line m.ln
    let d := s.homeData m.ln m.pid
    let who := 6 * m.src.toNat + m.score.val
    let mine : Option DirEnt := some { st := .de, owner := m.src.toNat, pres := 0, pid := m.pid, ref := true }
    let gives (i : Instr) (kd ans : MsgKind) (arg : Nat) (v : Line) (poi : Bool) (p : Nat → State → Prop) : Prop :=
      HomeTakes s kd m → Does i s fun t => ∃ num, num < 256 ∧ t.msgs = (s.msgs.erase (kd, m)) ++ [(ans, toRequester m num arg v poi)] ∧ p num t
    let open_ (num : Nat) (t : State) : Prop :=
      (t.line m.ln).dir = mine ∧ ∃ x, (t.line m.ln).tr = some x ∧ x.sent = true ∧ x.cack = true ∧ x.num = num
    let shut (t : State) : Prop := (t.line m.ln).dir = none ∧ (t.line m.ln).tr = none
    let gone (t : State) : Prop := shut t ∧ (t.line m.ln).l3 = none
    let n := if m.arg.getLsbD 4 then 8 else 4
    let off := lineGet m.data 16 1 % 64 / n * n
    let old := lineGet d.1 off n
    l.dir = none → (s.dirPeers m.ln).length < 27 →
    gives (.rds m .none) .rds .dh 2 d.1 d.2 open_ ∧ gives (.rdu m .none) .rdu .dh 2 d.1 d.2 open_ ∧
    (m.arg.getLsbD 0 = true → gives (.upg m .none) .upg .cmp 0 0 false open_) ∧
    (m.arg.getLsbD 0 = false → gives (.upg m .none) .upg .dh 2 d.1 d.2 open_) ∧
    gives (.rdo m) .rdo .dro 0 d.1 d.2 (fun _ t => t.line m.ln = { l with l3 := l.l3.map fun x => { x with ref := true } }) ∧
    (l.l3 = none → s.cxlLost m.ln = false → m.arg = BitVec.allOnes 64 →
      gives (.wrh m) .wrh .cmp 0 0 false (fun _ t => shut t ∧ t.newest m.ln m.pid = (m.data, m.poison))) ∧
    (l.l3 = none → (s.mbEntries (homeOf m.ln)).length < 16 → m.arg ≠ BitVec.allOnes 64 →
      gives (.wrh m) .wrh .cmp 0 0 false (fun _ t => shut t ∧ t.newest m.ln m.pid = (lineMerge d.1 m.data m.arg, d.2 || m.poison))) ∧
    (s.cxlLost m.ln = false → gives (.wri m) .wri .cmp 0 0 false (fun _ t => gone t ∧ t.newest m.ln m.pid = (m.data, m.poison) ∧ t.memLine m.ln = m.data)) ∧
    (l.l3 = none → m.arg.toNat % 16 = 0 → d.2 = false → s.cxlLost m.ln = false → gives (.atf m) .atf .atr 0 (BitVec.ofNat 512 old) false (fun _ t => shut t ∧
      t.newest m.ln m.pid = (linePut d.1 off n ((old + lineGet m.data 0 n) % 2 ^ (8 * n)), false))) ∧
    gives (.cln m) .cln .cmp 0 0 false (fun _ t => shut t) ∧ gives (.inv m) .inv .cmp 0 0 false (fun _ t => gone t) ∧
    gives (.cli m) .cli .cmp 0 0 false (fun _ t => gone t) ∧ gives (.iiv m) .iiv .cmp 0 0 false (fun _ t => shut t) ∧
    gives (.rsv m) .rsv .atr 0 d.1 d.2 (fun _ t => shut t ∧ t.hresv.get none who = some m.ln) ∧
    (s.hresv.get none who ≠ some m.ln → gives (.stc m) .stc .cmp 1 0 false (fun _ t => shut t ∧ t.hresv.get none who = none)) ∧
    (s.hresv.get none who = some m.ln → l.l3 = none → (s.mbEntries (homeOf m.ln)).length < 16 → gives (.stc m) .stc .cmp 0 0 false (fun _ t =>
      shut t ∧ t.hresv.get none who = none ∧ t.newest m.ln m.pid = (lineMerge d.1 (stcWrite m).1 (stcWrite m).2, d.2)))

/-- The snoops that the home sends for a request by the directory's entry, and that it answers nothing before they are answered
(R242, R251, R252). -/
def Sys2Proof.Machine.HomeSnoopsByDirectory : Prop :=
  ∀ (s : State) (m : Msg) (e : DirEnt),
    let l := s.line m.ln
    let owned (g : Nat) : Prop := e.st ≠ .ds ∧ g = e.owner
    let listed (g : Nat) : Prop := g < 36 ∧ (e.pres.getLsbD g = true ∨ owned g)
    let other (g : Nat) : Prop := listed g ∧ ¬ owned g
    let snoops (i : Instr) (kd : MsgKind) (want : MsgKind → Nat → Prop) : Prop :=
      HomeTakes s kd m → (∃ x g, want x g) → Does i s fun t => (t.line m.ln).dir = some e ∧ ∃ sn : List (MsgKind × Nat), ∃ num, num < 256 ∧
        (∀ x g, (x, g) ∈ sn ↔ want x g) ∧ (∃ x, (t.line m.ln).tr = some x ∧ x.snoops = sn.map (·.2) ∧ x.sent = false ∧ x.num = num ∧ x.kind = kd) ∧
        t.msgs = s.msgs.erase (kd, m) ++ sn.map fun x => (x.1, { toRequester m num 0 0 false with dst := BitVec.ofNat 8 x.2, score := 0 })
    l.dir = some e → (e.st ≠ .ds → e.owner < 36) →
    snoops (.rds m .none) .rds (fun x g => x = .sns ∧ owned g) ∧
    snoops (.rdu m .none) .rdu (fun x g => (x = .snu ∧ owned g) ∨ (x = .sni ∧ other g ∧ g ≠ m.src.toNat)) ∧
    (m.arg.getLsbD 0 = true ∨ listed m.src.toNat → snoops (.upg m .none) .upg (fun x g => x = .sni ∧ listed g ∧ g ≠ m.src.toNat)) ∧
    snoops (.rdo m) .rdo (fun x g => x = .sno ∧ owned g) ∧ snoops (.rsv m) .rsv (fun x g => x = .sno ∧ owned g) ∧
    (m.arg = BitVec.allOnes 64 → snoops (.wrh m) .wrh (fun x g => x = .sni ∧ listed g)) ∧
    (m.arg ≠ BitVec.allOnes 64 → snoops (.wrh m) .wrh (fun x g => (x = .snr ∧ owned g) ∨ (x = .sni ∧ other g))) ∧
    snoops (.atf m) .atf (fun x g => (x = .snr ∧ owned g) ∨ (x = .sni ∧ other g)) ∧
    (s.hresv.get none (6 * m.src.toNat + m.score.val) = some m.ln → snoops (.stc m) .stc (fun x g => (x = .snr ∧ owned g) ∨ (x = .sni ∧ other g))) ∧
    snoops (.wri m) .wri (fun x g => x = .sni ∧ listed g) ∧ snoops (.inv m) .inv (fun x g => x = .sni ∧ listed g) ∧
    snoops (.cln m) .cln (fun x g => x = .snc ∧ owned g) ∧ snoops (.cli m) .cli (fun x g => x = .snr ∧ listed g) ∧
    snoops (.iiv m) .iiv (fun x g => x = .snic ∧ listed g)

/-- What the home refuses: a request of a partition whose homes refuse it, one that the granule map does not allow its PID or world, and a
WRI that is not privileged; a request without a tracker waits at the slice, and one behind an open transaction in the line's queue (R51,
R237, R245, R248, R262). -/
def Sys2Proof.Machine.HomeRefusals : Prop :=
  ∀ (s : State) (m : Msg) (x : Tracker),
    let err (st : Nat) : MsgKind × Msg := (.err, { m with src := m.dst, dst := m.src, data := 0, poison := false, arg := BitVec.ofNat 64 st })
    let reqs : List (Instr × MsgKind) := [(.rds m .none, .rds), (.rdu m .none, .rdu), (.rdo m, .rdo), (.wrh m, .wrh), (.atf m, .atf), (.upg m .none, .upg), (.rsv m, .rsv)]
    let sl := homeOf m.ln
    m.dst = sliceAgent sl →
    (m.pid.val ∈ s.refused → m.priv = false → ∀ i kd, (i, kd) ∈ reqs → s.comes kd m →
      Does i s fun t => t.msgs = s.msgs.erase (kd, m) ++ [err 5] ∧ t.lines = s.lines ∧ t.mem = s.mem) ∧
    (m.pid.val ∉ s.refused → s.homeAllows m = false → ∀ i kd, (i, kd) ∈ reqs → s.comes kd m →
      Does i s fun t => t.msgs = s.msgs.erase (kd, m) ++ [err 3] ∧ t.lines = s.lines ∧ t.mem = s.mem) ∧
    (m.pid.val ∉ s.refused → m.priv = false → s.comes .wri m →
      Does (.wri m) s fun t => t.msgs = s.msgs.erase (.wri, m) ++ [err 3] ∧ t.lines = s.lines ∧ t.mem = s.mem) ∧
    (m.pid.val ∉ s.refused → s.homeAllows m = true → SliceIdle s sl → ∀ i kd, (i, kd) ∈ reqs → s.comes kd m →
      (s.trackerFree sl m = false →
        Does i s fun t => t.msgs = s.msgs.erase (kd, m) ∧ t.net.sliceQ.get [] sl.val = [(kd, m)] ∧ t.lines = s.lines ∧ t.mem = s.mem) ∧
      (s.trackerFree sl m = true → (s.line m.ln).tr = some x → (x.sent = true → x.cack = true ∨ x.snoops ≠ []) → (x.sent = false → x.ready = false) →
        Does i s fun t => t.msgs = s.msgs.erase (kd, m) ∧ (t.line m.ln).queue = (s.line m.ln).queue ++ [(kd, m)] ∧
          (t.line m.ln).tr = some x ∧ t.mem = s.mem))

/-- An error in stored data stays unnoticed until the data is read: a single one is then corrected, and an uncorrectable one poisons the line
in place, a UCR of its partition with event 0x6031 from the L3 and 0x7051 from an L2 (R67, R260); RDS, RDU and UPG meet what befell the L3
before. -/
def Sys2Proof.Machine.StoredErrorsAreMet : Prop :=
  ∀ (s : State) (m : Msg) (e : LinkErr) (g : ClusterId),
    let l := s.line m.ln
    let ud (p : Pid) (code : BitVec 16) (t : State) : Prop := (s.ras.get [] p.val : List RasRec).length < 64 → ∃ r ∈ (t.ras.get [] p.val : List RasRec), r.code = code
    (∀ i ∈ [fun e => Instr.rds m e, fun e => .rdu m e, fun e => .upg m e], exec (i e) s = exec (i .none) (s.upsetL3 m.ln e)) ∧
    ((s.upsetL3 m.ln e).line m.ln = { l with l3 := l.l3.map fun x => { x with err := worseErr x.err e } }) ∧
    (∀ x, s.copy m.ln g = some x → (s.upsetL2 m.ln g e).copy m.ln g = some { x with err := worseErr x.err e }) ∧
    (∀ x, l.dir = none → (s.dirPeers m.ln).length < 27 → l.l3 = some x → x.pid = m.pid → HomeTakes s .rds m →
      (Does (.rds m .single) s fun t => (t.line m.ln).l3 = some { x with ref := true } ∧
        ∃ num, num < 256 ∧ t.msgs = s.msgs.erase (.rds, m) ++ [(.dh, toRequester m num 2 x.data x.poison)]) ∧
      (Does (.rds m .double) s fun t => (t.line m.ln).l3 = some { x with poison := true, ref := true } ∧ ud x.pid 0x6031 t ∧
        ∃ num, num < 256 ∧ (MsgKind.dh, toRequester m num 2 x.data true) ∈ t.msgs)) ∧
    (∀ x d, l.dir = some d → s.copy m.ln g = some x → x.err = .double → m.dst = BitVec.ofNat 8 g.val → g.val / 3 ∉ s.chord.lost →
      s.deferrer m.ln g = none → x.st = .m → s.comes .snc m →
      Does (.snc m) s fun t => t.copy m.ln g = some { x with st := .e, err := .none, poison := true } ∧ ud d.pid 0x7051 t ∧
        (MsgKind.sdh, { m with src := m.dst, dst := m.src, score := 0, data := x.data, poison := true, arg := 0 }) ∈ t.msgs)

/-- What a home does with a request: answer it, snoop for it, or refuse it; and what stored errors make of its data. -/
def Obligations.HomeResults : Prop := HomeAnswersUncachedLine ∧ HomeSnoopsByDirectory ∧ HomeRefusals ∧ StoredErrorsAreMet

/-- How an open transaction goes on: the last snoop response lets the home act (forwarded data, or the home's own answer), returned and
evicted data go to the L3, an eviction frees its way with EVA, and CACK closes the transaction (R229, R236, R238, R242, R243). -/
def Obligations.HomeTransactionProgress : Prop :=
  ∀ (s : State) (m : Msg) (x : Tracker) (e : DirEnt),
    let l := s.line m.ln
    let r := x.req
    let d := s.homeData m.ln r.pid
    let bit_ (n : Nat) : BitVec 36 := BitVec.ofNat 36 (2 ^ n)
    let waits := SliceIdle s (homeOf m.ln) ∧ s.sound m.ln ∧ (∀ e ∈ s.l3Peers m.ln, e.2.err = .none) ∧ l.tr = some x ∧ l.queue = [] ∧ l.dir = some e ∧
      r.ln = m.ln ∧ x.sent = false ∧ x.fwd = false ∧ x.got = none ∧ x.wbif = [] ∧ x.evs = [] ∧ x.snoops = [m.src.toNat]
    let quiet (t : State) : Prop := t.msgs = s.msgs.erase (.srsp, m)
    let answers (a : MsgKind) (arg : Nat) (v : Line × Bool) (t : State) : Prop := t.msgs = s.msgs.erase (.srsp, m) ++ [(a, toRequester r x.num arg v.1 v.2)]
    let mine : Option DirEnt := some { st := .de, owner := r.src.toNat, pres := 0, pid := r.pid, ref := true }
    let taken : L3Copy := { data := m.data, dirty := true, poison := m.poison, err := .none, pid := m.pid, way := 0, ref := true }
    (waits → s.comes .srsp m → x.cack = true →
      (x.kind = .rds → e.st ≠ .ds → m.arg = 9 →
        Does (.srsp m) s fun t => quiet t ∧
          (t.line m.ln).dir = some { e with st := .ds, owner := 0, pres := e.pres ||| bit_ e.owner ||| bit_ r.src.toNat, ref := true }) ∧
      (x.kind = .rds → e.st ≠ .ds → m.arg = 12 →
        Does (.srsp m) s fun t => quiet t ∧ (t.line m.ln).dir = some { e with st := .dx, pres := e.pres ||| bit_ e.owner ||| bit_ r.src.toNat, ref := true }) ∧
      (x.kind = .rdu → m.arg = 8 → Does (.srsp m) s fun t => quiet t ∧ (t.line m.ln).dir = mine) ∧
      (x.kind = .rdu → x.wasM = false → m.arg = 0 → Does (.srsp m) s fun t => answers .dh 2 d t ∧ (t.line m.ln).dir = mine) ∧
      (x.kind = .upg → m.arg = 0 → Does (.srsp m) s fun t => answers .cmp 0 (0, false) t ∧ (t.line m.ln).dir = mine)) ∧
    (waits → s.comes .srsp m → x.cack = false → x.kind = .rdo → m.arg = 10 →
      Does (.srsp m) s fun t => quiet t ∧ (t.line m.ln).dir = some e ∧ (t.line m.ln).tr = none) ∧
    (waits → s.comes .srsp m → x.cack = false → x.kind = .inv → m.arg = 0 →
      Does (.srsp m) s fun t => answers .cmp 0 (0, false) t ∧ (t.line m.ln).dir = none ∧ (t.line m.ln).l3 = none ∧ (t.line m.ln).tr = none) ∧
    (s.comes .cack m → SliceIdle s (homeOf m.ln) → l.tr = some x → x.sent = true → x.cack = true → x.snoops = [] → l.queue = [] → x.req.src = m.src →
      exec (.cack m) s = .next ((s.arrived .cack m).setLine m.ln { l with tr := none })) ∧
    (waits → s.comes .sdh m → l.l3 = none → s.l3Peers m.ln = [] → (s.wayMask (homeOf m.ln) m.pid) % 2 = 1 →
      Does (.sdh m) s fun t => (t.line m.ln).l3 = some taken ∧ t.msgs = s.msgs.erase (.sdh, m) ∧
        ∃ y, (t.line m.ln).tr = some y ∧ y.got = some (m.data, m.poison) ∧ y.snoops = x.snoops) ∧
    (l.tr = none → l.dir = some e → e.st = .de → e.owner = m.src.toNat → e.owner < 36 → e.pres = 0 → l.l3 = none →
      s.l3Peers m.ln = [] → s.wayMask (homeOf m.ln) m.pid % 2 = 1 →
      let eva : MsgKind × Msg := (.eva, { m with src := m.dst, dst := m.src, data := 0, poison := false, arg := 0 })
      (s.comes .evc m → Does (.evc m) s fun t => t.msgs = s.msgs.erase (.evc, m) ++ [eva] ∧ (t.line m.ln).dir = none ∧ (t.line m.ln).l3 = none) ∧
      (s.comes .wbd m → Does (.wbd m) s fun t => t.msgs = s.msgs.erase (.wbd, m) ++ [eva] ∧ (t.line m.ln).dir = none ∧ (t.line m.ln).l3 = some taken))

/-- A WBIF answer and the eviction it names, in either order: the eviction's data is the snoop's data and the requester is granted the line
from the home (R243, R244). -/
def Obligations.CrossingEvictionServesRequest : Prop :=
  ∀ (s : State) (w r : Msg) (x : Tracker) (e : DirEnt),
    let l := s.line w.ln
    SliceIdle s (homeOf w.ln) → l.tr = some x → l.queue = [] → l.dir = some e → e.st = .de → e.pres = 0 → e.owner = w.src.toNat → e.owner < 36 →
    x.req.ln = w.ln → x.sent = false → x.fwd = false → x.got = none → x.wbif = [] → x.evs = [] → x.snoops = [w.src.toNat] → x.kind = .rdu → x.cack = true → x.wasM = false →
    r.ln = w.ln → r.src = w.src → r.arg = 32 → s.comes .wbd w →
    let granted (t : State) : Prop := (MsgKind.dh, toRequester x.req x.num 3 w.data w.poison) ∈ t.msgs ∧
      (t.line w.ln).dir = some { st := .de, owner := x.req.src.toNat, pres := 0, pid := x.req.pid, ref := true }
    (Does (.wbd w) s granted) ∧
    (s.comes .srsp r → Does (.srsp r) s fun t => t.msgs = s.msgs.erase (.srsp, r) ∧ (t.line w.ln).dir = some e ∧ Does (.wbd w) t granted)

/-! ## Coherence: the caches (R225, R231, R236, R240, R241, R244) -/

/-- R220, R240 and R241: how a cluster answers each snoop in each stable state, without a copy, and in EVP, and that one which would take the
line waits while a reservation's deferral runs. -/
def Obligations.SnoopAnswers : Prop :=
  ∀ (s : State) (m : Msg) (g : ClusterId) (c : L2Copy) (x : Tracker),
    let gone (kd : MsgKind) : List (MsgKind × Msg) := s.msgs.erase (kd, m)
    let rsp (n : Nat) : MsgKind × Msg := (.srsp, { m with src := m.dst, dst := m.src, score := 0, data := 0, poison := false, arg := BitVec.ofNat 64 n })
    let fwd (kd : MsgKind) (n : Nat) : MsgKind × Msg :=
      (kd, { m with src := m.dst, dst := x.req.src, score := x.req.score, data := c.data, poison := c.poison, arg := BitVec.ofNat 64 n })
    let back : MsgKind × Msg := (.sdh, { m with src := m.dst, dst := m.src, score := 0, data := c.data, poison := c.poison, arg := 0 })
    let shows (i : Instr) (kd : MsgKind) (ms : List (MsgKind × Msg)) (n : Option L2St) : Prop :=
      s.comes kd m → Does i s fun t => t.msgs = gone kd ++ ms ∧ t.copy m.ln g = n.map fun st => { c with st := st }
    let dirty := c.st = .m ∨ c.st = .o
    m.dst = BitVec.ofNat 8 g.val → g.val / 3 ∉ s.chord.lost →
    (s.copy m.ln g = none → s.deferrer m.ln g = none →
      ∀ i kd, (i, kd) ∈ [(Instr.sns m, MsgKind.sns), (.snu m, .snu), (.sno m, .sno), (.sni m, .sni), (.snr m, .snr), (.snc m, .snc)] →
        s.comes kd m → exec i s = .next { s with msgs := gone kd ++ [rsp 0] }) ∧
    (∀ k, s.copy m.ln g = some c → c.st.stable = true → s.deferrer m.ln g = some k →
      ∀ i kd, (i, kd) ∈ [(Instr.sni m, MsgKind.sni), (.snr m, .snr), (.snu m, .snu)] → s.comes kd m →
        exec i s = .next ((s.arrived kd m).setCore k { (s.core k) with deferred := (s.core k).deferred ++ [(kd, m)] })) ∧
    (s.copy m.ln g = some c → c.err = .none → s.deferrer m.ln g = none → (s.line m.ln).tr = some x →
      (c.st = .evp → ∀ i kd, (i, kd) ∈ [(Instr.sns m, MsgKind.sns), (.snu m, .snu), (.sno m, .sno), (.sni m, .sni), (.snr m, .snr), (.snc m, .snc), (.snic m, .snic)] →
        shows i kd [rsp 32] (some .evp)) ∧
      (c.st.stable = true → shows (.sni m) .sni [rsp 0] none) ∧
      (c.st = .s → shows (.snu m) .snu [rsp 0] none ∧ shows (.snr m) .snr [rsp 0] none) ∧
      (c.st = .e → shows (.sns m) .sns [fwd .df 1, rsp 9] (some .s) ∧ shows (.snu m) .snu [fwd .df 2, rsp 8] none ∧
        shows (.snr m) .snr [rsp 0] none ∧ shows (.snc m) .snc [rsp 2] (some .e) ∧ shows (.sno m) .sno [fwd .dro 0, rsp 10] (some .e)) ∧
      (dirty → shows (.sns m) .sns [fwd .df 1, rsp 12] (some .o) ∧ shows (.snu m) .snu [fwd .df 3, rsp 8] none ∧ shows (.snr m) .snr [back, rsp 16] none) ∧
      (c.st = .m → shows (.snc m) .snc [back, rsp 18] (some .e) ∧ shows (.sno m) .sno [fwd .dro 0, rsp 11] (some .m)) ∧
      (c.st = .o → shows (.snc m) .snc [back, rsp 17] (some .s) ∧ shows (.sno m) .sno [fwd .dro 0, rsp 12] (some .o)) ∧
      (c.st.stable = true → s.comes .snic m → Does (.snic m) s fun t => t.copy m.ln g = some c ∧ ∀ k, clusterOf k = g → ∀ y ∈ (t.core k).l1i, y.ln ≠ m.ln))

/-- Data and completions reach their agents: a fill takes the granted state and a way of its set, and sends CACK; in a set without a free way
a victim goes to EVP with EVC or WBD; EVA frees a way, which a waiting fill takes; a CMP turns a waiting upgrade into M or ends a
maintenance operation; an error ends what waited; and a read of a root complex is completed (R163, R224, R225, R235, R238, R240, R241, R252,
R371, R373). -/
def Obligations.AgentReceipts : Prop :=
  ∀ (s : State) (m : Msg) (g : ClusterId) (c : L2Copy) (n : Nat) (st : L2St) (port : PortId) (victim : Option Nat),
    let cack : MsgKind × Msg := (.cack, { m with src := m.dst, dst := sliceAgent (homeOf m.ln), data := 0, poison := false, arg := 0 })
    let filled : L2Copy := { c with st := st, prior := none, data := m.data, poison := m.poison, err := .none }
    let k := msgCore m
    let ways := s.fillWays g c.core
    let free (w : Nat) : Prop := w ∈ ways ∧ ∀ e ∈ s.l2Peers m.ln g, e.2.way ≠ some (Fin.ofNat 16 w)
    let fills (q : State → Prop) : Prop := ∀ i kd, (i, kd) ∈ [(Instr.dh m victim, MsgKind.dh), (.df m victim, .df)] → s.comes kd m →
      Does i s fun t => q t ∧ ((∃ e, t.msgs = s.msgs.erase (kd, m) ++ e :: [cack]) ∨ t.msgs = s.msgs.erase (kd, m) ++ [cack])
    (m.dst = BitVec.ofNat 8 g.val → s.settled = true → s.copy m.ln g = some c →
      ((c.st = .isd ∨ c.st = .imd ∨ c.st = .upa) → ((n = 1 ∧ st = .s) ∨ (n = 2 ∧ st = .e) ∨ (n = 3 ∧ st = .m)) → m.arg = BitVec.ofNat 64 n →
        (c.way ≠ none → fills fun t => t.copy m.ln g = some filled) ∧
        (c.way = none → (∃ w, free w) → fills fun t => ∃ w, free w ∧ t.copy m.ln g = some { filled with way := some (Fin.ofNat 16 w) }) ∧
        (c.way = none → ways ≠ [] → (∀ w ∈ ways, ∃ e ∈ s.l2Peers m.ln g, e.2.way = some (Fin.ofNat 16 w)) → s.evpCount g < 16 → s.noneDeferred →
          (∀ e ∈ s.l2Peers m.ln g, e.1 ≠ m.ln ∧ s.copy e.1 g = some e.2 ∧ e.2.st.stable = true ∧ e.2.err = .none) →
          fills fun t => t.copy m.ln g = some filled ∧ ∃ e ∈ s.l2Peers m.ln g, t.copy e.1 g = some { e.2 with st := .evp } ∧
            (∀ j w, clusterOf j = g → (t.core j).holds e.1 w = false) ∧
            ∃ y, (if e.2.st = .m ∨ e.2.st = .o then MsgKind.wbd else .evc, y) ∈ t.msgs ∧ y.ln = e.1 ∧ (e.2.st = .m ∨ e.2.st = .o → y.data = e.2.data))) ∧
      (c.st = .evp → s.comes .eva m →
        let s1 := (s.arrived .eva m).setCopy m.ln g none
        let waits (wl : Nat) : Prop := ∃ e ∈ s1.lines, e.1 = wl ∧ l2Set wl = l2Set m.ln ∧ ∃ y, e.2.l2.get none g.val = some y ∧ y.way = none
        ((∀ wl, waits wl → wl = m.ln) → exec (.eva m) s = .next s1) ∧
        (∀ wl wc w, s1.copy wl g = some wc → wc.way = none → wc.st.stable = true → l2Set wl = l2Set m.ln → (∀ x, waits x → x = wl) →
          w ∈ s1.fillWays g wc.core → (∀ e ∈ s1.l2Peers wl g, e.2.way ≠ some (Fin.ofNat 16 w)) →
          Does (.eva m) s fun t => t.copy m.ln g = none ∧ ∃ w, t.copy wl g = some { wc with way := some w })) ∧
      (c.st = .upa → s.comes .cmp m →
        Does (.cmp m) s fun t => t.copy m.ln g = some { c with st := .m, prior := none } ∧ t.msgs = s.msgs.erase (.cmp, m) ++ [cack]) ∧
      (∀ pre post, c.st.stable = true → s.comes .cmp m → (s.core k).maintOut = pre ++ (m.ln, n) :: post → (∀ x ∈ pre, x.1 ≠ m.ln) →
        Does (.cmp m) s fun t => (t.core k).maintOut = pre ++ post ∧ t.lines = s.lines) ∧
      (c.st = .isd → inMmio (64 * m.ln) = false → (s.core k).ra = none → (s.core k).held = false → (s.core k).cs = 0 → (s.core k).abort = none →
        s.wakeAb.get none k.val = none → m.arg = 3 → s.comes .err m → s.noneDeferred →
        Does (.err m) s fun t => t.copy m.ln g = none ∧ ∃ ab, (t.core k).abort = some ab ∧ ab.status = 3 ∧ ab.write = false)) ∧
    (∀ i kd, (i, kd) ∈ [(Instr.dro m, MsgKind.dro), (.atr m, .atr)] → s.comes kd m →
      (∀ off len, s.rcPort m PortSt.readLines = some port → (s.portSt port).reads = [[{ ln := m.ln, off := off, len := len, got := none }]] →
        (∀ p : PortId, portRc p = portRc port → (s.portSt p).held = []) →
        Does i s fun t => t.reply = 0 :: BitVec.ofNat 8 (if m.poison then 1 else 0) :: natBytes (lineGet m.data off len) len ∧
          (t.portSt port).reads = [] ∧ t.msgs = s.msgs.erase (kd, m) ∧ t.mem = s.mem ∧ t.lines = s.lines ∧ t.cores = s.cores) ∧
      (s.rcPort m PortSt.readLines = none → exec i s = .next (s.arrived kd m)))

/-- TLB invalidations between clusters, interrupt messages, landing credits, and the PSC's register accesses (R15, R140, R197, R269, R287, R392,
R393): what each leaves at its receiver. -/
def Sys2Proof.Machine.ControlMessages : Prop :=
  ∀ (s : State) (m : Msg) (g : ClusterId) (k : CoreId) (i : Nat) (r : Reg),
    let back (kd : MsgKind) (a : Nat) : MsgKind × Msg := (kd, { m with src := m.dst, dst := m.src, arg := BitVec.ofNat 64 a })
    let tlba := back .tlba (fld m.arg 35 28)
    let stays (l : List TlbEnt) : List TlbEnt := l.filter fun e => !((tlbOfMsg m).hits e)
    let older (j : CoreId) : Prop := (s.core j).sq ≠ [] ∨ (s.core j).dq ≠ [] ∨ (s.core j).wait ≠ none
    (m.dst = BitVec.ofNat 8 g.val → s.comes .tlbd m → s.tlbOwed = [] →
      (s.owner g = some m.pid → Does (.tlbd m) s fun t =>
        (∀ j, clusterOf j = g → (t.core j).tlb = stays (s.core j).tlb ∧ (t.core j).dtlb = stays (s.core j).dtlb ∧ (t.core j).itlb = stays (s.core j).itlb) ∧
        (∀ j, clusterOf j ≠ g → t.core j = s.core j) ∧
        ((∀ j, clusterOf j = g → ¬ older j) → t.msgs = s.msgs.erase (.tlbd, m) ++ [tlba] ∧ t.tlbOwed = []) ∧
        ((∃ j, clusterOf j = g ∧ older j) → t.msgs = s.msgs.erase (.tlbd, m) ∧ t.tlbOwed.map (·.ack) = [tlba.2])) ∧
      (s.owner g ≠ some m.pid → exec (.tlbd m) s = .next { s with msgs := s.msgs.erase (.tlbd, m) ++ [tlba] })) ∧
    (m.dst.toNat < 36 → k = Fin.ofNat 216 (6 * m.dst.toNat + m.score.val % 6) → s.comes .tlba m → Does (.tlba m) s fun t =>
      (t.core k).tlbOut = (s.core k).tlbOut.erase (m.arg.toNat % 256, m.src.toNat) ∧ ∀ j, j ≠ k → t.core j = s.core j) ∧
    (s.comes .intd m → i < 2048 →
      (m.arg = BitVec.ofNat 64 (i + k.val * 2 ^ 15) →
        (m.dst ≠ 0x2F → (s.core k).cs.val < 2 → (s.core k).held = false →
          Does (.intd m) s fun t => (∀ x, x ∈ (t.core k).pendO ↔ x = i ∨ x ∈ (s.core k).pendO) ∧ (t.core k).pendI = (s.core k).pendI) ∧
        (m.dst = 0x2F → Does (.intd m) s fun t => (∀ x, x ∈ t.wakeO.get [] k.val ↔ x = i ∨ x ∈ s.wakeO.get [] k.val) ∧ t.cores = s.cores)) ∧
      (m.arg = BitVec.ofNat 64 (i + 2 ^ 11 + k.val * 2 ^ 15) → m.dst ≠ 0x2F → (s.core k).cs.val < 2 → (s.core k).held = false →
        Does (.intd m) s fun t => (∀ x, x ∈ (t.core k).pendI ↔ x = i ∨ x ∈ (s.core k).pendI) ∧ (t.core k).pendO = (s.core k).pendO)) ∧
    (let path := landKey (fld m.arg 11 8) (fld m.arg 7 0) m.src.toNat
     s.comes .lcr m → Does (.lcr m) s fun t =>
       t.net.landing.get 0 path = s.net.landing.get 0 path - fld m.arg 14 12 ∧ t.regs = s.regs ∧ t.cores = s.cores) ∧
    (Reg.ofAddr m.ln = some r → r.addr = m.ln → m.ln % (r.width / 8) = 0 → (r.width = 32 ∨ r.width = 64) →
      let old := (s.arrived .mrd m).regValue .inner r
      let ans (v : Line) : MsgKind × Msg := (.mcmp, { m with src := m.dst, dst := m.src, data := v, poison := false })
      (s.comes .mrd m → Does (.mrd m) s fun t => t.msgs = old.2.msgs ++ [ans (BitVec.ofNat 512 old.1)] ∧ t.regs = old.2.regs) ∧
      (s.comes .mwr m → exec (.mwr m) s = .next (((s.arrived .mwr m).regPut .inner r (m.data.setWidth 64)).send .mcmp (ans 0).2))) ∧
    (s.comes .mcmp m → Does (.mcmp m) s fun t => t = { s.arrived .mcmp m with reply := natBytes m.data.toNat 8 })

/-- The L2's power controls, the merge buffer, the way masks and the watchdogs of coherent requests (R230, R247, R253, R255–R257, R262,
R480). -/
def Sys2Proof.Machine.CacheControlResults : Prop :=
  ∀ (s : State) (g : ClusterId) (v : Word) (ln : Nat) (e : MergeEnt) (x : Tracker) (k : CoreId) (sl : SliceId) (bank : Bool) (p : Pid),
    let locks := (List.range 16).filter fun w => v.getLsbD (4 * w + 3)
    let bad := 12 < locks.length ∨ ∃ w, w < 16 ∧ 6 ≤ fld v (4 * w + 2) (4 * w)
    let mask (q : Pid) : Reg := if bank then .l3sWaymaskB sl q else .l3sWaymaskA sl q
    (¬ bad → Does (.l2LockWrite g v) s fun t => t.rg (.cluL2Lock g) = regWritten (.cluL2Lock g) false (s.rg (.cluL2Lock g)) v ∧ t.lines = s.lines) ∧
    (bad → Does (.l2LockWrite g v) s fun t => t.rg (.cluL2Lock g) = s.rg (.cluL2Lock g) ∧ t.rb (.cluL2Ctl g) 4 = true) ∧
    (s.l2State g = 0 → s.noneDeferred → s.settled = true → Does (.l2Disable g) s fun t =>
      t.rb (.cluL2Ctl g) 0 = false ∧ t.l2State g = 1 ∧ (∀ j, clusterOf j = g → (t.core j).resv = none) ∧ t.lines = s.lines) ∧
    (s.l2State g = 2 → Does (.l2Enable g) s fun t => t.rb (.cluL2Ctl g) 0 = true ∧ t.l2State g = 0) ∧
    (s.l2State g = 1 → Does (.l2Enable g) s fun t => t.rb (.cluL2Ctl g) 0 = true ∧ t.l2State g = 1) ∧
    (s.l2State g = 1 → s.l2Lines g = [] →
      Does (.l2Drained g) s fun t => t.l2State g = if s.rb (.cluL2Ctl g) 0 then 0 else 2) ∧
    ((s.line ln).mb = some e → e.last + 256 ≤ s.now → (s.line ln).l3 = none → s.l3Peers ln = [] → s.wayMask (homeOf ln) e.pid % 2 = 1 →
      Does (.mergeBufferDrain ln) s fun t => (t.line ln).mb = none ∧ t.mem = s.mem ∧ (t.line ln).l3 =
        some { data := (s.homeData ln e.pid).1, dirty := true, poison := e.poison, err := .none, pid := e.pid, way := 0, ref := true }) ∧
    ((s.line ln).mb = none ∨ (∃ e, (s.line ln).mb = some e ∧ s.now < e.last + 256) → exec (.mergeBufferDrain ln) s = .next s) ∧
    ((s.line ln).tr = some x → x.armed + 4096 < s.tick → s.fatal = false → s.partState x.req.pid ≠ 5 →
      Does (.homeTrackerTimeout ln) s fun t => t.partState x.req.pid = 5 ∧ x.req.pid.val ∈ t.refused) ∧
    (s.requestOf k ln = true → s.fatal = false → s.partState (s.pidOf k) ≠ 5 →
      Does (.coherentRequestTimeout k ln) s fun t => t.partState (s.pidOf k) = 5 ∧ (s.pidOf k).val ∈ t.refused) ∧
    (s.bankLocked 2 bank = false → (∀ q, q ≠ p → s.rf (mask q) 15 0 &&& fld v 15 0 = 0) →
      Does (.waymaskWrite sl bank p v) s fun t => t.rg (mask p) = regWritten (mask p) false (s.rg (mask p)) v) ∧
    (s.bankLocked 2 bank = false → (∃ q, q ≠ p ∧ s.rf (mask q) 15 0 &&& fld v 15 0 ≠ 0) →
      Does (.waymaskWrite sl bank p v) s fun t => t.rg (mask p) = s.rg (mask p)) ∧
    (p.val ∈ s.refused → s.partState p = 5 → Does (.domainDownWalkComplete p) s fun t =>
      (∀ q, s.owner (clusterOf q) = some p → t.core q = Core.reset) ∧
      ∀ y, (match (t.line y).l3 with | some c => c.pid ≠ p | none => True) ∧ (match (t.line y).dir with | some d => d.pid ≠ p | none => True))

/-- Control messages and the commands of the caches. -/
def Obligations.ControlAndCacheCommandResults : Prop := ControlMessages ∧ CacheControlResults

/-! ## The Net (R271–R302, R481) -/

/-- NET_PACKET_FORWARD with a unit of a mesh link (R271, R272, R276–R278, R284, R299, R300, R302): an error in two bits, a header that fails its
check or meets a disabled port, a guaranteed packet in and out of its slot, a packet that waits or takes its output, and a data unit that
follows its header. A header that passes its check and names a reserved VN, turn code or LPORT (R268, R272) stops the block by name. -/
def Sys2Proof.Machine.LinkArrivalResults : Prop :=
  ∀ (s : State) (rt : RouterId) (o out inp : OutPort) (err : LinkErr) (flip d : BitVec 256) (w : WUnit) (g : Grant),
    let r := s.router rt
    let i := Instr.netPacketForward rt out (some (.link inp err flip))
    let p : NetPkt := { inp := inp, hdr := d, data := [], demo := w.demo, due := none }
    let ctl : Reg := .netRtrCtl rt.plane rt.node
    let en (o : OutPort) : Prop := s.rb ctl o.val = true
    let key := 8 * o.val + hVn d
    let same (t : State) : Prop := t.mem = s.mem ∧ t.lines = s.lines ∧ t.cores = s.cores
    let on (nx : RouterId) (t : State) (u : WUnit) : Prop := (t.router nx).link (facing o) = (s.router nx).link (facing o) ++ [u]
    let dropped (t : State) : Prop := (t.router rt).queue = r.queue ∧ (t.router rt).grants = r.grants ∧ (t.router rt).link inp = (r.link inp).tail ∧
      (w.demo = false → hVn d ≠ 4 → ∀ up, neighbour rt inp = some up →
        (t.router up).ret.get 0 (8 * (facing inp).val + hVn d) = (s.router up).ret.get 0 (8 * (facing inp).val + hVn d) + 1)
    let due := (w.due.getD s.now) + 16
    let slotted := s.now ≤ due ∧ slotNames (s.slotEntry rt (hSb d == 1) o (due / 16 % 125)) inp.val (hPid d) = true
    let own := vnOfMsg (hMsg d)
    let frozen := s.rb (.netArbCfg rt.plane rt.node) 8 = true
    let head (demo : Bool) : WUnit := { vn := hVn d, head := true, data := hNext d, poison := false, demo := demo, due := none }
    (err = .double → r.link inp ≠ [] → exec i s = .next (s.setRouter rt { r with skip := insertNat inp.val r.skip })) ∧
    (r.link inp = [] ∨ inp.val ∈ r.skip → err ≠ .double → exec i s = .next s) ∧
    (s.onWire rt inp err flip = some (w, d) → w.head = true →
      (hchkOk d = false → Does i s fun t => dropped t ∧ same t) ∧
      (hchkOk d = true → 6 ≤ hVn d ∨ outOf p = none → exec i s = .fault .reservedHeader) ∧
      (hchkOk d = true → hVn d < 6 → outOf p = some o → ¬ (en inp ∧ en o) → Does i s fun t => dropped t ∧ same t ∧ t.rb ctl 8 = true) ∧
      (hchkOk d = true → hVn d < 6 → outOf p = some o → en inp → en o → r.queue = [] → r.grants.get none o.val = none →
        (hVn d = 4 → slotted → ∀ nx, neighbour rt o = some nx → Does i s fun t => same t ∧ (t.router rt).queue = [] ∧
          on nx t { vn := 4, head := true, data := hNext d, poison := false, demo := false, due := some due }) ∧
        (hVn d = 4 → slotted → hDu d = 0 → ∀ f, edgeFacet rt o.val = some f → Does i s fun t => same t ∧
          t.chord.tx.get [] ((12 * f + rt.plane.val) * 2 + 1) = s.chord.tx.get [] ((12 * f + rt.plane.val) * 2 + 1) ++ [p]) ∧
        (hVn d = 4 → ¬ slotted → ∀ nx up, neighbour rt o = some nx → neighbour rt inp = some up →
          let le : Reg := .netLinkErr up.plane up.node (facing inp)
          Does i s fun t => same t ∧ t.rf le 47 32 = min 65535 (s.rf le 47 32 + 1) ∧
            on nx t { vn := own, head := true, data := hNext (hSeal (hset d 2 0 own)), poison := false, demo := true, due := none }) ∧
        (hVn d ≠ 4 → (w.demo = true → p.units ≤ 3) → s.mayGo rt o p = true → (hVn d = 5 ∨ ¬ frozen) → (hVn d = 5 → hDu d = 0) →
          ∀ nx, neighbour rt o = some nx → Does i s fun t => same t ∧ on nx t (head false) ∧ (t.router rt).queue = [] ∧
            (t.router rt).away.get 0 key = r.away.get 0 key + 1 ∧
            (t.router rt).grants.get none o.val = (if hDu d = 0 then none else some { pkt := p, sent := 1, since := s.tick })) ∧
        (hVn d < 4 → (w.demo = true → p.units ≤ 3) → s.mayGo rt o p = false ∨ frozen → Does i s fun t => same t ∧
          (t.router rt).queue = [p] ∧ (t.router rt).away = r.away ∧ (t.router rt).grants = r.grants) ∧
        (hVn d < 4 → w.demo = true → 3 < p.units → s.fatal = false → s.partState (hPid d) ≠ 5 →
          Does i s fun t => (t.router rt).queue = [] ∧ t.partState (hPid d) = 5))) ∧
    (s.onWire rt inp err flip = some (w, d) → w.head = false → w.vn ≠ 4 → r.queue = [] → r.grants = [(o.val, some g)] → g.pkt.inp = inp →
      g.pkt.demo = w.demo → hVn g.pkt.hdr = w.vn → g.pkt.data.length < hDu g.pkt.hdr → g.sent = 1 + g.pkt.data.length →
      ∀ nx, neighbour rt o = some nx → Does i s fun t => same t ∧
        on nx t { vn := w.vn, head := false, data := d, poison := w.poison, demo := false, due := none } ∧
        ((t.router rt).grants.get none o.val = none ↔ g.sent = hDu g.pkt.hdr))

/-- NET_PACKET_FORWARD with an injection or a packet from a Facet's Centroid endpoint, and without an arrival (R27, R275–R278, R282, R285, R287,
R288, R292, R294, R296, R310): what enters the plane, what waits, and how a packet that holds an output goes on. -/
def Sys2Proof.Machine.InjectionResults : Prop :=
  ∀ (s : State) (rt : RouterId) (o out : OutPort) (kind : MsgKind) (m : Msg) (gtd : Bool) (vn : Vn) (q : NetPkt) (g : Grant) (f : Nat),
    let r := s.router rt
    let x : MsgKind × Msg := (kind, m)
    let i := Instr.netPacketForward rt out (some (.inject kind m gtd))
    let p := planeOf kind m
    let data := msgUnits kind m
    let at' := injNode p m.src.toNat
    let inp : OutPort := Fin.ofNat 7 (4 + at'.2)
    let pkt : NetPkt := { inp := inp, hdr := s.header p kind m gtd, data := data, demo := false, due := none }
    let same (t : State) : Prop := t.mem = s.mem ∧ t.lines = s.lines ∧ t.cores = s.cores
    let en (o : OutPort) : Prop := s.rb (.netRtrCtl rt.plane rt.node) o.val = true
    let frozen := s.rb (.netArbCfg rt.plane rt.node) 8 = true
    let tx := (12 * (m.src.toNat / 3) + p) * 2
    let key := 8 * inp.val + hVn pkt.hdr
    (s.injReady x gtd = false → exec i s = .next s) ∧
    (s.injReady x gtd = true → (gtd = true ∨ 36 ≤ m.src.toNat) → s.routed p m.src.toNat m.dst.toNat = false → s.fatal = false →
      Does i s fun t => same t ∧ t.net = s.net ∧ t.msgs = s.msgs.erase x ++
        [(.err, { m with src := m.dst, dst := m.src, data := 0, poison := false, arg := BitVec.ofNat 64 stUnavailable })]) ∧
    (s.injReady x gtd = true → s.routed p m.src.toNat m.dst.toNat = true → m.src.toNat < 36 →
      let sent (t : State) : Prop := same t ∧ t.msgs = s.msgs ∧ t.net.flying = s.net.flying ++ [x] ∧ t.chord.tx.get [] tx = s.chord.tx.get [] tx ++
        [{ pkt with inp := 4, due := if gtd then some (s.now + 176) else none }]
      (gtd = true → Does i s sent) ∧
      (gtd = false → s.rb (.fctArbCfg (Fin.ofNat 12 (m.src.toNat / 3))) 8 = true → exec i s = .next s) ∧
      (gtd = false → s.rb (.fctArbCfg (Fin.ofNat 12 (m.src.toNat / 3))) 8 = false →
        (∀ y ∈ s.msgs, y.2.src.toNat / 3 = m.src.toNat / 3 → y.2.src = m.src) → Does i s sent)) ∧
    (s.injReady x false = true → gtd = false → s.routed p m.src.toNat m.dst.toNat = true → 36 ≤ m.src.toNat → rt.plane.val = p → rt.node.val = at'.1 →
      outOf pkt = some o → en inp → en o → hVn pkt.hdr < 4 → r.queue = [] → r.grants.get none o.val = none → frozen → Does i s fun t => same t ∧
        t.msgs = s.msgs ∧ t.net.flying = s.net.flying ++ [x] ∧ (t.router rt).queue = [pkt] ∧
        (t.router rt).local_.get 0 key = r.local_.get 0 key + 1 + data.length) ∧
    (edgeFacet rt 4 = some f → (s.chord.rx.get [] ((12 * f + rt.plane.val) * 2)).find? (fun y => hVn y.hdr == vnNum vn) = some q → s.fatal = false →
      vn ≠ .gtd → vn ≠ .mgt →
      let j := Instr.netPacketForward rt out (some (.chord vn))
      let q' : NetPkt := { q with inp := 4, due := none }
      let ck := ((12 * f + rt.plane.val) * 8 + vnNum vn) * 2
      let c : ChCred := s.chord.creds.get ChCred.empty ck
      (hchkOk q.hdr = true → outOf q' ≠ none → netBuf (vnNum vn) < r.local_.get 0 (32 + vnNum vn) + q.units → exec j s = .next s) ∧
      (hchkOk q.hdr = true → outOf q' = some o → en 4 → en o → r.queue = [] → r.grants.get none o.val = none → frozen → q.demo = false →
        r.local_.get 0 (32 + vnNum vn) + q.units ≤ netBuf (vnNum vn) → Does j s fun t => same t ∧ (t.router rt).queue = [q'] ∧
          t.chord.rx.get [] ((12 * f + rt.plane.val) * 2) = (s.chord.rx.get [] ((12 * f + rt.plane.val) * 2)).erase q ∧
          t.chord.creds.get ChCred.empty ck = { c with occ := c.occ - q.units, pend := c.pend + q.units })) ∧
    (r.grants.get none o.val = some g → r.queue = [] →
      (g.pkt.data.length < g.sent → exec (.netPacketForward rt o none) s = .next s) ∧
      (g.sent ≤ g.pkt.data.length → ∀ nx, neighbour rt o = some nx → Does (.netPacketForward rt o none) s fun t => same t ∧
        (∃ u, u.vn = hVn g.pkt.hdr ∧ (t.router nx).link (facing o) = (s.router nx).link (facing o) ++ [u]) ∧
        (t.router rt).grants.get none o.val = (if g.sent < hDu g.pkt.hdr then some { g with sent := g.sent + 1 } else none)))

/-- CREDIT_RETURN (R277), the retry of a link (R300, R301), and the end of a held grant (R296). -/
def Sys2Proof.Machine.LinkServiceResults : Prop :=
  ∀ (s : State) (rt : RouterId) (o : OutPort) (g : Grant) (vn : Vn) (n : Nat),
    let r := s.router rt
    let same (t : State) : Prop := t.mem = s.mem ∧ t.lines = s.lines ∧ t.cores = s.cores
    (r.queue = [] → r.grants.get none o.val = none →
      let key := 8 * o.val + vnNum vn
      let k := min n (r.ret.get 0 key)
      exec (.creditReturn rt o vn n) s =
        .next (s.setRouter rt { r with away := r.away.set 0 key (r.away.get 0 key - k), ret := r.ret.set 0 key (r.ret.get 0 key - k) })) ∧
    (let le : Reg := .netLinkErr rt.plane rt.node o
     let replayed (t : State) : Prop := t.rf le 31 16 = min 65535 (s.rf le 31 16 + 1) ∧ (t.router rt).replays.get 0 o.val = r.replays.get 0 o.val + 1 ∧
       (t.router rt).fails.get 0 o.val = r.fails.get 0 o.val + 1
     (r.fails.get 0 o.val + 1 < 16 → Does (.linkRetryRequest rt o n) s fun t => replayed t ∧ same t ∧ t.fatal = s.fatal ∧
       ∀ nx, neighbour rt o = some nx → (t.router nx).skip = (s.router nx).skip.erase (facing o).val) ∧
     (16 ≤ r.fails.get 0 o.val + 1 → Does (.linkRetryRequest rt o n) s fun t => replayed t ∧ t.fatal = true ∧
       ∀ nx, neighbour rt o = some nx → (t.router nx).link (facing o) = [])) ∧
    (let gh := s.rf (.netArbCfg rt.plane rt.node) 31 16
     let back := 8 * (facing g.pkt.inp).val + hVn g.pkt.hdr
     r.grants.get none o.val = some g → r.queue = [] → g.since + (if gh = 0 then 256 else gh) < s.tick → s.fatal = false →
     s.partState (hPid g.pkt.hdr) ≠ 5 → Does (.grantHoldTimeout rt o) s fun t =>
       (t.router rt).grants.get none o.val = none ∧ t.partState (hPid g.pkt.hdr) = 5 ∧
       (g.pkt.demo = false → ∀ up, neighbour rt g.pkt.inp = some up →
         (t.router up).ret.get 0 back = (s.router up).ret.get 0 back + (1 + g.pkt.data.length - g.sent)))

/-- Packets at a router, from a link, from an agent or a strand, and at an output. -/
def Sys2Proof.Machine.FabricForwardingResults : Prop := LinkArrivalResults ∧ InjectionResults ∧ LinkServiceResults

/-- Freezing an arbiter and its time limit (R294), the end of the GTD hold (R288), the disabling of a drained port (R297), and what a route
or slot entry write leaves (R35, R273, R274, R286). -/
def Sys2Proof.Machine.FabricControlResults : Prop :=
  ∀ (s : State) (arb : ArbId) (n : Nat) (rt : RouterId) (o : OutPort) (pt : InjPoint) (v : Word) (sel : Reg) (p node l : Nat) (both : Bool),
    (Does (.arbFreeze arb) s fun t => t.rb (arbCfg arb) 8 = true ∧ t.net.frozen.get none (arbKey arb) = some s.tick) ∧
    (s.net.frozen.get none (arbKey arb) = some n → s.rb (arbCfg arb) 8 = true → n + 16 < s.tick → Does (.arbFreezeTimeout arb) s fun t =>
      t.rb (arbCfg arb) 8 = false ∧ t.rb (arbCfg arb) 9 = true ∧ t.net.frozen.get none (arbKey arb) = none) ∧
    (s.net.slotHold = true → Does .gtdHoldEnd s fun t => t.net = { s.net with slotHold := false } ∧ 720 ≤ t.cycle) ∧
    (let old := if s.bank 1 then 0 else 16
     let ctl : Reg := .netRtrCtl rt.plane rt.node
     (s.rf (.netInflight rt.plane rt.node) (old + 15) old = 0 → Does (.routerDrained rt o) s fun t =>
       t.rb ctl o.val = false ∧ ∀ i, i ≠ o.val → t.rb ctl i = s.rb ctl i) ∧
     (s.rf (.netInflight rt.plane rt.node) (old + 15) old ≠ 0 → exec (.routerDrained rt o) s = .next s)) ∧
    (s.injSel pt = (sel, p, node, l, both) →
      let bankB := s.rb sel 12
      let idx := s.rf sel 7 0
      let slot := s.rb sel 13
      let cls := if slot then 0 else 1
      let shadow := s.injBank pt cls ≠ bankB ∧ s.rb .locSwapReq cls = false ∧ (slot = true → s.net.slotHold = false)
      (slot = false → shadow → routeOk p node idx v = true → Does (.routeEntryWrite pt v) s fun t =>
        t.routeEntry bankB p node l idx = v &&& 0x000FFFFFFFFFFFFF ∧ t.regs = s.regs ∧
        (∀ x, x ≠ rteKey bankB p node l idx → t.net.routes.get 0 x = s.net.routes.get 0 x)) ∧
      (slot = false → shadow → routeOk p node idx v = false → Does (.routeEntryWrite pt v) s fun t => t.net = s.net ∧ t.rb sel 16 = true) ∧
      (slot = true → shadow → Does (.routeEntryWrite pt v) s fun t =>
        t.net.inject.get 0 (rteKey bankB p node l idx) = v &&& 0x1FFF ∧ t.regs = s.regs) ∧
      (both = false → s.net.slotStop.get none p = none → s.injBank pt cls = bankB →
        Does (.routeEntryWrite pt v) s fun t => t.net = s.net ∧ t.rb sel 16 = true))

/-- The audits of link credits, landing credits and slot tables on what latched at cycle 0, in the first 384 cycles of a tick (R23, R30, R280, R287,
R289, R481, R483): a passing one changes no credit, a deficit holds what it audits, the empty link or path is reloaded, and a surplus or a
second failure stops the package or the partitions. -/
def Sys2Proof.Machine.FabricAuditResults : Prop :=
  ∀ (s : State) (rt : RouterId) (o : OutPort) (vn : Vn) (pl : PlaneId) (src dst n1 n2 n3 n4 : Nat),
    let ro := s.router rt
    let q := s.latched
    let key := 8 * o.val + vnNum vn
    let size := netBuf (vnNum vn)
    let lu := q.linkUnits rt o (vnNum vn)
    let busy := lu.1 + lu.2.1 + lu.2.2.1
    let d := lu.2.2.2
    let sum := size - (q.router rt).away.get 0 key + busy
    let audit := Instr.netCreditAudit rt o vn n1 n2 n3 n4
    let k := landKey pl.val src dst
    let landed := (s.landUnits pl.val src dst).1
    let lsum := 4 - s.latch.landing.get 0 k + landed + (s.landUnits pl.val src dst).2
    let laudit := Instr.landingCreditAudit pl src dst n1 n2
    let slotsOk := (∀ x ∈ q.ownedSlots pl.val, q.slotPreceded (q.bank 0) x.1 x.2.2.1 x.2.2.2 = true) ∧ q.slotCounts pl.val = true
    (vn = .gtd ∨ s.auditing 1 = false → exec audit s = .next s) ∧
    (vn ≠ .gtd → s.auditing 1 = true →
      (key ∈ ro.hold → busy = 0 → exec audit s =
        .next (s.setRouter rt { ro with away := ro.away.set 0 key 0, hold := ro.hold.erase key, bad := ro.bad.erase key })) ∧
      (key ∉ ro.hold ∨ busy ≠ 0 →
        (sum = size → d ≤ 3 → exec audit s = .next (s.setRouter rt { ro with bad := ro.bad.erase key })) ∧
        (sum < size → d ≤ 3 → key ∉ ro.bad → Does audit s fun t =>
          t.router rt = { ro with hold := insertNat key ro.hold, bad := insertNat key ro.bad } ∧ t.fatal = s.fatal ∧ t.cores = s.cores) ∧
        (size < sum ∨ 3 < d ∨ (sum ≠ size ∧ key ∈ ro.bad) → Does audit s fun t => t.fatal = true ∧ t.cores = []))) ∧
    (s.auditing 1 = false → exec laudit s = .next s) ∧
    (s.auditing 1 = true →
      (k ∈ s.net.landHold → landed = 0 → Does laudit s fun t => t.net.landing.get 0 k = 0 ∧ t.net.landHold = s.net.landHold.erase k ∧ t.regs = s.regs) ∧
      (k ∉ s.net.landHold ∨ landed ≠ 0 →
        (lsum = 4 → Does laudit s fun t => t.net = { s.net with landBad := s.net.landBad.erase k } ∧ t.regs = s.regs) ∧
        (lsum < 4 → k ∉ s.net.landBad → Does laudit s fun t =>
          t.net = { s.net with landHold := insertNat k s.net.landHold, landBad := insertNat k s.net.landBad } ∧ t.cores = s.cores) ∧
        (4 < lsum ∨ (lsum ≠ 4 ∧ k ∈ s.net.landBad) → s.fatal = false → Does laudit s fun t =>
          ∀ q ∈ s.landPids pl.val dst, t.partState (Fin.ofNat 16 q) = 5))) ∧
    (s.auditing 6 = false → exec (.slotAudit pl) s = .next s) ∧
    (s.auditing 6 = true →
      (slotsOk → Does (.slotAudit pl) s fun t => t.net.slotStop.get none pl.val = none ∧ t.regs = s.regs) ∧
      (¬ slotsOk → Does (.slotAudit pl) s fun t => t.net.slotStop.get none pl.val = some s.slotNow ∧ t.net.tokens = s.net.tokens ∧ t.cores = s.cores))

/-- The Net: forwarding, its control, and its audits. -/
def Obligations.FabricResults : Prop := FabricForwardingResults ∧ FabricControlResults ∧ FabricAuditResults

/-! ## The Chord (R305–R326, R481) -/

/-- What the sender of a strand in UP puts into the next position (R304, R306–R308, R310): after a NAK the unacknowledged units again, a data
unit of the packet that is open on the position's plane, the header of a packet that may begin, or IDLE. -/
def Sys2Proof.Machine.ChordSenderResults : Prop :=
  ∀ (s : State) (f : FacetId) (st : StrandId) (dir : Dir) (v : ChUnit) (q : NetPkt) (b : BitVec 256 × Bool) (rest : List (BitVec 256 × Bool)) (n : Nat),
    let x := s.strand f st
    let d := x.dir dir
    let list := s.planeList f st
    let p := list.getD (d.pos % list.length) (2 * st.val)
    let k := openKey f p dir
    let r := s.chSend f st dir
    let sent (data : BitVec 256) : Prop := r.1.data = data ∧ tuSeq r.1 = d.next % 256 ∧
      ∃ u, u.seq = d.next ∧ u.plane = p ∧ u.data = data ∧ u.trailer = r.1.trailer ∧
        (r.2.strand f st).dir dir = { d with unacked := d.unacked ++ [u], sent := d.sent + 1, next := (d.next + 1) % 256 }
    (d.unacked[d.sent]? = some v → v.plane = p →
      r = ({ data := v.data, trailer := v.trailer }, s.setStrand f st (x.setDir dir { d with sent := d.sent + 1 }))) ∧
    (d.unacked[d.sent]? = some v → v.plane ≠ p → tuRet r.1 = 31 ∧ r.2 = s) ∧
    (d.unacked[d.sent]? = none → s.chord.cur.get (0, []) k = (n, b :: rest) → sent b.1 ∧ r.1.trailer.getLsbD 29 = b.2 ∧
      (r.2.chord.cur.get (0, []) k).2 = rest ∧ (n < 4 → (r.2.cred f p n dir).away = (s.cred f p n dir).away + 1)) ∧
    (d.unacked[d.sent]? = none → (s.chord.cur.get (0, []) k).2 = [] → s.mayBegin f st dir p = some q → sent q.hdr ∧
      r.2.chord.tx.get [] k = (s.chord.tx.get [] k).erase q ∧ (r.2.chord.cur.get (0, []) k).2 = q.data ∧
      (hVn q.hdr < 4 → (r.2.cred f p (hVn q.hdr) dir).away = (s.cred f p (hVn q.hdr) dir).away + 1)) ∧
    (d.unacked[d.sent]? = none → (s.chord.cur.get (0, []) k).2 = [] → s.mayBegin f st dir p = none → (x.dir (flipDir dir)).acks = 0 →
      (x.dir (flipDir dir)).naks = 0 → s.credDue f st (flipDir dir) = none → tuRet r.1 = 31 ∧ r.2 = s)

/-- What a strand in UP does with a transfer unit (R305–R308, R310, R322, R323): a good one in its turn is taken, with its return and its POISON
bit; a duplicate or stale one is discarded; a bad or early one makes the receiver ask for a replay. -/
def Obligations.ChordTransferResults : Prop :=
  ChordSenderResults ∧
  ∀ (s s1 : State) (f : FacetId) (st : StrandId) (dir : Dir) (flip : BitVec 288) (u0 : TUnit) (op : ChOpen),
    let i := Instr.transferUnit f st dir flip
    let u := tuFlip u0 flip
    let x := s1.strand f st
    let d := x.dir dir
    let list := s1.planeList f st
    let pl := list.getD (d.pos % list.length) (2 * st.val)
    let d1 : ChDir := { d with pos := d.pos + 1 }
    let d2 : ChDir := { d1 with exp := (d.exp + 1) % 256, skip := false, acks := d.acks + 1 }
    let o := flipDir dir
    let err : Reg := .chdStrandErr f st
    let does (q : State → Prop) : Prop := Does i s fun t => q t ∧ t.mem = s.mem ∧ t.cores = s.cores
    let vn := hVn u.data
    let c := s1.cred f pl vn dir
    let good := tuCrcOk u = true ∧ tuEpoch u = s1.rf (.chdStrandStatus f st) 15 8 % 4
    let next := good ∧ tuSeq u = d.exp ∧ tuRet u ≠ 31
    let waits := d.await = true ∧ pl / 2 = st.val
    let unopened := (s1.openPkt f pl dir) = none
    let link := unopened ∧ vn = 6
    (s.stState f st ≠ 7 → exec i s = .next s) ∧
    (s.stState f st = 7 → (s.strand f st).closing = none → s.chSend f st dir = (u0, s1) →
      (tuCrcOk u = false → does fun t => t.strand f st = { (x.setDir dir (d1.nak s.now)) with crc := x.crc + 1 } ∧ t.rf err 15 0 = min 65535 (s1.rf err 15 0 + 1)) ∧
      (tuCrcOk u = true → ¬ good → does fun t => t.strand f st = x.setDir dir d1 ∧ t.rf err 47 32 = min 65535 (s1.rf err 47 32 + 1)) ∧
      (good → tuRet u = 31 → does fun t => t = s1.setStrand f st (x.setDir dir (if tuSeq u = d.exp then d1 else d1.nak s.now))) ∧
      (good → tuRet u ≠ 31 → tuSeq u ≠ d.exp → does fun t => t = s1.setStrand f st
        (x.setDir dir (if (d.exp + 256 - tuSeq u) % 256 ≤ 192 then d1 else d1.nak s.now))) ∧
      (next → link ∨ waits → tuRet u = 0 → does fun t => t = s1.setStrand f st (x.setDir dir d2)) ∧
      (next → link → 1 ≤ tuRet u → tuRet u ≤ 7 → does fun t => (t.strand f st).dir dir = d2 ∧
        (t.strand f st).dir o = { x.dir o with unacked := (x.dir o).unacked.drop (tuRet u), sent := (x.dir o).sent - tuRet u, fails := 0 }) ∧
      (next → link → 8 ≤ tuRet u → tuRet u ≤ 0x17 → does fun t =>
        let p' := 2 * st.val + tuRet u / 8 % 2
        let n' := tuRet u / 2 % 4
        (t.strand f st).dir dir = d2 ∧ (t.cred f p' n' o).away = (s1.cred f p' n' o).away - (tuRet u % 2 + 1)) ∧
      (next → link → tuRet u = 0x18 ∨ tuRet u = 0x19 → does fun t =>
        (t.cred f (2 * st.val + tuRet u % 2) 5 o).away = (s1.cred f (2 * st.val + tuRet u % 2) 5 o).away - 1) ∧
      (next → link → tuRet u = 0x1A → does fun t => (t.strand f st).dir o = { x.dir o with nakIn := (x.dir o).nakIn + 1 }) ∧
      (next → unopened → vn < 4 → ¬ waits → tuRet u = 0 → does fun t => t.strand f st = x.setDir dir d2 ∧
        (hDu u.data = 0 → t.openPkt f pl dir = none ∧
          (dir = .fc → t.chord.rx.get [] (openKey f pl dir) = s1.chord.rx.get [] (openKey f pl dir) ++
            [{ inp := 4, hdr := u.data, data := [], demo := false, due := none }]) ∧
          (dir = .cf → t.cred f pl vn dir = { c with pend := c.pend + 1 })) ∧
        (hDu u.data ≠ 0 → t.openPkt f pl dir = some { hdr := u.data, data := [], last := s.tick } ∧ t.cred f pl vn dir = { c with occ := c.occ + 1 })) ∧
      (next → s1.openPkt f pl dir = some op → ¬ waits → tuRet u = 0 → does fun t => t.strand f st = x.setDir dir d2 ∧
        t.openPkt f pl dir = if op.data.length + 1 < hDu op.hdr then
          some { hdr := op.hdr, data := op.data ++ [(u.data, u.trailer.getLsbD 29)], last := s.tick } else none))

/-- Replays (R308, R309), the LINK units LCNT, CLOSE, MOVE and RTNONLY (R307, R310, R311, R318, R321), and the credit audit of a Chord link
(R23, R30, R311, R481, R483). -/
def Obligations.ChordLinkResults : Prop :=
  ∀ (s : State) (f : FacetId) (st : StrandId) (dir : Dir) (pl : PlaneId) (vn : Vn) (n : Nat) (u : ChUnit) (q : ChCred) (ns : List Nat),
    let x := s.strand f st
    let d := x.dir dir
    let up := s.stState f st = 7
    let err : Reg := .chdStrandErr f st
    (up → 0 < d.nakIn → d.fails + 1 < 16 → Does (.chordNak f st dir) s fun t =>
      t.strand f st = x.setDir dir { d with fails := d.fails + 1, nakIn := d.nakIn - 1, sent := 0 } ∧
      t.rf err 31 16 = min 65535 (s.rf err 31 16 + 1) ∧ t.stState f st = 7) ∧
    (up → 0 < d.nakIn → 16 ≤ d.fails + 1 → Does (.chordNak f st dir) s fun t => t.stState f st = 0) ∧
    (¬ up ∨ d.nakIn = 0 → exec (.chordNak f st dir) s = .next s) ∧
    (up → d.skip = true → d.nakAt + 512 ≤ s.now →
      exec (.nakTimeout f st dir) s = .next (s.setStrand f st (x.setDir dir { d with naks := d.naks + 1, nakAt := s.now }))) ∧
    (d.skip = false ∨ s.now < d.nakAt + 512 → exec (.nakTimeout f st dir) s = .next s) ∧
    (up → Does (.lcnt f st ns) s fun t => t.regs = s.regs ∧ ∀ p ∈ s.planeList f st, ∀ v, v ∈ [0, 1, 2, 3, 5] →
      t.chord.cut.get none (credKey f p v .cf) = s.chord.facetCut.get none (credKey f p v .cf)) ∧
    (up → exec (.move f st dir) s = .next (s.setStrand f st (x.setDir dir { d with await := false }))) ∧
    (up → let c := s.cred f pl.val (vnNum vn) (flipDir dir)
      let k := min n c.pend
      Does (.rtnonly f st dir pl vn n) s fun t => t.regs = s.regs ∧ t.msgs = s.msgs ∧
        t.cred f pl.val (vnNum vn) (flipDir dir) = { c with away := c.away - k, pend := c.pend - k, rf := (c.rf + k) % 256, rc := (c.rc + k) % 256 }) ∧
    (¬ up → s.upStrands f ≠ [] → d.unacked = [u] → u.seq ≠ n % 256 →
      let tgt : StrandId := Fin.ofNat 6 (carrier (s.upStrands f) u.plane)
      let e := (s.strand f tgt).dir dir
      Does (.close f st dir n []) s fun t => ((t.strand f st).dir dir).unacked = [] ∧ ((t.strand f tgt).dir dir).unacked = e.unacked ++
        [{ u with seq := e.next, trailer := chTrailer u.data e.next 0 (u.trailer.getLsbD 29) (s.rf (.chdStrandStatus f tgt) 15 8) }]) ∧
    (¬ up → s.upStrands f ≠ [] → d.unacked = [u] → u.seq = n % 256 →
      exec (.close f st dir n []) s = .next (s.setStrand f st (x.setDir dir { d with unacked := [], sent := 0 }))) ∧
    (let c := s.cred f pl.val (vnNum vn) dir
     let sum := cutDiff (vnNum vn) q
     let audit := Instr.chordCreditAudit f pl vn dir ns
     (s.chord.cut.get none (credKey f pl.val (vnNum vn) dir) = none ∨ s.auditing 3 = false → exec audit s = .next s) ∧
     (vn ≠ .gtd → f.val ∉ s.chord.lost → s.auditing 3 = true → s.chord.cut.get none (credKey f pl.val (vnNum vn) dir) = some q →
      (c.hold = true → q.occ + q.pend = 0 → exec audit s =
        .next (s.setCred f pl.val (vnNum vn) dir { c with away := 0, occ := 0, pend := 0, rf := 0, rc := 0, hold := false, bad := false })) ∧
      (c.hold = false ∨ q.occ + q.pend ≠ 0 →
        (sum = 0 → q.demo ≤ 3 → exec audit s = .next (s.setCred f pl.val (vnNum vn) dir { c with bad := false })) ∧
        (128 ≤ sum → q.demo ≤ 3 → c.bad = false → Does audit s fun t =>
          t.cred f pl.val (vnNum vn) dir = { c with hold := true, bad := true } ∧ t.chord.lost = s.chord.lost) ∧
        ((0 < sum ∧ sum < 128) ∨ 3 < q.demo ∨ (sum ≠ 0 ∧ c.bad = true) → Does audit s fun t => f.val ∈ t.chord.lost ∧ t.upStrands f = []))))

/-- Training (R312–R315, R318, R322): from DOWN through its steps to UP, each with its failures, retried until the third disables the
strand; a strand that goes down, and the lane map. -/
def Sys2Proof.Machine.StrandTrainingResults : Prop :=
  ∀ (s : State) (f : FacetId) (st : StrandId) (a b c d : BitVec 25) (lat : Nat) (v : Word),
    let r : Reg := .chdStrandStatus f st
    let x := s.strand f st
    let now := s.stState f st
    let fails (i : Instr) (p : State → Prop) : Prop := Does i s fun t => p t ∧ t.stState f st = (if 2 ≤ s.rf r 25 24 then 8 else 1) ∧
      t.rf r 25 24 = min 3 (s.rf r 25 24 + 1) ∧ t.rf r 7 4 = 0
    let lane := s.rg (laneReg f st)
    let fc := lane.extractLsb' 0 25 &&& x.goodF
    let cf := lane.extractLsb' 25 25 &&& x.goodC
    (now = 0 → (s.facet f).inReset = false → Does (.train f st) s fun t => t.stState f st = 1 ∧ (t.strand f st).since = s.tick) ∧
    (now = 7 → (s.facet f).inReset = false → Does (.train f st) s fun t => t.stState f st = 1) ∧
    ((now ≠ 0 ∨ (s.facet f).inReset = true) → now ≠ 7 → exec (.train f st) s = .next s) ∧
    (now = 1 → Does (.strandDetectDone f st) s fun t => t.stState f st = 2 ∧ (t.strand f st).since = s.tick) ∧
    (now = 2 → Does (.strandLanesDone f st a b c d) s fun t => t.stState f st = 3 ∧ t.strand f st = { x with since := s.tick, goodF := a &&& b, goodC := c &&& d }) ∧
    (now = 3 →
      (laneWidth (laneCount fc) ≠ 0 → laneWidth (laneCount cf) ≠ 0 → Does (.strandWidthDone f st) s fun t => t.stState f st = 4 ∧
        t.rg (laneReg f st) = BitVec.ofNat 64 (fc.toNat + cf.toNat * 2 ^ 25) ∧ t.rf r 5 4 = laneWidth (laneCount fc) ∧ t.rf r 7 6 = laneWidth (laneCount cf)) ∧
      (laneWidth (laneCount fc) = 0 ∨ laneWidth (laneCount cf) = 0 → fails (.strandWidthDone f st) fun t => t.msgs = s.msgs)) ∧
    (now = 4 → (Does (.strandFrameDone f st true) s fun t => t.stState f st = 5) ∧ (fails (.strandFrameDone f st false) fun t => t.rb r 29 = true)) ∧
    (now = 5 → (lat ≤ 160 → Does (.strandLatencyDone f st lat) s fun t => t.stState f st = 6 ∧ t.rf r 23 16 = lat ∧
        t.rb r 26 = decide (48 < lat) ∧ t.rf r 15 8 = (s.rf r 15 8 + 1) % 256 ∧ (t.strand f st).fc = ChDir.empty ∧ (t.strand f st).cf = ChDir.empty) ∧
      (160 < lat → fails (.strandLatencyDone f st lat) fun t => t.rb r 26 = true)) ∧
    (now = 6 → Does (.strandInitDone f st) s fun t => t.stState f st = 7 ∧ t.rf r 25 24 = 0 ∧ (∀ i, i < 6 → i ≠ st.val → (i ∈ t.upStrands f ↔ i ∈ s.upStrands f)) ∧
      ((t.strand f st).fc.await = (!(s.upStrands f).isEmpty && !(s.inResync f))) ∧ ∀ p, p < 12 → t.rf (.fctChdRemap f) (3 * p + 2) (3 * p) = carrier (t.upStrands f) p) ∧
    (1 ≤ now → now ≤ 6 → x.since + trainLimit now < s.tick → fails (.trainingTimeout f st) fun t => t.msgs = s.msgs) ∧
    (now = 0 ∨ now = 8 → Does (.laneMapWrite f st v) s fun t => t.rg (laneReg f st) = regWritten (laneReg f st) false lane v) ∧
    (now ≠ 0 → now ≠ 8 → Does (.laneMapWrite f st v) s fun t => t.rg (laneReg f st) = lane)

/-- A strand in UP that goes down hands its planes to the strands that stay UP; without one the Facet is lost with every partition on it
(R318, R319, R323–R325); an orderly take-down of an idle Facet loses nothing (R326). -/
def Sys2Proof.Machine.StrandLossResults : Prop :=
  ∀ (s : State) (f : FacetId) (st : StrandId) (dir : Dir) (pl : PlaneId) (o : ChOpen) (m : Marker) (e : Int),
    let up := s.stState f st = 7
    let x := s.strand f st
    let y := s.facet f
    let r : Reg := .chdStrandStatus f st
    let others := (s.upStrands f).erase st.val
    let down (i : Instr) (p : State → Prop) : Prop := Does i s fun t => p t ∧ t.stState f st = 0 ∧ t.upStrands f = others ∧
      ∀ p, p < 12 → t.rf (.fctChdRemap f) (3 * p + 2) (3 * p) = carrier others p
    let lost (t : State) : Prop := f.val ∈ t.chord.lost ∧ t.upStrands f = [] ∧ (s.fatal = false → ∀ p ∈ s.facetPids f, t.partState (Fin.ofNat 16 p) = 5)
    (up → down (.strandDown f st) fun t => others ≠ [] → t.net = s.net) ∧
    (up → others = [] → f.val ∉ s.chord.lost → Does (.strandDown f st) s lost) ∧
    (up → s.strandDrained f st = true → down (.takeDown f st) fun t => others ≠ [] → t.net = s.net) ∧
    (up → s.strandDrained f st = false → Does (.takeDown f st) s fun t => t.stState f st = 7 ∧ (t.strand f st).closing = some s.now ∧
      t.rb (.chdStrandCtl f st) 1 = true ∧ t.net = s.net ∧ t.upStrands f = s.upStrands f) ∧
    (up → s.strandDrained f st = true → others = [] → s.facetIdle f = true → Does (.takeDown f st) s fun t => t.chord.lost = s.chord.lost ∧ t.upStrands f = []) ∧
    (¬ up → exec (.strandDown f st) s = .next s ∧ exec (.takeDown f st) s = .next s) ∧
    (up → s.openPkt f pl.val dir = some o → o.last + 16 < s.tick → pl.val ∈ s.planeList f st →
      down (.midPacketStall f st dir pl) fun t => t.rb r 27 = true ∧ t.openPkt f pl.val dir = none) ∧
    (up → x.mark + 2 < s.tick → down (.strandHeartbeatLoss f st .cf) fun t => t.rb r 28 = true) ∧
    (up → x.echo + 2 < s.tick → down (.strandHeartbeatLoss f st .fc) fun t => t.rb r 28 = true) ∧
    (s.upStrands f ≠ [] → (∀ i ∈ s.upStrands f, (s.strand f (Fin.ofNat 6 i)).echo + 2 < s.tick) → f.val ∉ s.chord.lost → Does (.facetHeartbeatLoss f) s lost) ∧
    (up → x.marginLow dir = true → Does (.marginAlarm f st dir) s fun t => t.rb r 30 = true ∧ t.stState f st = 7) ∧
    (x.marginLow dir = false → exec (.marginAlarm f st dir) s = .next s) ∧
    (up → x.echoTx = true → x.fc.caught = true → Does (.echo f st) s fun t => t.strand f st = { x with echo := s.tick, echoTx := false } ∧
      t.facet f = { s.facet f with skew := (s.facet f).phase } ∧ ∀ p ∈ s.planeList f st, ∀ v, v ∈ [0, 1, 2, 3, 5] →
        t.chord.cut.get none (credKey f p v .fc) = some (s.cred f p v .fc)) ∧
    (x.echoTx = false ∨ x.fc.caught = false → exec (.echo f st) s = .next s) ∧
    (x.markTx = none ∨ x.cf.caught = false → exec (.mark f st e) s = .next s) ∧
    (up → x.markTx = some m → x.cf.caught = true → y.inReset = false → y.runs = true → y.seen ≠ some m.tick →
      let marks (q : State → Prop) : Prop := Does (.mark f st e) s fun t => q t ∧ (t.strand f st).mark = s.tick ∧ (t.strand f st).markTx = none ∧
        ∀ p ∈ s.planeList f st, ∀ v, v ∈ [0, 1, 2, 3, 5] → t.chord.facetCut.get none (credKey f p v .cf) = some (s.cred f p v .cf)
      (y.late = false ∨ m.tick ≠ y.tick → -16 ≤ e → e ≤ 16 → marks fun t =>
        t.facet f = { y with seen := some m.tick, held := some m, good := y.good + 1, phase := slewed e } ∧
        (s.inResync f = false ∨ y.good + 1 = 4 → t.rb (.fctTickStatus f) 0 = true) ∧
        (s.inResync f = false → 1 ≤ y.good → t.rb (.fctTickStatus f) 2 = false)) ∧
      (y.late = false ∨ m.tick ≠ y.tick → e < -16 ∨ 16 < e → marks fun t =>
        t.rb (.fctTickStatus f) 2 = true ∧ t.rb (.fctTickStatus f) 0 = false ∧ t.rb (.fctTickStatus f) 4 = true ∧
        t.facet f = { y with seen := some m.tick, held := some m, good := 0, phase := e, stepNext := some e }) ∧
      (y.late = true → m.tick = y.tick → -16 ≤ e → e ≤ 16 → marks fun t =>
        t.facet f = { (y.applyMarker m) with seen := some m.tick, late := false, good := y.good + 1, phase := slewed e } ∧
        (s.inResync f = false → t.rb (.fctTickStatus f) 3 = false)))

/-- A strand from DOWN to UP, and how it goes down. -/
def Obligations.StrandResults : Prop := StrandTrainingResults ∧ StrandLossResults

/-! ## HBM3 (R333–R360) -/

/-- A request reaches a controller's queue or is answered from a queued write (R331–R333, R339, R340), or a CXL port, which serves it at its
turn (R366). What the port, a full queue or an earlier read of the line does not let in stays in flight. -/
def Sys2Proof.Machine.MemoryArrivalResults : Prop :=
  ∀ (s : State) (m : Msg) (kd : MsgKind) (i : Instr), (kd, i) ∈ [(.rdo, .rdo m), (.wrh, .wrh m), (.wri, .wri m), (.atf, .atf m)] → s.comes kd m →
    let pc := pcOf (hbmAddr m.ln).m (s.place (hbmAddr m.ln)).1
    let x := s.pcSt pc
    let port := s.hbmPortOf pc kd m
    let lets := s.rb (.hbmPort (pcStack pc) (pcCtl pc) (Fin.ofNat 65 port)) 12
    let back : Msg := { m with src := m.dst, dst := m.src, data := 0, poison := false, arg := 0 }
    let mask : BitVec 64 := if kd = .wri then BitVec.allOnes 64 else m.arg
    let req : HbmReq := { kind := kd, ln := m.ln, port := port, at_ := s.now, level := 0,
                          full := (kd == .wri) || m.arg == BitVec.allOnes 64, msg := { m with arg := mask } }
    let reads := kd = .rdo ∨ kd = .atf
    let whole := ∃ w ∈ x.wq, w.ln = m.ln ∧ w.full = true
    let wrote (t : State) : Prop := t.memLine m.ln = lineMerge (s.memLine m.ln) m.data mask ∧ t.msgs = s.msgs.erase (kd, m) ++ [(.cmp, back)]
    (0x80 ≤ m.dst.toNat →
      (lets = false → exec i s = .next s) ∧
      (lets = true → reads → (kd = .rdo → ¬ whole) → x.rq.length < 64 →
        exec i s = .next ((s.arrived kd m).setPc pc { x with rq := x.rq ++ [req] })) ∧
      (lets = true → reads → (kd = .rdo → ¬ whole) → 64 ≤ x.rq.length → exec i s = .next s) ∧
      (lets = true → kd = .rdo → whole → Does i s fun t => t.mem = s.mem ∧ t.lines = s.lines ∧ t.regs = s.regs ∧ t.msgs = s.msgs.erase (kd, m) ++
        [(.dro, { back with data := s.memLine m.ln, poison := (s.line m.ln).mpois })]) ∧
      (¬ reads → (∃ r ∈ x.rq ++ x.issued, r.ln = m.ln) → exec i s = .next s) ∧
      (lets = true → ¬ reads → (∀ r ∈ x.rq ++ x.issued, r.ln ≠ m.ln) → s.cxlLost m.ln = false →
        ((∀ w ∈ x.wq, w.ln ≠ m.ln) → x.wq.length < 64 → Does i s fun t => wrote t ∧ (t.pcSt pc).wq = x.wq ++ [req]) ∧
        ((∀ w ∈ x.wq, w.ln ≠ m.ln) → 64 ≤ x.wq.length → exec i s = .next s) ∧
        ((∃ w ∈ x.wq, w.ln = m.ln) → Does i s fun t => wrote t ∧ (t.pcSt pc).wq.map (·.ln) = x.wq.map (·.ln)))) ∧
    (0x24 ≤ m.dst.toNat → m.dst.toNat < 0x2C →
      let frozen := s.rb (.pciArbCfg (Fin.ofNat 8 (m.dst.toNat - 0x24))) 8
      (frozen = true → exec i s = .next s) ∧
      (frozen = false → kd = .rdo → Does i s fun t => t.mem = s.mem ∧ t.lines = s.lines ∧ t.regs = s.regs ∧ t.msgs = s.msgs.erase (kd, m) ++
        [(.dro, { back with data := (s.memCopy m.ln).1, poison := (s.memCopy m.ln).2 })]) ∧
      (frozen = false → kd = .atf → (s.memCopy m.ln).2 = true → Does i s fun t => t.mem = s.mem ∧ t.lines = s.lines ∧
        t.msgs = s.msgs.erase (kd, m) ++ [(.err, { back with arg := BitVec.ofNat 64 stPoison })]) ∧
      (frozen = false → ¬ reads → s.cxlLost m.ln = false → Does i s fun t => t.msgs = s.msgs.erase (kd, m) ++ [(.cmp, back)] ∧
        t.memLine m.ln = lineMerge (s.memCopy m.ln).1 m.data mask))

/-- The scheduling of a pseudo-channel (R334–R337, R339, R341) and a refresh (R360). While its channel is re-centred or retrained nothing
is issued (R357, R359). -/
def Sys2Proof.Machine.HbmScheduleResults : Prop :=
  ∀ (s : State) (pc : PcId) (idx : Nat) (wr : Bool) (r : HbmReq) (bank : Fin 48),
    let x := s.pcSt pc
    let q := if wr then x.wq else x.rq
    let level := s.urgency pc r
    let port : Reg := .hbmPort (pcStack pc) (pcCtl pc) (Fin.ofNat 65 r.port)
    let row := unitRow (s.place (hbmAddr r.ln)).2
    let b := unitBank (s.place (hbmAddr r.ln)).2
    (q[idx]? = some r → r.level < level → Does (.urgencyEscalation pc idx wr) s fun t =>
      (if wr then (t.pcSt pc).wq else (t.pcSt pc).rq)[idx]? = some { r with level := level } ∧
      t.rf port 63 32 = if level = 3 then min 4294967295 (s.rf port 63 32 + 1) else s.rf port 63 32) ∧
    (q[idx]? = some r → level ≤ r.level → exec (.urgencyEscalation pc idx wr) s = .next s) ∧
    ((∀ e, e < 16 → s.rf (pcRemap pc e) 22 21 ≠ 1) → s.chHeld pc = false → (∀ w ∈ x.issued, w.ln ≠ r.ln) →
      (s.hbmMode pc x = false → x.wq = [] → x.rq = [r] → Does (.hbmSchedulePick pc) s fun t => (t.pcSt pc).rq = [] ∧
        (t.pcSt pc).issued = x.issued ++ [r] ∧ (t.pcSt pc).rows.get none b = some row ∧ (t.pcSt pc).wmode = false ∧ t.regs = s.regs ∧ t.mem = s.mem) ∧
      (s.hbmMode pc x = true → x.wq = [r] → Does (.hbmSchedulePick pc) s fun t => (t.pcSt pc).wq = [] ∧ (t.pcSt pc).rq = x.rq ∧
        (t.pcSt pc).issued = (if r.full then x.issued else x.issued ++ [r]) ∧ (t.pcSt pc).rows.get none b = some row ∧ (t.pcSt pc).wmode = true ∧
        t.mem = s.mem)) ∧
    (s.chHeld pc = true → exec (.hbmSchedulePick pc) s = .next (s.setPc pc { x with wmode := s.hbmMode pc x })) ∧
    (x.wmode = false → (s.hbmMode pc x = true ↔ s.rf (.hbmSchedCfg (pcStack pc) (pcCtl pc)) 21 16 ≤ x.wq.length ∨ ∃ w ∈ x.wq, 2 ≤ w.level)) ∧
    (Does (.refresh pc bank) s fun t => (t.pcSt pc).rows.get none bank.val = none ∧ t.mem = s.mem ∧ t.regs = s.regs)

/-- The code word of an issued access answers it: a read, a partial write, an atomic operation (R331, R340–R345). -/
def Sys2Proof.Machine.HbmReadResults : Prop :=
  ∀ (s s' : State) (pc : PcId) (ln v : Nat) (r : HbmReq) (raw : CodeWord) (d : Line) (poi : Bool),
    let x := s.pcSt pc
    let back : Msg := { r.msg with src := r.msg.dst, dst := r.msg.src, data := d, poison := poi, arg := 0 }
    let read := Instr.hbmReadData pc ln raw
    let took := s.setPc pc { x with issued := [] }
    let issued (kd : MsgKind) : Prop := ln < 186 * 2 ^ 24 ∧ x.issued = [r] ∧ r.ln = ln ∧ r.kind = kd ∧ s.fatal = false
    (issued .rdo →
      (decodeWord raw ln = .good d poi false → Does read s fun t => t.msgs = s.msgs ++ [(.dro, back)] ∧ (t.pcSt pc).issued = [] ∧
        t.mem = s.mem ∧ t.lines = s.lines ∧ t.regs = s.regs) ∧
      (decodeWord raw ln = .good d poi true → x.wq = [] → Does read s fun t => (.dro, back) ∈ t.msgs ∧ t.memLine ln = d ∧
        (t.line ln).mpois = poi ∧ t.rf (pcErr pc) 15 0 = min 65535 (s.rf (pcErr pc) 15 0 + 1)) ∧
      (decodeWord raw ln = .ue d → (∀ w ∈ x.wq, w.ln ≠ ln) → Does read s fun t =>
        (.dro, { back with poison := true }) ∈ t.msgs ∧ t.memLine ln = d ∧
        (t.line ln).mpois = true ∧ t.rf (pcErr pc) 39 32 = min 255 (s.rf (pcErr pc) 39 32 + 1))) ∧
    (issued .wrh → decodeWord raw ln = .good d poi false → Does read s fun t => (t.pcSt pc).issued = [] ∧
      t.memLine ln = lineMerge d r.msg.data r.msg.arg ∧ (t.line ln).mpois = (poi || r.msg.poison) ∧ t.msgs = s.msgs ∧ t.regs = s.regs) ∧
    (issued .atf → decodeWord raw ln = .good d true false → exec read s = .next (took.send .err
      { back with data := 0, poison := false, arg := BitVec.ofNat 64 stPoison })) ∧
    (issued .atf → decodeWord raw ln = .good d false false → took.atfRun r.msg = (s', some v) → s'.fatal = false → Does read s fun t =>
      t.msgs = s'.msgs ++ [(.atr, { back with data := BitVec.ofNat 512 v, poison := false })] ∧ t.mem = s'.mem ∧ t.lines = s'.lines) ∧
    (ln < 186 * 2 ^ 24 → x.issued = [] → decodeWord raw ln = .good d poi false → exec read s = .next s) ∧
    (186 * 2 ^ 24 ≤ ln → exec read s = .fault (.noSuchAddress (64 * ln)))

/-- The patrol scrub (R346), and what the PHY's temperature and margins start (R357–R359). -/
def Sys2Proof.Machine.HbmUpkeepResults : Prop :=
  ∀ (s : State) (pc : PcId) (raw : CodeWord) (d : Line) (poi low ok : Bool) (ch : ChId) (m : StackId) (temp t0 : Int) (u : Nat) (kq : Nat × Nat),
    let x := s.pcSt pc
    let cfg : Reg := .hbmRasCfg (pcStack pc) (pcCtl pc)
    let due := x.scrubAt + max 1 (s.rf cfg 31 8) ≤ s.tick
    let phy : Reg := .hbmPhyStatus (chStack ch)
    let st := s.stack (chStack ch).val
    let idle := st.train.get none ch.val = none
    let train : Tbl (Option Nat) := st.train.set none ch.val none
    let y := s.stack m.val
    (s.rb cfg 0 = false ∨ ¬ due → exec (.patrolScrub pc raw) s = .next s) ∧
    (s.rb cfg 0 = true → due → s.unitAt (pcStack pc).val (pc.val % 32) (x.scrub / 4) = some kq →
      decodeWord raw ((unitLines (pcStack pc).val kq.1 kq.2).getD (x.scrub % 4) 0) = .good d poi false → Does (.patrolScrub pc raw) s fun t =>
      (t.pcSt pc).scrub = (x.scrub + 1) % 12582912 ∧ (t.pcSt pc).scrubAt = s.tick ∧ t.mem = s.mem ∧ t.regs = s.regs) ∧
    (s.tick % 128000 = 1000 * ch.val → s.cycle < 1600 → s.recentres ch = true) ∧
    (1600 ≤ s.cycle → s.recentres ch = false) ∧
    (s.recentres ch = true → Does (.channelRecentre ch true) s fun t => t.rb phy 16 = true ∧ ch.val ∈ (t.stack (chStack ch).val).low) ∧
    (s.recentres ch = false ∨ low = false → exec (.channelRecentre ch low) s = .next s) ∧
    (ch.val ∈ st.low → idle → Does (.channelRetrain ch) s fun t => t.rb phy 17 = true ∧
      (t.stack (chStack ch).val).train.get none ch.val = some s.tick) ∧
    (ch.val ∉ st.low ∨ ¬ idle → exec (.channelRetrain ch) s = .next s) ∧
    (¬ idle → Does (.channelRetrainDone ch ok) s fun t => (t.stack (chStack ch).val).train = train ∧ t.rb phy 17 = !train.isEmpty ∧
      t.hbm.fails.get 0 ch.val = if ok then 0 else s.hbm.fails.get 0 ch.val + 1) ∧
    (idle → exec (.channelRetrainDone ch ok) s = .next s) ∧
    (y.readAt = some u → s.tick < u + 1000 → exec (.thermalRead m temp) s = .next s) ∧
    ((∀ u, y.readAt = some u → u + 1000 ≤ s.tick) → Does (.thermalRead m temp) s fun t => t.rf (.hbmPhyStatus m) 15 8 = (BitVec.ofInt 8 temp).toNat ∧
      (y.temp = some t0 → 4 ≤ (temp - t0).natAbs → t.stack m.val = { y with temp := some temp, thermAt := some s.tick, readAt := some s.tick }) ∧
      (y.temp = some t0 → (temp - t0).natAbs < 4 → t.stack m.val = { y with readAt := some s.tick }) ∧
      (y.temp = none → t.stack m.val = { y with temp := some temp, readAt := some s.tick }))

/-- What the memory controllers and CXL ports do with requests, and the upkeep of HBM3. -/
def Obligations.HbmServiceResults : Prop := MemoryArrivalResults ∧ HbmScheduleResults ∧ HbmReadResults ∧ HbmUpkeepResults

/-- Retirement and repair (R348–R355): a waiting pseudo-channel goes to the spare or, without it, into rescue, and a second rescue of the
stack stops the package; a migration moves unit by unit without losing the newest data, and ends with its final entry. -/
def Obligations.HbmRetirementResults : Prop :=
  ∀ (s : State) (m : StackId) (k : Nat) (rest : List Nat) (pc : PcId) (e : Fin 16),
    let x := s.stack m.val
    let mig : Reg := .hbmMig m
    let ptr := s.migPtr m.val
    let lns := unitLines m.val (s.rf mig 26 22) ptr
    let sh (k : Nat) : Reg := lpcReg (!(s.bank 2)) m.val k
    let k0 := s.rf mig 26 22
    (x.retire = [] → exec (.retirementBegin m) s = .next s) ∧
    (x.retire = k :: rest → k < 31 → x.staged = none → s.rb mig 27 = false → x.filling = 0 →
      (s.hasRescue m.val = true → Does (.retirementBegin m) s fun t => t.fatal = true ∧ t.cores = []) ∧
      (s.hasRescue m.val = false → s.gmapFree = true →
        (s.spareFree m.val = true → Does (.retirementBegin m) s fun t => (t.stack m.val).staged = some (k, 1, false) ∧ (t.stack m.val).retire = rest ∧
          t.rf (sh k) 6 5 = 1 ∧ (s.loading = false → t.rb .locSwapReq 2 = true) ∧ t.mem = s.mem) ∧
        (s.spareFree m.val = false → Does (.retirementBegin m) s fun t => (t.stack m.val).staged = some (k, 2, false) ∧ (t.stack m.val).retire = rest ∧
          t.rf (sh k) 6 5 = 2 ∧ t.hbm.withdrawn = true ∧ t.psc.layWait / 4 % 2 = 1))) ∧
    (s.rb mig 27 = true → ptr < 3145728 → (∀ ln ∈ lns, s.lineQuiet ln = true) → Does (.migrationUnitComplete m) s fun t => t.migPtr m.val = ptr + 1 ∧
      ∀ ln ∈ lns, (∀ y ∈ s.lines, y.1 ≠ ln) → t.line ln = s.line ln ∧ t.memLine ln = s.memLine ln) ∧
    (s.rb mig 27 = true → ptr < 3145728 → (∀ ln ∈ lns, s.lineQuiet ln = true ∧ (s.line ln).mb = none) → Does (.migrationUnitComplete m) s fun t =>
      ∀ ln ∈ lns, (∃ y ∈ s.lines, y.1 = ln) → ∀ v, s.gmapDa (s.bank 2) (ln / 2 ^ 24) = some v →
        t.memLine ln = (s.newest ln (Fin.ofNat 16 (fld v 7 4))).1 ∧ (t.line ln).dir = none ∧ (t.line ln).l3 = none ∧ (t.line ln).mb = none) ∧
    (s.rb mig 27 = true → 3145728 ≤ ptr → x.staged = none → s.gmapFree = true → k0 < 31 →
      (s.lpcMode m.val k0 = 1 → Does (.migrationComplete m) s fun t => (t.stack m.val).staged = some (k0, 1, true) ∧
        t.rf (sh k0) 4 0 = s.sparePhys m.val ∧ t.rf (sh k0) 6 5 = 0 ∧ t.rb (sh 31) 5 = true) ∧
      (s.lpcMode m.val k0 = 2 → Does (.migrationComplete m) s fun t => (t.stack m.val).staged = some (k0, 2, true) ∧ t.rf (sh k0) 6 5 = 3)) ∧
    (s.rb mig 27 = false → exec (.migrationUnitComplete m) s = .next s ∧ exec (.migrationComplete m) s = .next s) ∧
    (s.rb (pcRemap pc e.val) 0 = true → s.rf (pcRemap pc e.val) 22 21 = 1 →
      (Does (.hpprComplete pc e true) s fun t => t.rg (pcRemap pc e.val) = 0 ∧ t.rf (pcErr pc) 44 40 = s.rf (pcErr pc) 44 40 - 1) ∧
      (Does (.hpprComplete pc e false) s fun t => t.rf (pcRemap pc e.val) 22 21 = 2 ∧ t.rb (pcRemap pc e.val) 0 = true))

/-! ## The package tick (R20–R43) -/

/-- The reference is lost, a swap is requested, captured and announced (R22, R24, R31, R33, R40, R43, R298). The order of the captured
set and the adjust in the marker, and that a slew steps by −1, are read from R33 and R40. -/
def Sys2Proof.Machine.ReferenceAndMarkerResults : Prop :=
  ∀ (s : State) (cls set : BitVec 4) (adj : Option (Int × Option Nat)) (n : Nat),
    let free := s.rb .locTickStatus 1
    let stops (t : State) : Prop := t.rb .locTickStatus 1 = true ∧ t.fatal = true ∧ t.cores = [] ∧ t.mem = s.mem ∧ t.lines = s.lines ∧
      (s.rf .locFatalCause 15 0 = 0 → t.rf .locFatalCause 15 0 = 0x10)
    let req := s.rf .locSwapReq 3 0
    let held := if req / 2 % 2 = 1 ∧ s.routeInflight = true then 0 else req
    let step : Int := match adj with
      | some (a, _) => if 0 ≤ a then a else -1
      | none => if s.psc.slew = 0 then 0 else -1
    Does .referenceAbsent s (fun t => (free = true → t = s) ∧
      (free = false → stops t ∧ t.rb .locTickStatus 0 = false ∧ t.rb .locTickStatus 2 = true ∧ t.rf .locTickStatus 31 16 = 0x8000)) ∧
    Does .refWindowTimeout s (fun t => (16 ≤ s.refBad → free = false → stops t) ∧ (s.refBad < 16 ∨ free = true → t = s)) ∧
    Does (.swapRequest cls) s (fun t => Quiet s t ∧
      (s.loading = false ∨ cls.toNat % 8 = 0 → t.rf .locSwapReq 3 0 = req ||| cls.toNat ∧ t.psc.swapWait = s.psc.swapWait) ∧
      (s.loading = true → cls.toNat % 8 ≠ 0 → t.rf .locSwapReq 3 0 = req ∧ t.psc.swapWait = s.psc.swapWait ||| cls.toNat)) ∧
    Does (.swapCutoff n) s (fun t => Quiet s t ∧ (1792 ≤ s.cycle → t = s) ∧
      (s.cycle < 1792 → s.psc.layWait = 0 → t.psc.captured = some (BitVec.ofNat 4 held, s.psc.adjusts.head?) ∧
        t.psc.adjusts = s.psc.adjusts.drop 1 ∧ (∀ p : Pid, t.psc.deferred.get 0 p.val = s.ringOwed p) ∧ t.cycle = 1792 ∧
        ((∃ p, s.ringOwed p ≠ 0) → t.rb .locTickOvr 0 = true))) ∧
    (s.psc.captured = some (set, adj) →
      let m : Marker := { tick := (s.tick + 1) % 2 ^ 48, swap := set, adj := step }
      Does .tickMarkerEmit s fun t => Quiet s t ∧ t.cycle = max s.cycle 1800 ∧ t.marker = some m ∧ t.psc = s.psc ∧
        t.msgs = s.msgs ++ (List.range 12).map (fun p => (MsgKind.markMsg, { markerMsg m with trk := BitVec.ofNat 8 p })) ∧
        ∀ f st, s.stState f st = 7 → (t.strand f st).markTx = some m ∧ (t.strand f st).echoTx = (s.facet f).runs) ∧
    (s.psc.captured = none → exec .tickMarkerEmit s = .next s)

/-- The boundary: the tick number advances by one, and the captured classes and the adjust take effect with it (R23, R33, R40). No reset
and no resize waits for it. -/
def Obligations.TickBoundaryEffect : Prop :=
  ∀ (s : State) (ppm : Option Int) (set : BitVec 4) (adj : Option (Int × Option Nat)), s.psc.resets = [] → s.psc.resizes = [] →
    s.psc.captured = some (set, adj) →
    let good := match ppm with | some p => decide (-300 ≤ p ∧ p ≤ 300) | none => false
    let d : Int := match adj with
      | some (a, _) => if 0 ≤ a then a else -1
      | none => if s.psc.slew = 0 then 0 else -1
    let slew := match adj with
      | some (a, _) => if 0 ≤ a then 0 else a.natAbs - 1
      | none => s.psc.slew - 1
    Does (.tickBoundary ppm) s fun t =>
      t.tick = (s.tick + 1) % 2 ^ 64 ∧ t.cycle = 0 ∧ t.marker = none ∧ t.psc.captured = none ∧ t.psc.slew = slew ∧
      t.rg .locTimeOfs = BitVec.ofInt 64 ((s.rg .locTimeOfs).toInt + d) ∧
      t.rf .locSwapReq 15 12 = s.rf .locSwapReq 15 12 ^^^ set.toNat ∧
      (set ≠ 0 → t.rf .locSwapReq 11 8 = set.toNat ∧ t.rg .locSwapTick = BitVec.ofNat 64 (s.tick + 1)) ∧
      t.rb .locTickStatus 0 = good ∧ t.refBad = (if good then 0 else s.refBad + 1) ∧
      t.latch.regs = t.regs ∧ t.latch.routers = t.net.routers ∧ t.latch.landing = t.net.landing ∧ t.latch.tokens = t.net.tokens

/-- A Facet's own boundary, and how it is brought back into step (R25, R27, R29, R35, R42, R43). -/
def Sys2Proof.Machine.FacetTimingResults : Prop :=
  ∀ (s : State) (f : FacetId) (m : Marker) (u : Nat),
    let x := s.facet f
    let st : Reg := .fctTickStatus f
    let others (t : State) : Prop := Quiet s t ∧ ∀ g, g ≠ f → t.facet g = s.facet g
    let leaves (t : State) : Prop := others t ∧ t.facet f = Facet.empty ∧ t.rb st 0 = false ∧ t.upStrands f = []
    let back := s.inResync f
    (x.inReset = true ∨ x.runs = false ∨ s.boundaryEarly f = true → exec (.facetLocalBoundary f) s = .next s) ∧
    (s.boundaryEarly f = true ↔ s.rb st 0 = true ∧ x.tick = s.tick % 2 ^ 48 ∧ s.cycle < 1992) ∧
    (x.inReset = false → x.runs = true → s.boundaryEarly f = false →
      (x.held = some m → Does (.facetLocalBoundary f) s fun t => others t ∧ (t.facet f).tick = m.tick ∧ (t.facet f).held = none ∧
        (t.facet f).active = x.active ^^^ m.swap ∧ (t.facet f).ofs = x.ofs + m.adj ∧ (t.facet f).late = false) ∧
      (x.held = none → Does (.facetLocalBoundary f) s fun t => others t ∧ (t.facet f).tick = (x.tick + 1) % 2 ^ 48 ∧
        (t.facet f).late = true ∧ (t.facet f).active = x.active ∧ (t.facet f).ofs = x.ofs ∧ t.rb st 3 = true ∧ t.rb st 5 = true)) ∧
    (back = true → Does (.resyncStart f) s fun t => others t ∧ t.rg st = st.reset ∧
      t.facet f = { Facet.empty with inReset := false, startAt := some s.tick } ∧ t.chord.lost = s.chord.lost.erase f.val) ∧
    (back = false → exec (.resyncStart f) s = .next s ∧ exec (.facetPllLockTimeout f) s = .next s ∧
      exec (.resyncLockTimeout f) s = .next s ∧ exec (.resyncTableLoad f) s = .next s) ∧
    (back = true → x.inReset = false → x.startAt = some u → x.trainAt = none →
      Does (.facetPllLockTimeout f) s fun t => (u + 20 < s.tick → leaves t) ∧ (s.tick ≤ u + 20 → t = s)) ∧
    (back = true → x.trainAt = some u → s.rb st 0 = false →
      Does (.resyncLockTimeout f) s fun t => (u + 64 < s.tick → leaves t) ∧ (s.tick ≤ u + 64 → t = s)) ∧
    (back = true → s.rb st 0 = true → Does (.resyncTableLoad f) s fun t => others t ∧ (t.facet f).loaded = true ∧
      (t.facet f).active = BitVec.ofNat 4 (s.rf .locSwapReq 15 12) ∧ (t.facet f).tick = x.tick)

/-- The reference, the markers, and the local boundary of a Facet. -/
def Obligations.ReferenceAndFacetResults : Prop := ReferenceAndMarkerResults ∧ FacetTimingResults

/-! ## The package register space (R1–R5, R15–R18) -/

/-- Every register is read and written at its own address and at no other, with its own width, naturally aligned (R2, R15). -/
def Obligations.RegisterAddressRoundTrip : Prop :=
  (∀ r : Reg, Reg.ofAddr r.addr = some r ∧ regAt r.addr (r.width / 8) = some r ∧ r.addr % (r.width / 8) = 0) ∧
  (∀ (a : Nat) (r : Reg), Reg.ofAddr a = some r → a = r.addr) ∧
  (∀ (a size : Nat) (r : Reg), regAt a size = some r → size = r.width / 8 ∧ a = r.addr)

/-- Who reaches a register and what a write does there (R2, R4, R15, R17, R501): the PSC everywhere, the test access while the life cycle
permits it, a core in its own instances; a foreign access, and a write to what is read only, is counted, a malformed one is recorded, and
nothing is written. -/
def Sys2Proof.Machine.RegisterAccessResults : Prop :=
  ∀ (s : State) (k : CoreId) (r : Reg) (v : Word) (addr size : Nat) (i : Nat) (old : Word) (lock : Bool),
    let p := s.pidOf k
    let w := coreWorld (s.core k)
    let n := r.width / 8
    let core := Agent.core k
    let puts (i : Instr) (w : World) : Prop := exec i s = .next (s.regPut w r v)
    puts (.registerWrite .psc r.addr n v) .inner ∧
    (s.prsOpen = true → puts (.registerWrite .tap r.addr n v) .inner ∧ puts (.prsAccess r.addr n true v) .inner ∧
      Does (.prsAccess r.addr n false v) s fun t => t.reply = natBytes (s.regValue .inner r).1 n) ∧
    (s.prsOpen = false → exec (.registerWrite .tap addr size v) s = .next s ∧ exec (.prsAccess addr size true v) s = .next s ∧
      exec (.prsAccess addr size false v) s = .next s) ∧
    (s.reach p r.addr = .own → puts (.registerWrite core r.addr n v) w) ∧
    (s.reach p addr = .foreign ∨ (s.reach p addr = .readOnly ∧ regAt addr size ≠ none) → Does (.registerWrite core addr size v) s fun t =>
      t.regs = s.regs ∧ Quiet s t ∧ t.coal = coalAdd 0x8002 p 0xFF (winPage addr) s.coal) ∧
    (s.reach p addr ≠ .foreign → regAt addr size = none → Does (.registerWrite core addr size v) s fun t => Quiet s t ∧
      t = s.bb 0x8001 (some p) 0xFF (winPage addr)) ∧
    (∀ (m : Fin 8) (c : Fin 16) (j : Fin 65), r = .hbmPort m c j → ∀ r', (s.regPut .inner r v).rg r' = if r' = r then regWritten r false (s.rg r) v else s.rg r') ∧
    (∀ g : Fin 36, r = .cluOwner g → (s.regPut .inner r v).rg r = regWritten r false (s.rg r) v) ∧
    ((regWritten r lock old v).getLsbD i =
      if v.getLsbD i = true ∧ r.maskW1c.getLsbD i = true then false
      else if r.maskRw.getLsbD i = true ∨ (lock = false ∧ r.maskRwl.getLsbD i = true) then v.getLsbD i
      else if v.getLsbD i = true ∧ r.maskW1s.getLsbD i = true then true else old.getLsbD i)

/-- The writes with a rule of their own: the granule map (R35, R48), the debug enables (R66), and the device regions with their lock (R4,
R214). -/
def Sys2Proof.Machine.GuardedWriteResults : Prop :=
  ∀ (s : State) (p : Pid) (w : World) (i : Fin 64) (hi bank : Bool) (idx : Fin 4096) (v : Word),
    let map := gmapReg bank idx
    let dbg : Reg := .pscDbgCtl p
    let ctl : Reg := .drtCtl p
    let lo : Reg := .drtRegionLo p i
    let top : Reg := .drtRegionHi p i
    let lock := s.rb ctl 0
    let lo1 := if hi then s.rg lo else regWritten lo lock (s.rg lo) v
    let hi1 := if hi then regWritten top lock (s.rg top) v else s.rg top
    let barred := (w = .outer ∧ (s.rb lo 1 = true ∨ bit lo1 1 = true)) ∨ drtFits lo1 hi1 = false
    Does (.gmapEntryWrite bank idx v) s (fun t => Quiet s t ∧
      (s.bankLocked 2 bank = true → t.rg map = s.rg map ∧ t.rb .gmapStatus 1 = true ∧ t.rf .gmapStatus 27 16 = idx.val ∧ t.rb .locSwapReq 4 = true) ∧
      (s.bankLocked 2 bank = false → s.gmapBad bank idx.val v = true → t.rg map = s.rg map ∧ t.rb .gmapStatus 0 = true ∧ t.rf .gmapStatus 27 16 = idx.val) ∧
      (s.bankLocked 2 bank = false → s.gmapBad bank idx.val v = false → t.rg map = regWritten map false (s.rg map) v)) ∧
    Does (.dbgCtlWrite p w v) s (fun t => Quiet s t ∧ t.rf dbg 3 2 = fld v 3 2 ∧ t.rf dbg 1 0 = s.rf dbg 1 0 ∧
      (w = .outer → t.rf dbg 6 4 = s.rf dbg 6 4) ∧
      (w = .inner → t.rf dbg 5 4 = (if s.rb dbg 6 then s.rf dbg 5 4 else fld v 5 4) ∧ t.rb dbg 6 = (s.rb dbg 6 || bit v 6))) ∧
    Does (.drtRegionWrite p w i hi v) s (fun t => Quiet s t ∧
      (barred → t.rg lo = s.rg lo ∧ t.rg top = s.rg top ∧ t.rb ctl 4 = true) ∧
      (¬ barred → t.rg lo = lo1 ∧ t.rg top = hi1 ∧ t.rg ctl = s.rg ctl)) ∧
    Does (.drtLock p) s (fun t => Quiet s t ∧ t.rb ctl 0 = true ∧ ∀ r, r ≠ ctl → t.rg r = s.rg r)

/-- Writes to the package register space, and those with a rule of their own. -/
def Obligations.RegisterWriteResults : Prop := RegisterAccessResults ∧ GuardedWriteResults

/-! ## The owner ring's turn (R405–R408, R417) -/

/-- The owner ring's next descriptor is `j`, well formed and without FENCE, and asks for opcode `op` (R405, R408, R417). -/
def Sys2Proof.Machine.OwnerTurn (s : State) (j : Job) (op : Nat) : Prop :=
  s.fatal = false ∧ (s.ringJobs .owner).find? (fun x => x.phase == 0) = some j ∧ j.opcode = op ∧ j.fence = false ∧ j.reserved = none ∧
  j.lenBad = false

/-- A descriptor of the owner ring ends with a status, its two results and its inline data: the BMC is told, and it is no longer in hand
(R400, R406, R417). -/
def Sys2Proof.Machine.OwnerGets (s t : State) (j : Job) (status r0 r1 : Nat) (data : List Byte) : Prop :=
  let c : Compl := { tick := s.tick, tag := j.tag, status := status, opcode := j.opcode, idx := 0, r0 := r0, r1 := r1, len := data.length,
                     noirq := j.noirq, data := data }
  t.psc.ownerOut = s.psc.ownerOut ++ [c] ∧ (∀ x ∈ t.psc.jobs, x.id ≠ j.id) ∧ t.ibi = s.ibi + 1

/-- The ARG words of a descriptor from the `n`-th on are zero. -/
def Sys2Proof.Machine.Job.restZero (j : Job) (n : Nat) : Prop := ∀ i, n ≤ i → i < 5 → j.arg i = 0

/-! ## Partitions (R43–R61, R414, R415, R497, R498) -/

/-- RESIZE and WIPE from the owner: what is refused at once, and that an accepted one is kept with the resources it releases, its
partitions' state read from where they are (R55, R56, R61, R408). -/
def Obligations.ResizeAcceptance : Prop :=
  ∀ (s : State) (j : Job) (dir : List (Nat × Nat)) (o st r0 : Nat) (r : LayRec),
    let gets (i : Instr) (st r0 : Nat) : Prop := Does i s fun t => Quiet s t ∧ t.regs = s.regs ∧ t.psc.resizes = s.psc.resizes ∧ OwnerGets s t j st r0 0 []
    (OwnerTurn s j 0x06 → j.arg 0 &&& ~~~ 1#64 = 0 → j.restZero 1 →
      (layParse j.data = .inl o → gets (.resize .owner dir) 0x02 (2 ^ 63 + o)) ∧
      (layParse j.data = .inr r → s.resizeRefuse r dir = some (st, r0) → gets (.resize .owner dir) st r0) ∧
      (layParse j.data = .inr r → s.resizeRefuse r dir = none → s.getResize j.id = none → (s.changed r).any (fun p => s.resetting p) = true →
        Does (.resize .owner dir) s fun t => Quiet s t ∧ t.regs = s.regs ∧ t.psc.ownerOut = s.psc.ownerOut ∧
          ∃ z, t.psc.resizes = s.psc.resizes ++ [z] ∧ z.id = j.id ∧ z.phase = 0 ∧ z.wipe = false ∧ z.pids.map (·.1) = s.changed r ∧
            z.clusters = s.releasedClus r ∧ z.persist = bit (j.arg 0) 0 ∧ z.layouts = (s.changed r).map fun p => (p, s.layoutAfter r p))) ∧
    (OwnerTurn s j 0x07 → s.wipeBad j = none →
      (s.resizing (fld (j.arg 0) 3 0) = true → gets (.wipe .owner) 0x06 0) ∧
      (s.resizing (fld (j.arg 0) 3 0) = false → s.getResize j.id = none → s.resetting (fld (j.arg 0) 3 0) = true →
        Does (.wipe .owner) s fun t => Quiet s t ∧ t.regs = s.regs ∧ t.psc.ownerOut = s.psc.ownerOut ∧
          ∃ z, t.psc.resizes = s.psc.resizes ++ [z] ∧ z.id = j.id ∧ z.phase = 0 ∧ z.wipe = true ∧ z.clusters = [] ∧ z.ports = [] ∧
            (∀ x ∈ z.grans, x.1 = fld (j.arg 0) 3 0 ∧ x.2.2 ∈ j.wipeRun)))

/-- How a RESIZE goes on: it ends BUSY at its deadline before acceptance; once no request of a source is open the slices walk; the walk and
the wipe clear every copy and every byte of the released granules (R45, R55, R56, R59, R361). A partition that is being built gets its
image, its measurement and its release (R60, R497, R500). -/
def Obligations.ResizeSequenceResults : Prop :=
  ∀ (s : State) (id : Nat) (r : Resize) (j : Job) (p : Pid) (image : List Byte) (n ppa : Nat),
    let gone (x : Nat) : Prop := r.grans.any (fun g => g.2.2 == x) = true
    (s.getResize id = some r →
      (r.phase = 0 → s.psc.jobs.find? (fun x => x.id == id) = some j → j.ring = .owner → j.id = id → j.armed + j.wait 1000000 < s.tick →
        Does (.resizeKs3Deadline id) s fun t => Quiet s t ∧ t.regs = s.regs ∧ OwnerGets s t j 0x06 0 0 [] ∧ t.getResize id = none) ∧
      (r.phase = 3 → r.id = id → Does (.resizeTrackersIdle id) s fun t => Quiet s t ∧ t.regs = s.regs ∧
        t.getResize id = some { r with phase := if s.openOn r then 3 else 4 }) ∧
      (r.phase = 4 → r.id = id → r.grans ≠ [] → s.noneDeferred → Does (.resizeWalkComplete id) s fun t =>
        t.getResize id = some { r with phase := 5 } ∧
        ∀ ln, gone (ln / 2 ^ 24) → (∀ g, t.copy ln g = none) ∧ (t.line ln).dir = none ∧ (t.line ln).l3 = none ∧ (t.line ln).mb = none ∧ (t.line ln).tr = none) ∧
      (r.phase = 5 → r.id = id → s.gmapFree = false → Does (.granuleWipeComplete id) s fun t =>
        t.getResize id = some { r with phase := 6 } ∧ t.regs = s.regs ∧
        (∀ da, gone (da / 2 ^ 30) → t.rdByte da = 0) ∧ (∀ da, ¬ gone (da / 2 ^ 30) → t.rdByte da = s.rdByte da) ∧
        (∀ ln, gone (ln / 2 ^ 24) → t.line ln = LineSt.empty) ∧ (∀ ln, ¬ gone (ln / 2 ^ 24) → t.line ln = s.line ln))) ∧
    (s.partState p = 1 → s.resizing p.val = false → s.resetting p.val = false → p.val ∉ s.psc.onHold → s.fatal = false → s.existsPart p.val = true →
      (s.layout p.val).boot = some (n, ppa) → Does (.partitionBootLoad p image) s fun t =>
        t.mem = (s.loadImage p ppa image).mem ∧ t.lines = (s.loadImage p ppa image).lines ∧
        t.psc.measured.get 0 p.val = sha384 image ∧ p.val ∈ t.psc.release ∧
        t.rb (.pscStartCtl p) 0 = decide ((s.layout p.val).wm ≠ 0) ∧ t.rf (.pscStartCtl p) 47 1 = ppa % 2 ^ 48 / 2) ∧
    (s.partState p ≠ 1 → exec (.partitionBootLoad p image) s = .next s)

/-! ## The encoding of instructions (R81, R85–R98) -/

/-- Decode and encode agree: a word that is assigned is the word of the instruction it stands for, and the word of an instruction decodes to
it, with a halfword alone deciding a short form; 0x0000 and 0xFFFF_FFFF are not assigned (R81, R82, R85–R95, R97, R98). -/
def Obligations.InstructionEncodingRoundTrip : Prop :=
  (∀ (k : CoreId) (w : Nat) (i : Instr), w < 2 ^ 32 → kosalDecode k w = some i → kosalWord i = some (kosalLen w, w % 2 ^ (8 * kosalLen w))) ∧
  (∀ (i : Instr) (n w : Nat), kosalWord i = some (n, w) → w < 2 ^ (8 * n) ∧ kosalLen w = n ∧
    ∃ k, kosalDecode k w = some i ∧ (n = 2 → ∀ hi, kosalDecode k (w + 2 ^ 16 * hi) = some i)) ∧
  (∀ (k : CoreId) (hi : Nat), kosalDecode k (2 ^ 16 * hi) = none ∧ kosalDecode k 0xFFFFFFFF = none)

/-! ## Input and output (R363–R391) -/

/-- The state in which a root complex resolves a port's only request, once its arbiter has chosen the port (R292, R366, R370). -/
def Sys2Proof.Machine.State.portServes (s : State) (port : PortId) (p : Pid) (h : UpReq ⊕ Nat) : State :=
  let rc := portRc port
  let pick := (s.net.pciArb.get Arb.empty rc.val).pick (s.rf (.pciArbCfg rc) 7 0) [(port.val % 4, s.rcClass rc p)]
  { s.setPortSt port { s.portSt port with held := [h] } with net := { s.net with pciArb := s.net.pciArb.set Arb.empty rc.val (pick.elim Arb.empty (·.2)) } }

/-- An upstream request of a device (R292, R294, R365, R366, R369–R374, R379, R391): the root complex takes it at its turn, it is translated and goes
to the home of its line, or is refused with a fault record, or waits for a table's line; an MSI raises its interrupt once the port's earlier
writes are performed. The completion status codes are PCIe's (PRESUMED, log entry 35). -/
def Obligations.UpstreamRequestResults : Prop :=
  ∀ (s s1 : State) (port : PortId) (p : Pid) (q : UpReq) (inner : Bool) (w0 : Word) (l : Leaves) (da addr size : Nat) (data : BitVec 32)
    (f : IotFault), s.portTakes port = true → s.portOwner port = some p →
    let x := s.portSt port
    let rc := portRc port
    let rq := Instr.upstreamMemoryRequest port q
    let msi := Instr.msiWrite port addr size data
    let route : Reg := .irdRoute p (Fin.ofNat 2048 data.toNat)
    let n := s.rf route 7 0
    let frozen := s.rb (.pciArbCfg rc) 8
    let sa := s.portServes port p (.inl q)
    let memory := ¬ (inMsiPage q.addr = true ∧ q.translated = false)
    (memory → frozen = true → exec rq s = .next (s.setPortSt port { x with held := x.held ++ [.inl q] })) ∧
    ((∀ i, i < 4 → (s.portSt (Fin.ofNat 32 (4 * rc.val + i))).held = []) → frozen = false →
      (memory → (q.ro = true ∨ x.posted = []) → s.rcFlying rc true < 512 → s.rcFlying rc false < 512 →
        (upUnsupported q = true → Does rq s fun t => t.reply = [1] ∧ t.msgs = s.msgs ∧ (t.portSt port).held = [] ∧ t.mem = s.mem ∧ t.lines = s.lines) ∧
        (upUnsupported q = false →
          (iotResolve p port q sa = .ok (.inr (inner, w0, l)) s1 → q.kind ≠ .translate → inMmio l.ppa = false →
            s1.pscDa p inner l.ppa = .inl da → s1.fatal = false → 0 < q.size → da % 64 + q.size ≤ 64 →
            (∀ e, q.kind = .read e → Does rq s fun t => t.msgs = s1.msgs ++ [(.rdo, rcMsg port p inner (da / 64))] ∧
              t.portSt port = { x with reads := x.reads ++ [[{ ln := da / 64, off := da % 64, len := q.size, got := none }]] } ∧
              t.mem = s1.mem ∧ t.lines = s1.lines) ∧
            (q.kind = .write → Does rq s fun t => t.portSt port = { x with posted := x.posted ++ [[da / 64]] } ∧
              t.mem = s1.mem ∧ t.lines = s1.lines ∧
              t.msgs = s1.msgs ++ [(.wrh, { rcMsg port p inner (da / 64) with
                data := linePut 0 (da % 64) q.size (bytesNat (q.data.take q.size)), arg := byteMask (da % 64) q.size, poison := q.ep })])) ∧
          (iotResolve p port q sa = .ok (.inl f) s1 → Does rq s fun t =>
            (q.kind ≠ .write → t.reply = [1]) ∧ ((s1.iot p).faults.length < 16 → (t.iot p).faults.length = (s1.iot p).faults.length + 1) ∧
            (t.portSt port).held = [] ∧ t.mem = s1.mem ∧ t.lines = s1.lines) ∧
          (iotResolve p port q sa = .wait s1 → exec rq s = .next s1 ∧ (s1.portSt port).held = [.inl q]))) ∧
      (inMsiPage addr = true → addr = 0x7FF00000 → size = 4 → data.toNat < 2 ^ 11 → 16 ≤ data.toNat →
        (x.posted ≠ [] → Does (msi false) s fun t => Quiet s t ∧ t.msgs = s.msgs ∧ (t.portSt port).held = [.inr data.toNat]) ∧
        (x.posted = [] → Does (msi false) s fun t => Quiet s t ∧ (t.portSt port).held = [] ∧
          (s.rb route 9 = false ∨ s.partState p = 5 → t.rb route 10 = true ∧ t.msgs = s.msgs) ∧
          (s.rb route 9 = true → s.partState p ≠ 5 → n < 216 → s.ownsCore p (Fin.ofNat 216 n) = true →
            t.msgs = (s.deliver p data.toNat (s.rb route 8) (Fin.ofNat 216 n)).msgs)))) ∧
    (inMsiPage addr = true →
      Does (msi true) s (fun t => Quiet s t ∧ t.reply = [1] ∧ t.msgs = s.msgs ∧ t.regs = s.regs) ∧
      (addr ≠ 0x7FF00000 ∨ size ≠ 4 ∨ 2 ^ 11 ≤ data.toNat ∨ data.toNat < 16 → Does (msi false) s fun t => Quiet s t ∧ t.msgs = s.msgs ∧ t.rg route = s.rg route))

/-- The commands of an I/O translation unit (R375, R380–R382): roots, what each scope removes, and the ends of an invalidation; reading a
fault takes it off. -/
def Obligations.TranslationUnitResults : Prop :=
  ∀ (s : State) (p : Pid) (w : World) (root : Bool) (v : Word) (rid : BitVec 16) (cmd : IotInv) (e : IotEnt) (f : Word × Word) (fs : List (Word × Word)),
    let x := s.iot p
    let st : Reg := .iotInvStatus p
    let a := s.rg (.iotInvAddr p)
    let n := 2 ^ fld v 49 44
    let base := fld a 56 12 / n * n
    let hits (at_ k : Nat) : Prop := at_ < base + n ∧ base < at_ + k
    let same := e.rid = fld v 23 8
    let pas := e.kind ≠ 0 ∧ e.pasid = fld v 43 24
    let space := e.s2id = some (fld v 57 50)
    let ends (t : State) : Prop := Quiet s t ∧ t.rb st 0 = false ∧ t.rb st 1 = true ∧ (t.iot p).inv = none
    let inv (c : Instr) (scope : Nat) (goes : Prop) : Prop := fld v 2 0 = scope →
      (w = .outer → bit v 4 = true → Does c s fun t => Quiet s t ∧ t.rg st = s.rg st ∧ t.iots = s.iots) ∧
      (¬ (w = .outer ∧ bit v 4 = true) →
        (s.rb st 0 = true → Does c s fun t => Quiet s t ∧ t.rb st 3 = true ∧ t.iots = s.iots) ∧
        (s.rb st 0 = false → Does c s fun t => Quiet s t ∧ t.rb st 0 = true ∧
          (e ∈ (t.iot p).cache ↔ e ∈ x.cache ∧ ¬ (e.inner = bit v 4 ∧ goes)) ∧
          (t.iot p).inv = some { cmd := v, armed := s.tick, ats := bit v 3, waits := s.upFlying p }))
    let rootReg := iotRoot p root
    Does (.iotRootWrite p w root v) s (fun t => Quiet s t ∧
      (root = true → w = .outer → t.rg rootReg = s.rg rootReg) ∧
      (¬ (root = true ∧ w = .outer) → t.rg rootReg = regWritten rootReg false (s.rg rootReg) v)) ∧
    inv (.iotInvAll p w v) 0 True ∧ inv (.iotInvRid p w v) 1 same ∧ inv (.iotInvRidPasid p w v) 2 (same ∧ pas) ∧
    inv (.iotInvRidPages p w v) 3 (same ∧ pas ∧ ∃ t, e.xl = some t ∧ hits t.base t.pages) ∧ inv (.iotInvS2id p w v) 4 space ∧
    inv (.iotInvS2idPages p w v) 5 (space ∧ hits e.ipa (match e.xl with | some t => t.pages | none => 1)) ∧
    (x.inv = some cmd →
      ((∃ y ∈ cmd.waits, y ∈ s.upFlying p) → exec (.iotInvDone p) s = .next s) ∧
      ((∀ y ∈ cmd.waits, y ∉ s.upFlying p) → Does (.iotInvDone p) s fun t => ends t ∧ (t.iot p).cache = x.cache) ∧
      (cmd.ats = true → cmd.armed + 1000000 < s.tick → Does (.atsInvTimeout p rid) s fun t => t.mem = s.mem ∧ t.lines = s.lines ∧
        t.rb st 0 = false ∧ t.rb st 1 = true ∧ t.rb st 2 = true ∧ (t.iot p).inv = none ∧ rid.toNat ∈ (t.iot p).blocked ∧ ∀ y ∈ (t.iot p).cache, y.rid ≠ rid.toNat) ∧
      (cmd.ats = false ∨ s.tick ≤ cmd.armed + 1000000 → exec (.atsInvTimeout p rid) s = .next s)) ∧
    (x.faults = f :: fs → Does (.iotFaultPop p) s fun t => Quiet s t ∧ (t.iot p).faults = fs ∧ (t.iot p).ovf = false ∧
      t.reply = natBytes (s.rg (.iotFaultHi p)).toNat 8 ∧
      (fs = [] → t.rg (.iotFaultLo p) = 0 ∧ t.rg (.iotFaultHi p) = 0) ∧
      ∀ g gs, fs = g :: gs → t.rg (.iotFaultHi p) = g.2 ∧ t.rb (.iotFaultLo p) 63 = true ∧ t.rb (.iotFaultLo p) 62 = false)

/-- The root ports (R386–R388, R408, R466, R485): training, quiesce, containment, a wake event, and the loss of a CXL device. -/
def Obligations.RootPortResults : Prop :=
  ∀ (s : State) (port : PortId) (rc : Fin 8) (w sp : Nat) (flit : Bool),
    let x := s.portSt port
    let st := s.portState port
    let reg := portStatusReg port
    let contained (t : State) (o : PortId) : Prop := t.portState o = 4 ∧ (t.portSt o).reads = [] ∧ (t.portSt o).step = 0
    (s.hasPort port = true → 1 ≤ st → st ≤ 3 → Does (.portContainment port) s fun t => contained t port ∧ ∀ y ∈ t.devs, y.port ≠ some port.val) ∧
    (s.hasPort port = false ∨ st = 0 ∨ 4 ≤ st → exec (.portContainment port) s = .next s) ∧
    (port.val / 4 = rc.val → s.hasPort port = true → 1 ≤ st → st ≤ 3 → Does (.pcieRefclkFault rc) s fun t => contained t port) ∧
    (st = 4 → s.portOwner port ≠ none → Does (.dpcRelease port) s fun t => Quiet s t ∧ t.portState port = 1 ∧ t.portSt port = x) ∧
    (st = 1 → x.job = none → w < 16 → Does (.portLinkUp port w sp flit) s fun t => Quiet s t ∧ t.portState port = 2 ∧ t.rf reg 6 3 = w ∧
      t.rf reg 9 7 = (if x.ceil = 0 then sp else min sp x.ceil) % 8 ∧ t.rb reg 10 = flit) ∧
    (st ≠ 1 → exec (.portLinkUp port w sp flit) s = .next s) ∧
    (x.step = 1 → (∀ y ∈ s.devs, y.port ≠ some port.val) → Does (.portQuiesceWaitEnd port) s fun t => Quiet s t ∧
      (t.portSt port).step = 2 ∧ (t.portSt port).since = s.tick ∧ (t.portSt port).reads = [] ∧ ∀ q e, e ∈ (t.iot q).cache → e.port ≠ port.val) ∧
    (x.step = 1 → (∃ y ∈ s.devs, y.port = some port.val ∧ y.nonPosted = true) → s.tick ≤ x.since + 1000 →
      exec (.portQuiesceWaitEnd port) s = .next s) ∧
    (x.step = 1 → (∀ y ∈ s.devs, y.port = some port.val → y.nonPosted = false) ∨ x.since + 1000 < s.tick → Does (.portQuiesceWaitEnd port) s fun t =>
      (t.portSt port).step = 2 ∧ (t.portSt port).since = s.tick ∧ (t.portSt port).reads = [] ∧ ∀ y ∈ t.devs, y.port ≠ some port.val) ∧
    (x.step ≠ 1 → exec (.portQuiesceWaitEnd port) s = .next s) ∧
    (x.step = 2 → x.since + 100 ≤ s.tick → x.job = none → Does (.portQuiesceDone port) s fun t => Quiet s t ∧ t.portState port = 5 ∧ (t.portSt port).step = 0) ∧
    (x.step = 2 → s.tick < x.since + 100 → exec (.portQuiesceDone port) s = .next s) ∧
    (s.hasPort port = true → Does (.pmeMessage port) s fun t => Quiet s t ∧ t.regs = s.regs ∧ t.portSt port = { x with pme := true }) ∧
    (s.portMode port = 2 → s.hasPort port = true → st ≠ 6 → Does (.cxlDeviceLost port) s fun t => t.portState port = 6 ∧ t.mem = s.mem ∧
      t.lines = s.lines ∧ ∀ q : Pid, q.val ∈ s.cxlOwners port → (s.ras.get [] q.val : List RasRec).length < 64 → ∃ r ∈ (t.ras.get [] q.val : List RasRec), r.code = 0x8050)

/-- A write to an interrupt route or to the IPI register (R389, R390, R475). -/
def Obligations.InterruptRouteResults : Prop :=
  ∀ (s : State) (p : Pid) (w : World) (i : Fin 2048) (v : Word),
    let r : Reg := .irdRoute p i
    let old := s.rg r
    let n := fld v 7 0
    let owned := n < 216 ∧ s.ownsCore p (Fin.ofNat 216 n) = true
    let id := fld v 11 8
    let ir : Reg := .irdRoute p (Fin.ofNat 2048 id)
    let key := 16 * p.val + id
    let off := s.rb ir 9 = false ∨ s.partState p = 5
    let denied := (w = .outer ∧ (bit old 8 = true ∨ bit v 8 = true)) ∨ (16 ≤ i.val ∧ ¬ owned)
    let route := Instr.irdRouteWrite p w i v
    let ipi := Instr.irdIpiWrite p w v
    (denied → Does route s fun t => Quiet s t ∧ t.rg r = old ∧ t.msgs = s.msgs ∧ t.ipi = s.ipi) ∧
    (¬ denied → Does route s fun t => Quiet s t ∧ t.rf r 9 0 = fld v 9 0 ∧
      (bit v 9 = false → t.msgs = s.msgs ∧ t.rb r 10 = (bit old 10 && !(bit v 10)) ∧ (bit v 10 = true → i.val < 16 → (t.ipi.get [] (16 * p.val + i.val) : List Nat) = [])) ∧
      (bit v 9 = true → bit old 10 = false → t.msgs = s.msgs ∧ t.rb r 10 = false) ∧
      (bit v 9 = true → bit old 10 = true → s.partState p ≠ 5 → 16 ≤ i.val →
        t.rb r 10 = false ∧ t.msgs = (s.deliver p i.val (bit v 8) (Fin.ofNat 216 n)).msgs)) ∧
    (¬ owned → Does ipi s fun t => Quiet s t ∧ t.msgs = s.msgs ∧ t.ipi = s.ipi ∧ t.rg ir = s.rg ir) ∧
    (owned → off → Does ipi s fun t => Quiet s t ∧ t.msgs = s.msgs ∧ t.rb ir 10 = true ∧
      (t.ipi.get [] key : List Nat) = insertNat n (s.ipi.get [] key : List Nat)) ∧
    (owned → ¬ off → exec ipi s = .next (s.deliver p id (s.rb ir 8) (Fin.ofNat 216 n)))

/-! ## The service rings (R396–R417) -/

/-- A control write, a doorbell, the interrupt of a tick and an audit of a partition's rings (R396, R397, R402, R404, R410, R413). -/
def Obligations.RingRegisterResults : Prop :=
  ∀ (s : State) (p : Pid) (w : World) (v : Word),
    let ctl : Reg := .pscRingCtl p
    let pos : Reg := .pscRingPos p
    let st : Reg := .pscRingStatus p
    let tail : Reg := .pscSqTail p
    let head : Reg := .pscCqHead p
    let i := fld v 15 0
    let denied := s.ringInner p = true ∧ w = .outer
    let plain (t : State) : Prop := Quiet s t ∧ t.psc = s.psc ∧ t.msgs = s.msgs
    let refuses (c : Instr) : Prop := denied → Does c s fun t => plain t ∧ t.rb st 3 = true ∧ ∀ r, r ≠ st → r ≠ .bbxStatus → r ≠ .bbxLost → t.rg r = s.rg r
    let drops (c : Instr) (b : Nat) : Prop := Does c s fun t => plain t ∧ t.rb st b = true ∧ t.rg ctl = s.rg ctl ∧ t.rg tail = s.rg tail ∧ t.rg head = s.rg head
    let n := s.outstanding p
    let cnt := s.rg (.pscRingCnt p)
    let level := (fld cnt 31 0 + 2 ^ 32 - fld cnt 63 32) % 2 ^ 32 = n ∧ n ≤ s.cqFree p
    let route : Reg := .irdRoute p (Fin.ofNat 2048 (s.rf ctl 26 16))
    let sent := s.psc.irqAt.get 0 p.val = s.tick + 1
    (bit v 0 = true → refuses (.ringEnable p w v) ∧ exec (.ringDisable p w v) s = .next s ∧
      (¬ denied → s.ringCtlBad p v = true → drops (.ringEnable p w v) 4) ∧
      (¬ denied → s.ringCtlBad p v = false → s.rb ctl 0 = false → s.ringState p = 0 → Does (.ringEnable p w v) s fun t => Quiet s t ∧
        t.rb ctl 0 = true ∧ t.ringState p = 1 ∧ t.ringInner p = decide (w = .inner) ∧ t.rf ctl 13 4 = fld v 13 4 ∧ t.rb ctl 14 = bit v 14 ∧ t.rf ctl 26 16 = fld v 26 16 ∧
        t.rg tail = tail.reset ∧ t.rg head = head.reset ∧ t.rg pos = pos.reset ∧ t.rg (.pscRingCnt p) = Reg.reset (.pscRingCnt p))) ∧
    (bit v 0 = false → refuses (.ringDisable p w v) ∧ exec (.ringEnable p w v) s = .next s ∧
      (¬ denied → s.ringCtlBad p v = true → drops (.ringDisable p w v) 4) ∧
      (¬ denied → s.ringCtlBad p v = false → s.rb ctl 0 = true → s.ringState p = 1 → (s.psc.held.get [] p.val : List Compl) = [] →
        (∀ j ∈ s.psc.jobs, j.ring = .part p → ¬ (j.waits = true ∧ j.phase = 0)) → Does (.ringDisable p w v) s fun t => Quiet s t ∧
          t.rb ctl 0 = false ∧ t.ringState p = if n = 0 then 0 else 2)) ∧
    refuses (.sqDoorbell p w v) ∧ refuses (.cqDoorbell p w v) ∧
    (¬ denied → s.sqLen p ≤ i ∨ s.ringState p ≠ 1 → drops (.sqDoorbell p w v) 0) ∧
    (¬ denied → i < s.sqLen p → s.ringState p = 1 → 1792 ≤ s.cycle → Does (.sqDoorbell p w v) s fun t => plain t ∧ t.rf tail 15 0 = i) ∧
    (¬ denied → s.cqLen p ≤ i ∨ s.ringState p = 0 → drops (.cqDoorbell p w v) 0) ∧
    (¬ denied → i < s.cqLen p → s.ringState p ≠ 0 → (s.psc.held.get [] p.val : List Compl) = [] →
      Does (.cqDoorbell p w v) s fun t => Quiet s t ∧ t.rf head 15 0 = i ∧ t.rg ctl = s.rg ctl) ∧
    (p.val ∉ s.psc.irqDue ∨ s.dutiesDone = false ∨ sent → exec (.completionInterrupt p) s = .next s) ∧
    (p.val ∈ s.psc.irqDue → s.dutiesDone = true → ¬ sent → Does (.completionInterrupt p) s fun t => Quiet s t ∧
      t.psc.irqDue = s.psc.irqDue.erase p.val ∧ t.psc.irqAt.get 0 p.val = s.tick + 1 ∧
      (s.rb ctl 14 = false → t.msgs = s.msgs ∧ t.regs = s.regs) ∧
      (s.rb ctl 14 = true → s.rb route 9 = false → t.rb route 10 = true) ∧
      (s.rb ctl 14 = true → s.rb route 9 = true → s.partState p ≠ 5 → s.rf route 7 0 < 216 → s.ownsCore p (Fin.ofNat 216 (s.rf route 7 0)) = true →
        t.msgs = (s.deliver p (s.rf ctl 26 16) (s.rb route 8) (Fin.ofNat 216 (s.rf route 7 0))).msgs)) ∧
    (s.cycle < 1792 → (s.dutiesDone = true ↔ ∀ r : Pid, s.ringOwed r = 0)) ∧ (1792 ≤ s.cycle → s.dutiesDone = true) ∧
    (s.ringState p = 0 ∨ s.auditing 6 = false → exec (.ringAudit (.part p)) s = .next s) ∧
    (s.ringState p ≠ 0 → s.auditing 6 = true → level → Does (.ringAudit (.part p)) s fun t => Quiet s t ∧ t.regs = s.regs ∧ t.psc.auditFail.get 0 p.val = 0) ∧
    (s.ringState p ≠ 0 → s.auditing 6 = true → ¬ level → Does (.ringAudit (.part p)) s fun t => Quiet s t ∧ t.ringState p = 3 ∧
      t.psc.auditFail.get 0 p.val = s.psc.auditFail.get 0 p.val + 1 ∧ (s.ringState p = 3 → t.ras = s.ras))

/-- The state after the PSC has read the descriptor at the head of a partition's ring and the buffer that descriptor `j` names (R246, R403,
R408). -/
def Sys2Proof.Machine.State.partRead (s : State) (p : Pid) (j : Job) : State :=
  let r := s.headRead p
  r.linesRead p (r.ringInner p) j.buf j.inLines

/-- The descriptor at the head of a partition's ring can be consumed now, is well formed and has no FENCE, and asks for opcode `op`; no line of
it or of the buffer that it reads is in a transaction. `j` is what it becomes in hand (R237, R403, R405, R408). -/
def Sys2Proof.Machine.PartTurn (s : State) (p : Pid) (j : Job) (op : Nat) : Prop :=
  let r := s.headRead p
  let q := s.partRead p j
  s.fatal = false ∧ s.headReady p = true ∧ r.headReady p = true ∧ r.headDesc p = some j.words ∧
  r.linesBusy p (r.ringInner p) j.buf j.inLines = false ∧ j.opcode = op ∧ j.fence = false ∧ j.reserved = none ∧
  j.lenBad = false ∧ j.rowless = none ∧
  j = { id := q.psc.nextId, ring := .part p, words := j.words, idx := q.rf (.pscRingPos p) 15 0, data := q.bufData p j, armed := q.tick, phase := 0, aux := [] }

/-- A descriptor's whole way through a partition's rings, on TIME_SYNC_READ (R400, R401, R403, R404, R406, R408): SQ_HEAD and the counts
advance, and the completion line stands in memory at the tail, with the phase of this pass over the ring. -/
def Sys2Proof.Machine.PartitionRingFlow : Prop :=
  ∀ (s : State) (p : Pid) (j : Job) (da : Nat), PartTurn s p j 0x09 → j.arg 0 = 0 → j.restZero 2 →
    let q := s.partRead p j
    let pos : Reg := .pscRingPos p
    let cnt : Reg := .pscRingCnt p
    let tail := q.rf pos 31 16
    let next := (tail + 1) % q.cqLen p
    let c : Compl := { tick := q.tick, tag := j.tag, status := 0, opcode := 0x09, idx := j.idx, r0 := q.tick, r1 := (q.rg .locTimeOfs).toNat,
                       len := 0, noirq := j.noirq, data := [] }
    q.pscDa p (q.ringInner p) (q.cqPpa p) = .inl da → q.cxlLost (da / 64) = false → q.lineQuiet (da / 64) = true →
    (∀ f ∈ q.psc.finishing, f.job.ring ≠ .part p) → p.val ∉ q.psc.cqLost →
    q.noneDeferred → (tail % 2 = 1 → (q.psc.lastEven.get [] p.val : List Word).length = 4) →
    Does (.timeSyncRead (.part p)) s fun t =>
      t.rf pos 15 0 = (q.rf pos 15 0 + 1) % q.sqLen p % 2 ^ 16 ∧ t.outstanding p = q.outstanding p ∧ t.rf pos 31 16 = next % 2 ^ 16 ∧
      t.rb pos 32 = (q.rb pos 32 != decide (next = 0)) ∧ t.rf cnt 31 0 = (q.rf cnt 31 0 + 1) % 2 ^ 32 ∧
      t.rf cnt 63 32 = (q.rf cnt 63 32 + 1) % 2 ^ 32 ∧ t.psc.consumed.get 0 p.val = q.psc.consumed.get 0 p.val + 1 ∧
      (∀ x ∈ t.psc.jobs, x.id ≠ q.psc.nextId) ∧ t.psc.nextId = q.psc.nextId + 1 ∧ (j.noirq = false → p.val ∈ t.psc.irqDue) ∧
      memRead t.mem (da / 64 * 64 + 32 * (tail % 2)) 32 = wordsNat (c.words (q.rb pos 32)) % 2 ^ 256 ∧
      ∀ a, a / 64 ≠ da / 64 → t.rdByte a = q.rdByte a

/-- A ring command whose descriptor stands on a line in a transaction waits for it, and one in FATAL is not served (R237, R477). -/
def Sys2Proof.Machine.PartitionRingWaits : Prop :=
  ∀ (s : State) (p : Pid), s.headReady p = false ∨ s.fatal = true →
    ∀ i ∈ ([.timeSyncRead (.part p), .drtUpdate (.part p), .ctrDumpCfg (.part p), .park (.part p), .unpark (.part p), .rasFetch (.part p),
            .attest (.part p), .powerReq (.part p)] : List Instr), exec i s = .next s

/-- The commands of a partition alone: DRT_UPDATE, CTR_DUMP_CFG and PARK are taken and wait for their boundary or their drain; on the owner
ring they end INVALID_FIELD, which is the model's choice for a ring that names no partition (log entry 40). UNPARK ends a park in
progress (R214, R408, R464, R465, R516). -/
def Sys2Proof.Machine.PartitionOnlyCommands : Prop :=
  ∀ (s : State) (p : Pid) (j : Job) (k : Park) (srcs : List WakeSrc),
    let q := s.partRead p j
    let s1 := (q.consume p j.words j.data).2
    let keeps (t : State) (x : Job) : Prop := x ∈ t.psc.jobs ∧ t.mem = q.mem ∧ t.lines = q.lines ∧ t.psc.consumed.get 0 p.val = q.psc.consumed.get 0 p.val + 1
    (PartTurn s p j 0x0C → s1.drtUpdateBad j = none → Does (.drtUpdate (.part p)) s fun t => keeps t { j with phase := 1 } ∧
      ∀ i, t.rg (.drtRegionLo p i) = q.rg (.drtRegionLo p i) ∧ t.rg (.drtRegionHi p i) = q.rg (.drtRegionHi p i)) ∧
    (PartTurn s p j 0x03 → s1.dumpBad j = none → Does (.ctrDumpCfg (.part p)) s fun t => keeps t { j with phase := 1, aux := [(s1.partCores p).length] } ∧
      t.dumps = q.dumps) ∧
    (PartTurn s p j 0x0E → j.arg 0 = 1 → 1 ≤ (j.arg 1).toNat → (j.arg 1).toNat ≤ 10000 → j.restZero 2 → s1.bufBad j = false →
      s1.wakeList p j.data 16 0 = .inr srcs → (s1.domsOf p).all (fun d => !(s1.rb (.pwrCtl d) 4)) = true → s1.parking p = false →
      Does (.park (.part p)) s fun t => ∃ y : Park, (t.psc.parks.get none p.val : Option Park) = some y ∧ y.srcs = srcs ∧ y.since = s1.tick ∧
        y.parked = none ∧ y.ms = (j.arg 1).toNat ∧ y.job = some j.id) ∧
    (PartTurn s p j 0x0E → j.arg 0 = 0 → (j.arg 1).toNat < 2 ^ 24 → j.restZero 2 → (s1.psc.parks.get none p.val : Option Park) = some k → k.parked = none →
      Does (.unpark (.part p)) s fun t => (t.psc.parks.get none p.val : Option Park) = none ∧ ∀ x ∈ t.psc.jobs, x.id ≠ j.id) ∧
    (OwnerTurn s j 0x0C → Does (.drtUpdate .owner) s fun t => Quiet s t ∧ OwnerGets s t j 0x02 24 0 []) ∧
    (OwnerTurn s j 0x03 → Does (.ctrDumpCfg .owner) s fun t => Quiet s t ∧ OwnerGets s t j 0x02 24 0 []) ∧
    (OwnerTurn s j 0x0E → bit (j.arg 0) 0 = true → Does (.park .owner) s fun t => Quiet s t ∧ OwnerGets s t j 0x02 24 0 []) ∧
    (OwnerTurn s j 0x0E → j.arg 0 = 0 → (j.arg 1).toNat < 2 ^ 24 → j.restZero 2 → Does (.unpark .owner) s fun t => Quiet s t ∧ OwnerGets s t j 0 0 0 [])

/-- The ring of a partition: its descriptors and completions, and the commands that only a partition has. -/
def Obligations.PartitionRingResults : Prop := PartitionRingFlow ∧ PartitionRingWaits ∧ PartitionOnlyCommands

/-- The owner ring itself (R416, R417, R477, R500): a message becomes a descriptor or is discarded, a completion is read once, and messages
in parts are given up on a bus reset or after 10,000 ticks. -/
def Obligations.OwnerBusResults : Prop :=
  ∀ (s : State) (id : Nat) (kind : Byte) (ws : List Word) (data req : List Byte) (since : Nat) (c : Compl) (cs : List Compl),
    let j : Job := { id := s.psc.nextId, ring := .owner, words := ws, idx := 0, data := data, armed := s.tick, phase := 0, aux := [] }
    let took (t : State) : Prop := Quiet s t ∧ t.regs = s.regs ∧ t.psc.nextId = s.psc.nextId + 1 ∧ t.psc.ownerCnt.1 = s.psc.ownerCnt.1 + 1
    let msg := Instr.ownerMessage id kind ws data true
    (kind = 1 → ws.length = 8 → data.length = j.bufLen →
      (s.ownerOutstanding < 64 → s.fatal = false → opcodeOk j.opcode = true → j.rowless = none → Does msg s fun t => took t ∧
        t.psc.jobs = s.psc.jobs ++ [j] ∧ t.psc.ownerOut = s.psc.ownerOut) ∧
      (64 ≤ s.ownerOutstanding ∨ s.fatal = true → Does msg s fun t => took t ∧ OwnerGets s t j 0x06 0 0 []) ∧
      (s.ownerOutstanding < 64 → s.fatal = false → opcodeOk j.opcode = false → Does msg s fun t => took t ∧ OwnerGets s t j 0x01 0 0 [])) ∧
    (kind ≠ 1 ∨ ws.length ≠ 8 → Does msg s fun t => Quiet s t ∧ t.psc.jobs = s.psc.jobs ∧ t.psc.ownerOut = s.psc.ownerOut) ∧
    (s.psc.ownerAsm = [] → Does (.ownerMessage id kind ws data false) s fun t => Quiet s t ∧ t.regs = s.regs ∧ t.psc.jobs = s.psc.jobs ∧
      t.psc.ownerAsm = [(id, s.tick)]) ∧
    (s.psc.ownerAsm = [(id, since)] → Does (.ownerMessageTimeout id) s fun t => Quiet s t ∧ t.psc.jobs = s.psc.jobs ∧
      t.psc.ownerAsm = if since + 10000 < s.tick then [] else [(id, since)]) ∧
    Does .i3cBusReset s (fun t => Quiet s t ∧ t.regs = s.regs ∧ t.psc = { s.psc with ownerAsm := [] }) ∧
    (s.psc.ownerOut = c :: cs → Does .ownerCompletionRead s fun t => Quiet s t ∧ t.psc.ownerOut = cs ∧ t.ibi = s.ibi - 1 ∧
      t.reply = natBytes (wordsNat (c.words false)) 32 ++ c.data) ∧
    (s.psc.ownerOut = [] → exec .ownerCompletionRead s = .next s) ∧
    (s.fatal = false → req ≠ [] → Does (.spdmRequest req) s fun t => Quiet s t ∧ t.regs = s.regs ∧ t.psc = s.psc ∧ t.reply.length < 2 ^ 16) ∧
    (s.fatal = true → exec (.spdmRequest req) s = .next s)

/-- The owner's commands over time, records, slots and measurements (R40, R283, R407, R408, R474, R490, R500). -/
def Sys2Proof.Machine.OwnerServiceCommands : Prop :=
  ∀ (s : State) (j : Job),
    let a := j.arg 0
    let n := fld a 28 16
    let k := min n 256
    let at_ (i : Nat) : Nat := (fld a 11 0 + i) % 4096
    let read := (List.range k).flatMap fun i => natBytes (s.bbAt (at_ i)) 16
    let q : List RasRec := s.ras.get [] (fld a 3 0)
    let now := q.take 128
    let tok : Token := { pid := (s.slotPid j).getD 0, plane := fld a 19 16, src := fld a 7 0, dst := fld a 15 8, slot := fld (j.arg 1) 7 0 }
    let ts := s.tokensNext
    let mine := (ts.filter fun x => x.pid == tok.pid).length
    let paths := pathsAt ts tok.plane tok.dst
    let slotsOpen := s.bankLocked 0 (!(s.bank 0)) = false ∧ s.psc.swapWait % 2 = 0 ∧ s.psc.layWait % 2 = 0
    let one := s.slotBad j = none ∧ j.candidates = [tok.slot]
    let gets (i : Instr) (st r0 r1 : Nat) (d : List Byte) : Prop := Does i s fun t => Quiet s t ∧ OwnerGets s t j st r0 r1 d
    (OwnerTurn s j 0x09 → a = 0 → j.restZero 2 → gets (.timeSyncRead .owner) 0 s.tick (s.rg .locTimeOfs).toNat []) ∧
    (OwnerTurn s j 0x09 → a = 1 → j.restZero 2 →
      ((j.arg 1).toInt < -2000000 ∨ 2000000000 < (j.arg 1).toInt → gets (.timeSyncAdjust .owner) 0x02 32 0 []) ∧
      (-2000000 ≤ (j.arg 1).toInt → (j.arg 1).toInt ≤ 2000000000 → Does (.timeSyncAdjust .owner) s fun t => Quiet s t ∧ t.regs = s.regs ∧
        t.psc.ownerOut = s.psc.ownerOut ∧ t.psc.adjusts = s.psc.adjusts ++ [((j.arg 1).toInt, some j.id)])) ∧
    (OwnerTurn s j 0x0A → a &&& ~~~ 0x9FFF0FFF#64 = 0 → j.restZero 1 → 1 ≤ n → n ≤ 4096 →
      gets (.blackboxRead .owner) (if k < n then 0x0D else 0) k (s.bbOldest + b2n (s.rb .bbxStatus 12) * 2 ^ 12) read) ∧
    (OwnerTurn s j 0x04 → a.toNat < 16 → j.restZero 1 → Does (.rasFetch .owner) s fun t => Quiet s t ∧ t.ras = s.ras ∧
      OwnerGets s t j (if q.length ≤ 128 then 0 else 0x0D) now.length (q.length - now.length) (now.flatMap fun r => r.bytes (2 ^ 16) 0)) ∧
    (OwnerTurn s j 0x0B → (j.arg 1).toNat < 2 ^ 16 → j.restZero 2 → Does (.attest .owner) s fun t => Quiet s t ∧ t.regs = s.regs ∧
      ∃ st d, OwnerGets s t j st 0 0 d ∧ d.length ≤ 4096 ∧ (st = 0 ∨ (st = 0x0D ∧ d.length = 4096))) ∧
    (OwnerTurn s j 0x0D → slotsOpen → one → (s.slotPid j).isSome = true →
      (fld a 21 20 = 0 → fld a 31 24 = 1 →
        (cellsFree ts tok = true → mine + 1 ≤ (s.layout tok.pid.val).ceil → (tok.src, tok.dst) ∈ paths ∨ paths.length < 16 →
          Does (.slotGrant .owner) s fun t => t.mem = s.mem ∧ t.lines = s.lines ∧ t.tokensNext = ts ++ [tok] ∧ t.psc.ownerOut = s.psc.ownerOut ∧
            ∃ x ∈ t.psc.jobs, x.id = j.id ∧ x.phase = 1 ∧ x.aux = [1]) ∧
        (cellsFree ts tok = false ∨ (s.layout tok.pid.val).ceil < mine + 1 → gets (.slotGrant .owner) 0x05 0 0 [])) ∧
      (fld a 21 20 = 1 →
        (tok ∉ ts → gets (.slotRelease .owner) 0 0 0 []) ∧
        (tok ∈ ts → Does (.slotRelease .owner) s fun t => t.mem = s.mem ∧ t.lines = s.lines ∧ t.tokensNext = ts.filter (fun x => x != tok) ∧
          ∃ x ∈ t.psc.jobs, x.id = j.id ∧ x.phase = 1 ∧ x.aux = [1])))

/-- PORT_CTL and CXL_MGMT from the owner, and the end of a wait (R384, R387, R405, R408). -/
def Sys2Proof.Machine.PortServiceCommands : Prop :=
  ∀ (s : State) (j : Job) (port : PortId) (granules : Nat) (data : List Byte),
    let a := j.arg 0
    let st := s.portState port
    let idle := (s.portSt port).job = none ∧ st ≠ 3
    let named := s.portNamed j port.val = true ∧ fld a 5 0 = port.val ∧ a &&& ~~~ 0x733F#64 = 0 ∧ j.restZero 1 ∧ fld a 14 12 ≠ 7
    let cxl := s.cxlNamed j port.val = true ∧ fld a 13 8 = port.val ∧ a &&& ~~~ 0x3FFF#64 = 0 ∧ j.restZero 1
    let gets (i : Instr) (c : Nat) : Prop := Does i s fun t => OwnerGets s t j c 0 0 [] ∧ t.cores = s.cores
    let waits (i : Instr) (n : Nat) : Prop := Does i s fun t => Quiet s t ∧ t.portState port = n ∧ (t.portSt port).job = some j.id ∧
      t.psc.ownerOut = s.psc.ownerOut ∧ { j with phase := 1, aux := [port.val] } ∈ t.psc.jobs
    (OwnerTurn s j 0x08 → named →
      (¬ idle → ∀ i ∈ [Instr.portEnable .owner, .portDisable .owner, .portRetrain .owner], fld a 9 8 = 0 ∧ i = .portEnable .owner ∨
        fld a 9 8 = 1 ∧ i = .portDisable .owner ∨ fld a 9 8 = 2 ∧ i = .portRetrain .owner → gets i 0x06) ∧
      (idle → fld a 9 8 = 0 →
        (st = 2 → gets (.portEnable .owner) 0) ∧ (st = 4 ∨ st = 6 → gets (.portEnable .owner) 0x0B) ∧
        (st = 0 ∨ st = 1 ∨ st = 5 → waits (.portEnable .owner) 1)) ∧
      (idle → fld a 9 8 = 1 →
        (st = 1 ∨ st = 2 → waits (.portDisable .owner) 3) ∧
        (st ≠ 1 → st ≠ 2 → Does (.portDisable .owner) s fun t => Quiet s t ∧ t.portState port = 5 ∧ OwnerGets s t j 0 0 0 [])) ∧
      (idle → fld a 9 8 = 2 → (st = 2 → waits (.portRetrain .owner) 1) ∧ (st ≠ 2 → gets (.portRetrain .owner) 0x0B))) ∧
    (OwnerTurn s j 0x0F → cxl →
      (fld a 7 0 = 0 → Does (.cxlHealth .owner data) s fun t => Quiet s t ∧ OwnerGets s t j (if 4096 < data.length then 0x0D else 0) 0 0 (data.take 4096)) ∧
      (fld a 7 0 = 1 → Does (.cxlPoisonList .owner data) s fun t => Quiet s t ∧ OwnerGets s t j (if 4096 < data.length then 0x0D else 0) 0 0 (data.take 4096)) ∧
      (fld a 7 0 = 2 → s.cxlOwners port ≠ [] ∨ st = 3 → gets (.cxlHotAdd .owner granules) 0x06) ∧
      (fld a 7 0 = 2 → s.cxlOwners port = [] → st ≠ 3 → 0 < granules → granules ≤ 2 ^ 17 → Does (.cxlHotAdd .owner granules) s fun t =>
        OwnerGets s t j 0 0 0 [] ∧ t.portState port = 2 ∧ (cxlBase port, granules) ∈ t.psc.pool ∧
        ∀ da, cxlBase port ≤ da / 2 ^ 30 → da / 2 ^ 30 < cxlBase port + granules → t.rdByte da = 0) ∧
      (fld a 7 0 = 3 → s.cxlOwners port ≠ [] ∨ ¬ idle → gets (.cxlRemove .owner) 0x06) ∧
      (fld a 7 0 = 3 → s.cxlOwners port = [] → idle → (st = 1 ∨ st = 2 → waits (.cxlRemove .owner) 3) ∧
        (st ≠ 1 → st ≠ 2 → Does (.cxlRemove .owner) s fun t => Quiet s t ∧ t.portState port = 5 ∧ OwnerGets s t j 0 0 0 []))) ∧
    (s.psc.jobs.find? (fun x => x.id == j.id) = some j → j.ring = .owner → j.phase ≠ 0 →
      (j.opcode = 0x01 → j.armed + j.wait 1000 < s.tick → gets (.deadlineTimeout j.id) 0x0A) ∧
      (j.opcode = 0x08 → fld a 9 8 ≠ 1 → (s.portSt (portOfArg a 5 0)).job = some j.id → j.armed + j.wait 100000 < s.tick → gets (.deadlineTimeout j.id) 0x0B) ∧
      (j.opcode = 0x01 → s.tick ≤ j.armed + j.wait 1000 → exec (.deadlineTimeout j.id) s = .next s))

/-- The owner ring: time, records, attestation, slots, ports and CXL devices. -/
def Obligations.OwnerCommandResults : Prop := OwnerServiceCommands ∧ PortServiceCommands

/-! ## Power and the Locus (R447–R468, R485, R529–R533) -/

/-- Votes and core and cluster states (R449–R457): a write and a POWER_REQ set the vote of their world, a closed domain with nothing in flight
goes off, a core enters, abandons and leaves its states, a cluster follows its cores, and an unused Facet's uncore closes (R462). -/
def Obligations.PowerStateResults : Prop :=
  ∀ (s : State) (d : DomainId) (w : World) (v : Word) (k : CoreId) (g : ClusterId) (j : Job) (x : SaveSlot),
    let r : Reg := .pwrCtl d
    let st : Reg := .pwrStatus d
    let c := s.core k
    let cd := coreDom k
    let gd := clusterDom g
    let vote := domState d (fld (j.arg 0) 18 16)
    let old := s.rg r
    let asked := setFld old 1 0 vote
    let up := s.rf (.pwrStatus (clusterDom (clusterOf k))) 1 0 = 0
    let waits := c.pendO ≠ [] ∨ c.pendI ≠ [] ∨ c.abort.isSome = true
    let now := s.rf (.pwrStatus gd) 1 0
    let fa : FacetId := Fin.ofNat 12 (g.val / 3)
    let fd := facetDom fa
    let state (t : State) (n : Nat) : Prop := t.rf (.pwrStatus gd) 1 0 = n ∧ t.rb (.pwrStatus gd) 2 = false ∧ t.rb (.pwrStatus gd) 3 = false
    (s.hasDom d = false → exec (.pwrCtlWrite d w v) s = .next s) ∧
    (s.hasDom d = true → w = .outer → s.rb r 5 = true → Does (.pwrCtlWrite d w v) s fun t => Quiet s t ∧ t.regs = s.regs) ∧
    (s.hasDom d = true → ¬ (w = .outer ∧ s.rb r 5 = true) → (d.val < 216 → (s.cluSaves.get [] (d.val / 6) : List (Nat × Word)) = []) → Does (.pwrCtlWrite d w v) s fun t =>
      t.rf r 1 0 = domState d (fld v 1 0) ∧ t.rf r 9 8 = effTarget (t.rg r) ∧
      (w = .outer → t.rf r 5 2 = s.rf r 5 2) ∧
      (w = .inner → t.rf r 3 2 = domState d (fld v 3 2) ∧ t.rb r 4 = bit v 4 ∧ t.rb r 5 = (s.rb r 5 || bit v 5))) ∧
    (OwnerTurn s j 0x01 → s.powerBad j = none → (∀ y ∈ s.psc.jobs, y.opcode = 0x01 → y.phase = 0) →
      (j.powerDom = some d → 216 ≤ d.val → d.val < 252 →
        (s.domReleased d = true → Does (.powerReq .owner) s fun t => Quiet s t ∧ t.regs = s.regs ∧ OwnerGets s t j 0x06 0 0 []) ∧
        (s.domReleased d = false → effTarget asked < vote → Does (.powerReq .owner) s fun t => Quiet s t ∧ t.rf r 1 0 = vote ∧ OwnerGets s t j 0x07 0 0 []) ∧
        (s.domReleased d = false → ¬ effTarget asked < vote → Does (.powerReq .owner) s fun t => Quiet s t ∧ t.rf r 1 0 = vote ∧
          (s.rf st 1 0 = vote → s.trans d = false → OwnerGets s t j 0 vote 0 []) ∧
          (s.rf st 1 0 ≠ vote ∨ s.trans d = true → t.psc.ownerOut = s.psc.ownerOut ∧ { j with phase := 1, aux := [d.val, vote] } ∈ t.psc.jobs))) ∧
      (fld (j.arg 0) 1 0 = 3 → s.partState (Fin.ofNat 16 (fld (j.arg 0) 15 8)) ≠ 4 → Does (.powerReq .owner) s fun t => Quiet s t ∧ t.regs = s.regs ∧
        OwnerGets s t j 0 0 0 [])) ∧
    (s.rb st 3 = true → s.trans d = true → s.inflight d = 0 → Does (.domainPowerOff d) s fun t =>
      t.rf st 1 0 = 3 ∧ t.rb st 2 = false ∧ t.rb st 3 = true) ∧
    (s.rb st 3 = false ∨ s.trans d = false ∨ s.inflight d ≠ 0 → exec (.domainPowerOff d) s = .next s) ∧
    (c.cs = 0 → c.wfi = true → waits → Does (.coreWake k) s fun t => (t.core k).wfi = false ∧ (t.core k).pc = c.pc ∧ t.rb (.pwrStatus cd) 2 = false) ∧
    (c.cs = 2 → c.held = false → s.trans cd = false → s.partState (s.pidOf k) ≠ 4 → waits → c.haltReq = false → up → Does (.coreWake k) s fun t =>
      (t.core k).cs = 0 ∧ (t.core k).wfi = false ∧ (t.core k).pc = c.pc ∧ t.rf (.pwrStatus cd) 1 0 = 0 ∧
      (t.core k).pendO = unionNat c.pendO (s.wakeO.get [] k.val) ∧ (t.core k).pendI = unionNat c.pendI (s.wakeI.get [] k.val)) ∧
    (c.cs = 3 → c.held = false → s.trans cd = false → s.partState (s.pidOf k) ≠ 4 → (s.wakeO.get [] k.val : List Nat) ≠ [] → c.haltReq = false → up →
      (s.saves.get none k.val : Option SaveSlot) = some x → x.crc = x.check → Does (.coreWake k) s fun t =>
        (t.core k).cs = 0 ∧ (t.core k).pc = x.pc ∧ (t.core k).d = x.d ∧ (t.core k).a = x.a ∧ (t.core k).sp = x.sp ∧ (t.core k).q = x.q ∧
        (t.core k).pl = x.pl ∧ (t.core k).inner = x.inner ∧ (t.core k).sys = x.sys ∧ t.rf (.pwrStatus cd) 1 0 = 0) ∧
    (c.wfi = true → c.cs = 0 → c.sleepAt + 64 < s.tick → Does (.powerdownAbandon k) s fun t =>
      (t.core k).wfi = false ∧ (t.core k).pc = c.pc ∧ t.rb (.pwrStatus cd) 4 = true ∧ t.rb (.pwrStatus cd) 2 = false) ∧
    (c.wfi = false ∨ s.tick ≤ c.sleepAt + 64 → exec (.powerdownAbandon k) s = .next s) ∧
    (s.trans gd = true → exec (.clusterStateEntry g) s = .next s) ∧
    (s.trans gd = false → s.owner g = none → s.facetUnused fa = true → s.rf (.pwrStatus fd) 1 0 ≠ 3 → s.trans fd = false →
      Does (.clusterStateEntry g) s fun t => Quiet s t ∧ t.rf (.pwrStatus fd) 1 0 = s.rf (.pwrStatus fd) 1 0 ∧ t.rb (.pwrStatus fd) 2 = true ∧
        t.rb (.pwrStatus fd) 3 = true) ∧
    (s.trans gd = false → s.owner g = none → s.facetUnused fa = false → exec (.clusterStateEntry g) s = .next s) ∧
    (s.trans gd = false → (s.owner g).isSome = true →
      (s.cluTarget g < 2 → s.coresAt g 1 = true → now = 0 → Does (.clusterStateEntry g) s fun t => state t 1) ∧
      (s.cluTarget g = 2 → s.coresAt g 2 = true → now < 2 → Does (.clusterStateEntry g) s fun t => state t 2) ∧
      (s.cluTarget g = 3 → s.coresAt g 3 = true → now < 3 → s.l2Lines g = [] → Does (.clusterStateEntry g) s fun t => Quiet s t ∧
        t.rf (.pwrStatus gd) 1 0 = now ∧ t.rb (.pwrStatus gd) 2 = true ∧ t.rb (.pwrStatus gd) 3 = true))

/-- Boost, droop, temperature and the Locus's checks (R459–R463, R485, R535): the boost frequency and the droop step are free within what
the rules allow, the throttle holds a unit's clusters to 2.0 GHz, a trip removes main power and is FATAL. -/
def Obligations.ClockAndThermalResults : Prop :=
  ∀ (s : State) (g : ClusterId) (n : Nat) (u : ThermUnit) (temp : Int) (die sensor : Nat) (reading median : Int) (job : Nat) (p : Pid) (r : Resize),
    let hot (t : State) : Prop := ((∃ m, u = .stack m) ∨ u = .die 12 ∨ u = .die ⟨(facetOf g).val, by omega⟩) → t.rf (.pwrPerf (clusterDom g)) 21 16 ≤ 20
    let key := 64 * die + sensor
    let odd := s.pwr.odd.get 0 key
    let early := ∃ u, s.pwr.readAt.get none key = some u ∧ u ≤ s.tick ∧ s.tick < u + 1000
    (s.pwr.boostAt + 100 ≤ s.tick → Does .boostUpdate s fun t => Quiet s t ∧ 29 ≤ t.pwr.boost ∧ t.pwr.boost ≤ 34 ∧ t.pwr.boostAt = s.tick ∧
      t.rf (.pwrPerf (clusterDom g)) 21 16 ≤ max 29 t.pwr.boost) ∧
    (s.tick < s.pwr.boostAt + 100 → exec .boostUpdate s = .next s) ∧
    Does (.droopStretch g n) s (fun t => Quiet s t ∧ t.rf (.pwrDroop g) 31 0 = min (2 ^ 32 - 1) (s.rf (.pwrDroop g) 31 0 + n)) ∧
    (temp < throttleAt u → exec (.thermalThrottle u temp) s = .next s) ∧
    (throttleAt u ≤ temp → u ∉ s.pwr.hot → Does (.thermalThrottle u temp) s fun t => Quiet s t ∧ t.pwr.hot = s.pwr.hot ++ [u] ∧ hot t) ∧
    (throttleAt u - 5 < temp → exec (.throttleRelease u temp) s = .next s) ∧
    (temp ≤ throttleAt u - 5 → Does (.throttleRelease u temp) s fun t => Quiet s t ∧ t.pwr.hot = s.pwr.hot.erase u) ∧
    (tripAt u ≤ temp → Does (.thermalTrip u temp) s fun t => t.fatal = true ∧ t.cores = [] ∧ t.mem = s.mem ∧ t.rb .locRailStatus 55 = true ∧
      t.rb .locRailStatus 56 = false) ∧
    (temp < tripAt u → exec (.thermalTrip u temp) s = .next s) ∧
    (key ∉ s.pwr.failed → ¬ early → Does (.sensorCheck die sensor reading median) s fun t => Quiet s t ∧ t.pwr.readAt.get none key = some s.tick ∧
      ((reading - median).natAbs ≤ 15 → t.pwr.odd.get 0 key = 0 ∧ t.pwr.failed = s.pwr.failed) ∧
      (15 < (reading - median).natAbs → odd < 15 → t.pwr.odd.get 0 key = odd + 1 ∧ t.pwr.failed = s.pwr.failed) ∧
      (15 < (reading - median).natAbs → odd = 15 → key ∈ t.pwr.failed)) ∧
    (key ∈ s.pwr.failed ∨ early → exec (.sensorCheck die sensor reading median) s = .next s) ∧
    (s.rf .pscBootStatus 3 0 ≠ 8 → Does (.spiTimeout .boot) s fun t => t.fatal = true ∧ t.cores = [] ∧ t.mem = s.mem ∧
      (s.rf .locFatalCause 15 0 = 0 → t.rf .locFatalCause 15 0 = 0x1050)) ∧
    (s.getResize job = some r → r.id = job → r.persist = true → Does (.spiTimeout (.layoutStore job)) s fun t => Quiet s t ∧
      t.getResize job = some { r with persist := false }) ∧
    (s.partState p = 1 → Does (.spiTimeout (.partImage p)) s fun t => Quiet s t ∧ p.val ∈ t.psc.onHold ∧ t.partState p = 1)

/-- A parked partition (R464–R467): it is PARKED when its clusters and ports are at rest, given up when they do not come to rest, sampled at
its interval, and woken by a match with its cause. -/
def Sys2Proof.Machine.ParkResults : Prop :=
  ∀ (s : State) (p : Pid) (k : Park) (j : Job) (smp : List Int) (at_ : Nat) (e : Option Nat) (int own : Bool),
    (s.psc.parks.get none p.val : Option Park) = some k →
    let parks (t : State) : Option Park := t.psc.parks.get none p.val
    let rests := s.allKs3 p = true ∧ ∀ i ∈ s.portsOf p, s.rf (.pwrStatus (portDom i)) 1 0 = k.portState i ∧ s.trans (portDom i) = false
    let hit (i : Nat) : Bool := match k.srcs[i]? with | some x => s.wakeMatch x (smp.getD i 0) | none => false
    let woken := (s.coresOfPart p).any fun c => !(s.wakeO.get [] c.val).isEmpty || !(s.wakeI.get [] c.val).isEmpty || (s.wakeAb.get none c.val).isSome
    (k.parked = none → rests → (k.job.bind fun n => s.psc.jobs.find? fun x => x.id == n) = none → Does (.parkComplete p) s fun t => Quiet s t ∧
      t.partState p = 4 ∧ parks t = some { k with parked := some s.tick, job := none }) ∧
    (k.parked = none → rests → (k.job.bind fun n => s.psc.jobs.find? fun x => x.id == n) = some j → Does (.parkComplete p) s fun t =>
      t.partState p = 4 ∧ parks t = some { k with parked := some s.tick, job := none } ∧ ∀ x ∈ t.psc.jobs, x.id ≠ j.id) ∧
    (k.parked.isSome = true ∨ s.allKs3 p = false → exec (.parkComplete p) s = .next s) ∧
    (k.parked = none → k.since + 64 < s.tick → s.allKs3 p = false → Does (.parkDrainTimeout p) s fun t => parks t = none) ∧
    (k.parked.isSome = true ∨ s.tick ≤ k.since + 64 → exec (.parkDrainTimeout p) s = .next s) ∧
    (k.parked = some at_ → k.hit = none → at_ + k.next * 1000 * k.ms ≤ s.tick →
      ((∀ i, hit i = false) → woken = false → Does (.parkSample p smp) s fun t => Quiet s t ∧ parks t = some { k with next := k.next + 1 }) ∧
      (∀ i, hit i = true → (∀ n, n < i → hit n = false) → Does (.parkSample p smp) s fun t => Quiet s t ∧
        parks t = some { k with next := k.next + 1, hit := some (some i, woken, false) })) ∧
    (k.parked = none → exec (.parkSample p smp) s = .next s) ∧
    (k.hit = none → exec (.partitionWake p) s = .next s) ∧
    (k.hit = some (e, int, own) → (∀ i, e = some i → i < 16) → Does (.partitionWake p) s fun t => parks t = none ∧ (t.partState p = 2 ∨ t.partState p = 5) ∧
      (∀ i, e = some i → t.rf (.pscWakeCause p) 3 0 = i) ∧ t.rb (.pscWakeCause p) 4 = e.isSome ∧ t.rb (.pscWakeCause p) 5 = int ∧
      t.rb (.pscWakeCause p) 6 = own ∧ t.rf (.pscWakeCause p) 63 32 = s.tick % 2 ^ 32)

/-- Main power and the rails (R470, R529, R530, R532, R533): MAIN_EN goes high at tick 100 unless it is held low, a lost or overvolted rail is
recorded and resets the package, and the loss of VDD_AON loses the Locus too. -/
def Sys2Proof.Machine.SupplyResults : Prop :=
  ∀ (s : State) (cool : Bool) (rail : Fin 23),
    let r : Reg := .locRailStatus
    let fresh (t : State) : Prop := t.tick = 0 ∧ t.cores = [] ∧ t.mem = s.mem ∧ t.msgs = [] ∧ t.fatal = false ∧ t.pending = s.pending ∧ t.partState 0 = 0
    (100 ≤ s.tick → s.rb r 55 = false → Does .mainEnRaise s fun t => Quiet s t ∧ t.rb r 56 = true ∧ t.rb r 55 = false) ∧
    (s.tick < 100 ∨ s.rb r 55 = true → exec .mainEnRaise s = .next s) ∧
    (s.rb r 55 = true → cool = true → s.pwr.low = true → Does (.mainEnRearm cool) s fun t => Quiet s t ∧ t.rb r 55 = false ∧ t.rb r 56 = true) ∧
    (s.rb r 55 = false ∨ cool = false ∨ s.pwr.low = false → exec (.mainEnRearm cool) s = .next s) ∧
    Does (.railLoss rail) s (fun t => fresh t ∧ t.rb r rail.val = true ∧ t.rb r 55 = s.rb r 55 ∧ t.rb r 56 = s.rb r 56) ∧
    Does (.railOvervoltage rail) s (fun t => fresh t ∧ t.rb r (32 + rail.val) = true ∧ t.rb r 55 = true ∧ t.rb r 56 = false ∧ t.pwr.low = false) ∧
    Does .vddAonLoss s (fun t => fresh t ∧ t.rg r = r.reset ∧ t.bbx = BlackBox.empty ∧ t.wakeO = [] ∧ t.wakeI = [])

/-- A parked partition, and the supplies of the package. -/
def Obligations.ParkAndSupplyResults : Prop := ParkResults ∧ SupplyResults

/-! ## The Meter (R418–R446) -/

/-- Closing the entry of a tick (R422, R427–R433): the nineteen buckets together receive exactly the energy of the total channels that are
measured, and TOTAL receives the same; a channel's correction at a load point and temperature of R435 is the table's. The premises say that the layout names real owners and that the parameter set is one that the rules
allow: σ at most 1 and some static weight for each rail. -/
def Obligations.LedgerCloseConservesEnergy : Prop :=
  ∀ (s : State) (raw : List Int) (temp : Int), s.meter.due = true → s.cycle < 1600 → s.mtrFault = false →
    let m := s.meter
    let x (c : Nat) : Nat := m.calibrated c (raw.getD c 0) temp
    let sum (t : Tbl Nat) : Nat := ((List.range 19).map fun b => t.get 0 b).sum
    let energy (c : Nat) : Nat := if s.chFailed c then 0 else (x c + m.rho.get 0 c) / 1024
    let measured := ((List.range 24).map fun i => energy (48 + i)).sum
    let rail (i : Nat) : RailW := m.rails.getD (min i 4) { sigma := 0, aWay := 0, aTok := 0, aGran := 0, kOvh := 1, wNet := 0, wL3 := 0, wHbm := 0 }
    (∀ c i j, c < 72 → i < 5 → j < 3 →
      m.calibrated c ((calLoads c).getD i 0) (calTemps.getD j 0) = ((calLoads c).getD i 0 + m.calAt c i j).toNat) ∧
    ((∀ g, g < 36 → m.last.lay.owner.get 0 g ≤ 16) →
    (∀ i, i < 12 → (rail i).sigma ≤ 65536 ∧ (staticWeights m.last.lay s.usableGrans (rail i)).sum ≠ 0) →
    Does (.meterLedgerClose raw temp) s fun t => Quiet s t ∧ sum t.meter.led = sum m.led + measured ∧ t.meter.total = m.total + measured ∧
      t.meter.inc = measured ∧ t.meter.due = false ∧ t.meter.closed = some (s.tick - 1) ∧
      (∀ c, c < 72 → t.meter.rho.get 0 c = if s.chFailed c then m.rho.get 0 c else (x c + m.rho.get 0 c) % 1024) ∧
      (t.meter.flags % 2 = 1 ↔ ∃ i, i < 24 ∧ s.chFailed (48 + i) = true) ∧
      (m.last.main = some false → ∀ b, b < 18 → t.meter.led.get 0 b = m.led.get 0 b))

/-- The Meter's feeds, checks and non-volatile store (R423–R425, R430–R432, R437, R443–R446). -/
def Sys2Proof.Machine.MeterEventResults : Prop :=
  ∀ (s : State) (raw : List Int) (temp : Int) (fd : Feed) (gen : Byte) (sum : Nat) (c : Fin 72) (f : FacetId),
    let m := s.meter
    let shown (t : State) : Word := t.meter.st
    let ends := (m.ck.epoch + 1) % 2 ^ 32
    (m.due = false ∨ 1600 ≤ s.cycle → exec (.meterLedgerClose raw temp) s = .next s) ∧
    (m.due = true → s.cycle < 1600 → s.mtrFault = true → Does (.meterLedgerClose raw temp) s fun t => Quiet s t ∧ t.meter.led = m.led ∧
      t.meter.total = m.total ∧ t.meter.flags % 2 = 1 ∧ t.meter.closed = some (s.tick - 1)) ∧
    (fd.ok = false → exec (.feedMessage fd) s = .next s) ∧
    (fd.ok = true → Does (.feedMessage fd) s fun t => Quiet s t ∧ t.meter.led = m.led ∧
      (fd.kind = 0 → t.meter.now.net = some (fd.counts.getD 0 [])) ∧ (fd.kind = 1 → t.meter.now.l3 = some (fd.counts.getD 0 [])) ∧
      (fd.kind = 2 → t.meter.now.hbm = some fd.counts) ∧ (fd.kind = 3 → t.meter.now.chord = some fd.counts) ∧
      (fd.kind = 4 → t.meter.now.main = some fd.main)) ∧
    Does (.layoutFeed gen) s (fun t => Quiet s t ∧ fld (shown t) 31 24 = gen.toNat ∧ t.meter.stale = true) ∧
    (s.mtrFault = true ∨ sum = m.inc → exec (.meterConservationCheck sum) s = .next s) ∧
    (s.mtrFault = false → sum ≠ m.inc → Does (.meterConservationCheck sum) s fun t => Quiet s t ∧ bit (shown t) 1 = true ∧ bit (shown t) 2 = true ∧
      t.meter.gaps = m.gaps ++ [{ epoch := s.epoch, tick := s.tick, stop := none, cause := 2, chan := 0xFF }] ∧
      t.meter.events = m.events ++ [{ epoch := s.epoch, tick := s.tick, code := 0x2030, unit := 0xFF }]) ∧
    (s.chFailed c.val = false → Does (.channelFail c) s fun t => Quiet s t ∧ t.chFailed c.val = true ∧ (∀ d : Fin 72, d ≠ c → t.chFailed d.val = s.chFailed d.val) ∧
      t.meter.events = m.events ++ [{ epoch := s.epoch, tick := s.tick, code := 0x2001, unit := c.val }] ∧
      t.meter.gaps = (if 48 ≤ c.val then m.gaps ++ [{ epoch := s.epoch, tick := s.tick, stop := none, cause := 1, chan := c.val }] else m.gaps)) ∧
    (s.chFailed c.val = false ∨ m.good.get 0 c.val < 1000 → exec (.channelRestore c) s = .next s) ∧
    (s.chFailed c.val = true → 1000 ≤ m.good.get 0 c.val → Does (.channelRestore c) s fun t => Quiet s t ∧ t.chFailed c.val = false ∧ (∀ d : Fin 72, d ≠ c → t.chFailed d.val = s.chFailed d.val) ∧
      (48 ≤ c.val → ∀ g ∈ t.meter.gaps, g.cause = 1 → g.chan = c.val → g.stop.isSome = true) ∧ (c.val < 48 → t.meter.gaps = m.gaps)) ∧
    (m.exceed.get 0 f.val < 64 → exec (.facetCrosscheck f) s = .next s) ∧
    (64 ≤ m.exceed.get 0 f.val → Does (.facetCrosscheck f) s fun t => Quiet s t ∧ t.meter = m ∧ t = s.bb 0x2012 none 0xFF f.val) ∧
    Does .warningCheckpoint s (fun t => Quiet s t ∧ t.meter.ck = { led := m.led, total := m.total, rho := m.rho, epoch := s.epoch, tick := s.tick } ∧ t.regs = s.regs) ∧
    (s.tick % 1000000 = 0 → exec .meterCheckpoint s = exec .warningCheckpoint s) ∧ (s.tick % 1000000 ≠ 0 → exec .meterCheckpoint s = .next s) ∧
    Does .meterRestore s (fun t => Quiet s t ∧ t.meter.led = m.ck.led ∧ t.meter.total = m.ck.total ∧ t.meter.rho = m.ck.rho ∧ t.epoch = ends ∧
      t.mtrFault = false ∧ { epoch := m.ck.epoch, tick := m.ck.tick, stop := some (ends, s.tick), cause := 0, chan := 0xFF } ∈ t.meter.gaps ∧
      ∀ g ∈ t.meter.gaps, g.cause = 2 → g.chan = 0xFF → g.stop.isSome = true) ∧
    (s.lifeCycle = 0 → bit m.st 0 = false → Does .meterSealing s fun t => Quiet s t ∧ bit (shown t) 0 = true ∧ t.meter.led = [] ∧ t.meter.total = 0) ∧
    (s.lifeCycle ≠ 0 ∨ bit m.st 0 = true → exec .meterSealing s = .next s)

/-- The Evonisum port and METER_READ (R408, R437–R443): each request is answered with STATUS, LEN, the payload and its CRC-16; a signed record
has its 280 bytes and is made at most once in 1,000 ticks. -/
def Sys2Proof.Machine.EvonisumResults : Prop :=
  ∀ (s : State) (nonce : Word) (idx tk : Nat) (part : Byte) (img : ParamImage) (addr : BitVec 7) (j : Job) (g : GapRec) (e : MtrEvent) (r : ParRec),
    let m := s.meter
    let frame (t : State) (st : Nat) (body : List Byte) : Prop :=
      let head := [BitVec.ofNat 8 st, BitVec.ofNat 8 body.length, BitVec.ofNat 8 (body.length / 256)] ++ body
      t.reply = head ++ natBytes (crc16 0x1021 0xFFFF (bytesNat head) head.length) 2
    let gets (i : Instr) (st : Nat) (body : List Byte) : Prop := Does i s fun t => Quiet s t ∧ t.meter = m ∧ frame t st body
    let record (i : Instr) (typ ep tick flags : Nat) (body : List Byte) : Prop :=
      (s.signBusy = true → gets i 1 []) ∧
      (s.signBusy = false → Does i s fun t => Quiet s t ∧ t.regs = s.regs ∧ t.meter = { m with signAt := some s.tick } ∧ ∃ sig : List Byte, sig.length = 96 ∧
        frame t 0 (natBytes typ 2 ++ natBytes 280 2 ++ natBytes ep 4 ++ natBytes tick 8 ++ natBytes (s.rf .mtrId 15 0) 2 ++ natBytes m.sum.toNat 2 ++
          natBytes (fld m.st 23 16) 2 ++ natBytes flags 2 ++ body ++ List.replicate (152 - body.length) 0 ++ natBytes nonce.toNat 8 ++ sig))
    let stop := g.stop.getD (0, 0)
    let change : ParRec := { epoch := s.epoch, tick := s.tick, pOld := fld m.st 15 8, pNew := img.pset.toNat, cOld := m.sum.toNat,
                             cNew := img.checksum.toNat }
    let bucket := fld (j.arg 0) 4 0
    gets .ident 0 (natBytes (s.rf .mtrId 15 0) 2 ++ natBytes m.sum.toNat 2 ++ natBytes (fld m.st 15 8) 1 ++ natBytes s.lifeCycle 1 ++
      natBytes (fld m.st 23 16) 2 ++ natBytes s.epoch 4 ++ natBytes Config.serial.toNat 8 ++ natBytes (m.closed.getD 0) 8 ++ natBytes m.flags 4) ∧
    (m.closed = none → gets (.ledger nonce) 5 []) ∧
    (m.closed = some tk → record (.ledger nonce) 1 s.epoch tk m.flags ((List.range 19).flatMap fun b => natBytes (m.led.get 0 b) 8)) ∧
    (m.gaps.length ≤ idx ∨ idx + 1024 < m.gaps.length → gets (.gap idx nonce) 5 []) ∧
    (m.gaps[idx]? = some g → m.gaps.length ≤ idx + 1024 → record (.gap idx nonce) 2 g.epoch g.tick 0 (natBytes g.epoch 4 ++ natBytes g.tick 8 ++
      natBytes stop.1 4 ++ natBytes stop.2 8 ++ natBytes g.cause 1 ++ natBytes g.chan 1)) ∧
    (m.events[idx]? = some e → m.events.length ≤ idx + 1024 → record (.event idx nonce) 3 e.epoch e.tick 0 (natBytes e.code 2 ++ natBytes e.unit 1)) ∧
    (m.events.length ≤ idx → gets (.event idx nonce) 5 []) ∧
    (m.plog[idx]? = some r → record (.paramlog idx nonce) 4 r.epoch r.tick 0 (natBytes r.pOld 1 ++ natBytes r.pNew 1 ++ natBytes r.cOld 2 ++ natBytes r.cNew 2)) ∧
    (m.plog[idx]? = none → gets (.paramlog idx nonce) 5 []) ∧
    gets (.cert part) 0 (if part.toNat < Config.meterCertParts then (List.range 256).map fun i => Config.meterCert (256 * part.toNat + i) else []) ∧
    (s.loadOk img = false → Does (.paramLoad img) s fun t => Quiet s t ∧ t.meter = m ∧ frame t 4 []) ∧
    (s.loadOk img = true → bit m.st 0 = false → Does (.paramLoad img) s fun t => Quiet s t ∧ t.meter = { m with next := some img } ∧ frame t 0 []) ∧
    (s.loadOk img = true → bit m.st 0 = true → Does (.paramLoad img) s fun t => Quiet s t ∧ t.meter.next = some img ∧ frame t 0 [] ∧
      fld t.meter.st 23 16 = fld m.st 23 16 + 1 ∧ t.meter.plog = m.plog ++ [change]) ∧
    Does .evonisumFrameTimeout s (fun t => Quiet s t ∧ t.meter = m ∧ t.reply = s.reply) ∧
    Does (.dynamicAddressAssignment addr) s (fun t => Quiet s t ∧ t.regs = s.regs ∧ t.meter = { m with addr := some addr }) ∧
    (OwnerTurn s j 0x02 → s.cycle < 1600 → j.restZero 1 →
      ((j.arg 0).toNat ≤ 18 → Does (.meterRead .owner) s fun t => Quiet s t ∧
        OwnerGets s t j 0 (s.rg (.mtrLedger (Fin.ofNat 19 bucket))).toNat (s.rf .mtrLedgerTick 47 0) []) ∧
      (18 < (j.arg 0).toNat → (j.arg 0).toNat < 32 → Does (.meterRead .owner) s fun t => Quiet s t ∧ OwnerGets s t j 0x02 24 0 []))

/-- The Meter: feeds, checks, its store, and the Evonisum port. -/
def Obligations.MeterResults : Prop := MeterEventResults ∧ EvonisumResults

/-! ## RAS, reset and boot (R471–R505) -/

/-- What the RAS rules do with an event (R471–R478, R487, R489): a record in the ring, a partition taken down, or the whole package. -/
def Obligations.ErrorEventResults : Prop :=
  ∀ (s : State) (p : Pid) (code : BitVec 16) (unit ppa : Nat) (rec : BbRec),
    let w := s.rf .bbxStatus 11 0
    let stops (t : State) (code : Nat) : Prop := t.fatal = true ∧ t.cores = [] ∧ t.mem = s.mem ∧ t.lines = s.lines ∧
      (s.rf .locFatalCause 15 0 = 0 → t.rg .locFatalCause = BitVec.ofNat 64 (code + s.tick % 2 ^ 48 * 2 ^ 16)) ∧
      (s.rf .locFatalCause 15 0 ≠ 0 → t.rg .locFatalCause = s.rg .locFatalCause)
    Does (.fatal code) s (fun t => stops t code.toNat) ∧
    (s.psc.beat + 1000 < s.tick → Does .pscHeartbeatLoss s fun t => stops t 0x0030) ∧
    (s.tick ≤ s.psc.beat + 1000 → exec .pscHeartbeatLoss s = .next s) ∧
    (s.fatal = false → s.partState p ≠ 5 → Does (.partitionDown p code unit ppa) s fun t => t.partState p = 5 ∧ p.val ∈ t.refused ∧ s.ibi < t.ibi ∧
      (t.psc.parks.get none p.val : Option Park) = none ∧
      ((∀ ln, (s.line ln).queue = []) → s.net.sliceQ = [] → s.psc.jobs = [] → ∀ ln x, (t.line ln).tr = some x → x.req.pid ≠ p)) ∧
    (s.fatal = true ∨ s.partState p = 5 → Does (.partitionDown p code unit ppa) s fun t => Quiet s t ∧ t.psc = s.psc ∧ t.ras = s.ras) ∧
    (s.rb .bbxStatus 13 = false → s.bbx.wrote < 64 → Does (.blackboxRecord rec) s fun t => Quiet s t ∧ t.bbx.recs.get none w = some rec ∧
      t.bbx.wrote = s.bbx.wrote + 1 ∧ (∀ i, i ≠ w → t.bbx.recs.get none i = s.bbx.recs.get none i) ∧
      (rec.sev ≠ 3 → rec.sev ≠ 4 → s.rb .bbxStatus 12 = false → t.rf .bbxStatus 11 0 = (w + 1) % 4096 ∧ t.rb .bbxStatus 12 = false) ∧
      (rec.sev = 3 → s.rb .bbxStatus 12 = false → t.rb .bbxStatus 12 = true ∧ t.rf .bbxStatus 27 16 = w ∧ t.rb .bbxStatus 13 = false) ∧
      (rec.sev = 4 → t.rb .bbxStatus 13 = true ∧ t.bbx.left = 256)) ∧
    (s.rb .bbxStatus 13 = false → 64 ≤ s.bbx.wrote → Does (.blackboxRecord rec) s fun t => Quiet s t ∧ t.bbx.recs = s.bbx.recs ∧
      t.rf .bbxLost 31 0 = min (2 ^ 32 - 1) (s.rf .bbxLost 31 0 + 1)) ∧
    (s.rb .bbxStatus 13 = true → s.bbx.left = 0 → Does (.blackboxRecord rec) s fun t => Quiet s t ∧ t.bbx = s.bbx)

/-- The drains that a reset of these cores and clusters waits for have nothing to do. -/
def Sys2Proof.Machine.Drained (s : State) (ks : List CoreId) (gs : List ClusterId) : Prop :=
  s.noneDeferred ∧ (∀ k ∈ ks, (s.core k).sq = [] ∧ (s.core k).dq = []) ∧ ∀ g ∈ gs, s.l2Lines g = []

/-- A reset of the package: a cold one takes effect at once and keeps memory, the black box's records and the life cycle; a warm one is
ignored in FATAL, ends the owner's descriptors and begins its drains, and at its end keeps the tick number (R38, R446, R491–R493). -/
def Obligations.PackageResetResults : Prop :=
  ∀ (s : State) (cause : ColdCause),
    let starts (t : State) : Prop := t.rstRuns 2 0 = true ∧ Quiet s t ∧ t.ringJobs .owner = []
    let empty (t : State) : Prop := t.cores = [] ∧ t.msgs = [] ∧ t.fatal = false ∧ t.bootStep = 1 ∧ t.lifeCycle = s.lifeCycle
    Does (.coldReset cause) s (fun t => empty t ∧ t.tick = 0 ∧ t.mem = s.mem ∧ t.pending = s.pending ∧ t.bbx.recs = s.bbx.recs ∧
      t.rb .bbxStatus 13 = false ∧ t.epoch = (s.epoch + 1) % 2 ^ 32 ∧ t.meter.led = s.meter.led ∧ t.psc.resets = []) ∧
    (s.fatal = true ∨ s.rstRuns 2 0 = true → exec .warmReset s = .next s) ∧
    (s.fatal = false → s.rstRuns 2 0 = false → s.psc.ownerOut ≠ [] → Does .warmReset s starts) ∧
    (s.fatal = false → s.rstRuns 2 0 = false → s.psc.ownerOut = [] → s.psc.jobs = [] → Does .warmReset s starts) ∧
    (let t := s.warmResetDone
     empty t ∧ t.tick = s.tick ∧ t.rb .pscBootStatus 16 = true ∧
       ((∀ ln c, (s.line ln).l3 = some c → c.err = .none) → t.bbx.recs = s.bbx.recs))

/-- The resets of a core, a partition and a Facet (R326, R412, R491, R494, R495, R505, R538). A core that the test access resets starts again
under PSC_START_CTL unless it was held, which is this model's reading of R491. -/
def Obligations.UnitResetResults : Prop :=
  ∀ (s : State) (k : CoreId) (f : FacetId) (up : StrandId) (j : Job),
    let c := s.core k
    let pk := s.pidOf k
    let start := s.rg (.pscStartCtl pk)
    let ctl : Reg := .coreDbgCtl k
    let may := s.ownsCore pk k = true ∧ s.invasive pk c.inner = true ∧ s.fatal = false ∧ s.rstRuns 0 k.val = false ∧ s.rstRuns 1 pk.val = false ∧
      s.rstRuns 2 0 = false
    let mine := (List.range 216).filterMap fun n => if n / 18 = f.val then some (Fin.ofNat 216 n) else none
    let clus := (List.range 36).filterMap fun g => if g / 3 = f.val then some (Fin.ofNat 36 g) else none
    let facetUp (t : State) : Prop := t.facet f = Facet.empty ∧ (∀ i ∈ mine, t.core i = Core.reset) ∧ (∀ st, t.stState f st = 0) ∧ t.mem = s.mem ∧
      t.rstRuns 3 f.val = false
    let a := j.arg 0
    let p : Pid := Fin.ofNat 16 (fld a 3 0)
    let named := OwnerTurn s j 0x05 ∧ a &&& ~~~ 0x10F#64 = 0 ∧ j.restZero 1
    let gets (c : Nat) (r0 : Nat) : Prop := Does (.partReset .owner) s fun t => Quiet s t ∧ t.regs = s.regs ∧ OwnerGets s t j c r0 0 []
    (¬ may → exec (.coreReset k) s = .next s) ∧
    (may → Drained s [k] [] →
      (c.held = true → Does (.coreReset k) s fun t => t.core k = Core.reset ∧ (∀ i, i ≠ k → t.core i = s.core i) ∧ t.mem = s.mem ∧
        t.lines = s.lines ∧ t.rb ctl 4 = s.rb ctl 4) ∧
      (c.held = false → c.cs ≠ 3 → s.rb ctl 4 = false → s.rf (.pwrStatus (clusterDom (clusterOf k))) 1 0 = 0 → Does (.coreReset k) s fun t =>
        (t.core k).held = false ∧ (t.core k).pc = start &&& 0xFFFFFFFFFFFE ∧ (t.core k).inner = bit start 0 ∧ (t.core k).cs = 0 ∧
        (t.core k).halted = false ∧ (∀ i, i ≠ k → t.core i = s.core i) ∧ t.mem = s.mem ∧ t.lines = s.lines)) ∧
    (s.fatal = true ∨ s.facetDead f = false ∧ s.lifeCycle ≠ 3 → exec (.facetReset f) s = .next s) ∧
    (s.fatal = false → s.rstRuns 3 f.val = false → Drained s mine clus →
      (s.facetDead f = true ∨ s.lifeCycle = 3 → Does (.facetReset f) s facetUp) ∧
      (s.facetPids f = [] → (∀ st, s.stState f st = 0 ∨ s.stState f st = 8) → (∃ st, s.stState f st = 8) → Does (.orderlyFacetReset f) s facetUp)) ∧
    (s.fatal = true ∨ s.facetPids f ≠ [] ∨ (∀ st, s.stState f st ≠ 8) → exec (.orderlyFacetReset f) s = .next s) ∧
    (s.fatal = false → s.facetPids f = [] → (∃ st, s.stState f st = 8) → s.stState f up = 7 → (s.strand f up).closing = none →
      s.strandDrained f up = false → (∀ st, st ≠ up → s.stState f st = 0 ∨ s.stState f st = 8) →
      Does (.orderlyFacetReset f) s fun t => Quiet s t ∧ t.stState f up = 7 ∧ (t.strand f up).closing = some s.now ∧ t.rb (.chdStrandCtl f up) 1 = true ∧
        t.rstRuns 3 f.val = s.rstRuns 3 f.val) ∧
    (named → s.partState p = 0 → gets 0x02 24) ∧
    (named → s.partState p ≠ 0 → s.resizing p.val = false → s.resetting p.val = false → s.facetsBad p = true → gets 0x06 0) ∧
    (named → s.partState p ≠ 0 → s.resizing p.val = true ∨ s.resetting p.val = true → Does (.partReset .owner) s fun t => Quiet s t ∧ t.regs = s.regs ∧
      t.psc.ownerOut = s.psc.ownerOut ∧ { j with phase := 1, aux := [] } ∈ t.psc.jobs) ∧
    (named → s.partState p ≠ 0 → s.resizing p.val = false → s.psc.resets = [] → s.facetsBad p = false → s.ringJobs (.part p) = [] →
      (s.psc.held.get [] p.val : List Compl) = [] → s.portsOf p = [] → s.lines = [] → s.net.sliceQ = [] → Drained s (s.coresOfPart p) [] →
      Does (.partReset .owner) s fun t => OwnerGets s t j 0 0 0 [] ∧ t.partState p = 1 ∧ t.mem = s.mem ∧ (∀ i ∈ s.coresOfPart p, t.core i = Core.reset) ∧
        t.psc.resets = [] ∧ (bit a 8 = true → p.val ∈ t.psc.onHold))

/-- The boot, step by step, with the end of each step's limit (R22, R42, R350, R356, R361, R496–R503). -/
def Obligations.BootResults : Prop :=
  ∀ (s : State) (a b : FwCopy) (up bad : List Nat) (f : FacetId) (st : StrandId) (m : StackId) (cxl dir : List (Nat × Nat)) (rec : List Byte)
    (p : Pid) (image : List Byte) (n ppa : Nat) (o : Nat) (r : LayRec),
    let ok (c : FwCopy) : Prop := c.read = true ∧ c.keyOk = true ∧ c.sigOk = true ∧ s.psc.svn ≤ c.svn.toNat
    let ran (c : FwCopy) (copyB : Bool) (t : State) : Prop := Quiet s t ∧ t.bootStep = 3 ∧ t.rb .pscBootStatus 4 = copyB ∧
      t.rf .pscBootStatus 15 8 = c.svn.toNat ∧ t.psc.svn = max s.psc.svn c.svn.toNat
    let stops (i : Instr) (code : Nat) : Prop := Does i s fun t => t.fatal = true ∧ t.cores = [] ∧ t.mem = s.mem ∧
      (s.rf .locFatalCause 15 0 = 0 → t.rf .locFatalCause 15 0 = code)
    let lanes := s.rg (laneReg f st)
    let trains := 6 * f.val + st.val ∈ up ∧ laneWidth (laneCount (lanes.extractLsb' 0 25)) ≠ 0 ∧ laneWidth (laneCount (lanes.extractLsb' 25 25)) ≠ 0
    let late := s.fatal = false ∧ s.rstRuns 2 0 = false ∧ s.psc.bootAt + s.bootLimit < s.tick
    let build := Instr.bootLayoutBuild rec dir
    let emptied (t : State) : Prop := t.bootStep = 8 ∧ t.mem = s.mem ∧ t.cores = s.cores ∧ t.ibi = s.ibi + 1
    (s.inBoot 1 = false → exec (.bootReferenceCheck true) s = .next s ∧ exec (.bootReferenceCheck false) s = .next s) ∧
    (s.inBoot 1 = true → s.tick < s.psc.bootAt + 16 → exec (.bootReferenceCheck true) s = .next s ∧ exec (.bootReferenceCheck false) s = .next s) ∧
    (s.inBoot 1 = true → s.psc.bootAt + 16 ≤ s.tick → (Does (.bootReferenceCheck true) s fun t => Quiet s t ∧ t.bootStep = 2 ∧ t.rb .locTickStatus 0 = true) ∧
      stops (.bootReferenceCheck false) 0x10) ∧
    (s.inBoot 2 = false → exec (.firmwareAuthentication a b) s = .next s) ∧
    (s.inBoot 2 = true → (ok a → Does (.firmwareAuthentication a b) s (ran a false)) ∧ (¬ ok a → ok b → Does (.firmwareAuthentication a b) s (ran b true)) ∧
      (¬ ok a → ¬ ok b → stops (.firmwareAuthentication a b) 0x1050)) ∧
    (s.inBoot 3 = false → exec (.bootChordTraining up) s = .next s) ∧
    (s.inBoot 3 = true → Does (.bootChordTraining up) s fun t => Quiet s t ∧ t.bootStep = 4 ∧ t.net.routesOn = true ∧
      (s.stState f st = 8 → t.stState f st = 8) ∧ (s.stState f st ≠ 8 → t.stState f st = 7 ∧ trains ∨ t.stState f st = 8 ∧ ¬ trains) ∧
      (t.upStrands f ≠ [] → (t.facet f).runs = true ∧ t.rb (.fctTickStatus f) 0 = true)) ∧
    (s.inBoot 4 = false → exec (.bootHbmTraining bad true) s = .next s) ∧
    (s.inBoot 4 = true → stops (.bootHbmTraining bad false) 0x5023 ∧
      Does (.bootHbmTraining [] true) s fun t => Quiet s t ∧ t.bootStep = 5 ∧ t.rf (.hbmPhyStatus m) 1 0 = 2) ∧
    (s.inBoot 5 = false → exec (.bootMemoryWipe cxl) s = .next s) ∧
    (s.inBoot 5 = true → s.warmBoot = false → Does (.bootMemoryWipe cxl) s fun t => t.mem = [] ∧ t.lines = [] ∧ t.saves = [] ∧ t.cores = s.cores ∧
      (∀ x, s.psc.lcReq = some x → x < 8 → t.lifeCycle = x ∧ t.bbx = BlackBox.empty) ∧ (s.psc.lcReq = none → t.lifeCycle = s.lifeCycle) ∧
      (t.lifeCycle = 4 → t.bootStep = 5) ∧ (t.lifeCycle ≠ 4 → t.bootStep = 6)) ∧
    (s.inBoot 6 = false ∨ (s.getResize 0).isSome = true → exec build s = .next s) ∧
    (s.inBoot 6 = true → s.getResize 0 = none → s.warmBoot = false →
      (s.lifeCycle = 0 → Does build s fun t => Quiet s t ∧ t.bootStep = 8) ∧
      (s.lifeCycle ≠ 0 → s.storedLayout rec = .inl o → Does build s emptied) ∧
      (s.lifeCycle ≠ 0 → s.storedLayout rec = .inr r → s.bootLayoutBad r dir = true → Does build s emptied) ∧
      (s.lifeCycle ≠ 0 → s.storedLayout rec = .inr r → s.bootLayoutBad r dir = false → s.changed r ≠ [] → Does build s fun t => Quiet s t ∧ t.bootStep = 6 ∧
        (t.getResize 0).isSome = true)) ∧
    (s.inBoot 7 = false → exec (.bootImageLoad p image) s = .next s) ∧
    (s.inBoot 7 = true → s.partState p = 1 → p.val ∉ s.psc.release → s.existsPart p.val = true → (s.layout p.val).boot = some (n, ppa) →
      Does (.bootImageLoad p image) s fun t => t.mem = (s.loadImage p ppa image).mem ∧ t.psc.measured.get 0 p.val = sha384 image ∧ p.val ∈ t.psc.release ∧
        t.rf (.pscStartCtl p) 47 1 = ppa % 2 ^ 48 / 2) ∧
    (¬ late ∨ s.bootStep = 8 ∨ s.bootStep = 5 ∧ s.lifeCycle = 4 → exec .bootStepTimeout s = .next s) ∧
    (late → s.bootStep = 1 → stops .bootStepTimeout 0x10) ∧ (late → s.bootStep = 2 → stops .bootStepTimeout 0x1050) ∧
    (late → s.bootStep = 3 → Does .bootStepTimeout s fun t => Quiet s t ∧ t.bootStep = 4 ∧ (s.inResync f = true → t.facet f = Facet.empty) ∧
      (s.inResync f = false → t.facet f = s.facet f)) ∧
    (late → s.bootStep = 4 → stops .bootStepTimeout 0x5023) ∧ (late → s.bootStep = 7 → stops .bootStepTimeout 0x1050) ∧
    (late → s.bootStep = 6 → s.warmBoot = false → Does .bootStepTimeout s fun t => t.bootStep = 8 ∧ t.mem = s.mem ∧ t.getResize 0 = none ∧ t.ibi = s.ibi + 1)

/-- The life cycle and the TAPs (R501–R505): which transition is accepted, what each instruction selects and the life cycle permits, and the
identity code of a die. -/
def Obligations.TestPortResults : Prop :=
  ∀ (s : State) (die : Fin 13) (v : Word) (target : Fin 8) (token : Bool) (f : FacetId),
    let lc := s.lifeCycle
    let powered := s.diePowered die = true
    let selects (i : Instr) (p : Prop) (ir : Nat) (bsr : Word) : Prop :=
      (¬ powered → exec i s = .next s) ∧
      (powered → p → Does i s fun t => Quiet s t ∧ t.regs = s.regs ∧ t.tap die = { ir := ir, bsr := bsr } ∧ ∀ d, d ≠ die → t.tap d = s.tap d) ∧
      (powered → ¬ p → Does i s fun t => Quiet s t ∧ t.regs = s.regs ∧ t.tap die = { s.tap die with ir := 0 } ∧ ∀ d, d ≠ die → t.tap d = s.tap d)
    let pins := (lc = 0 ∨ lc = 1 ∨ lc = 3) ∧ ∀ p, s.partState p ≠ 2
    let old := (s.tap die).bsr
    let follows := (target.val = lc + 1 ∧ target.val ≤ 4) ∨ (target.val = 4 ∧ lc ≠ 4)
    let allowed := follows ∧ ((lc = 0 ∧ target = 1) ∨ (lc = 2 ∧ target = 3) → token = true) ∧ s.rf .bbxStatus 44 32 = 0 ∧ (lc = 0 → bit s.meter.st 0 = true)
    let ask := Instr.lifecycleRequest target token
    Does .tapReset s (fun t => Quiet s t ∧ t.regs = s.regs ∧ ∀ d, t.tap d = Tap.reset) ∧
    selects (.bypass die) True 0 old ∧ selects (.idcode die) True 1 old ∧ selects (.samplePreload die v) (lc ≠ 4) 2 v ∧ selects (.extest die v) pins 3 v ∧
    selects (.clamp die) pins 4 old ∧ selects (.highz die) pins 5 old ∧ selects (.ijtagConnect die) (lc ≠ 4) 6 old ∧
    (powered → Does (.idcode die) s fun t => ∃ x : BitVec 32, t.reply = natBytes x.toNat 4 ∧ x.getLsbD 0 = true ∧ x.extractLsb' 1 11 = Config.mfrId ∧
      x.extractLsb' 12 16 = (if die.val = 12 then 0xD216 else 0xF216) ∧ x.extractLsb' 28 4 = if Config.stepping = 0x11 then 1 else 0) ∧
    (allowed → Does ask s fun t => Quiet s t ∧ t.regs = s.regs ∧ t.psc.lcReq = some target.val ∧ t.reply = [1]) ∧
    (¬ allowed → Does ask s fun t => Quiet s t ∧ t.regs = s.regs ∧ t.psc.lcReq = none ∧ t.reply = [0]) ∧
    (lc ≠ 0 → lc ≠ 3 → exec (.memoryBist .package) s = .next s ∧ exec (.memoryBist (.facet f)) s = .next s) ∧
    (lc = 0 ∨ lc = 3 → Does (.memoryBist .package) s fun t => t.tick = 0 ∧ t.cores = [] ∧ t.lifeCycle = lc) ∧
    (lc = 3 → s.fatal = false → exec (.memoryBist (.facet f)) s = exec (.facetReset f) s)

/-! ## Counters (R514–R522) -/

/-- The dump engine and sampling (R481, R517–R522): a record goes to memory in its stages, a refused write or a wrong number stops the engine,
and a sample is tagged, written to its cluster's ring and counted. The reload of the countdown is free within its range. -/
def Obligations.CounterResults : Prop :=
  ∀ (s : State) (p : Pid) (d : Dump) (x : Snap) (rest : List Snap) (k : CoreId) (pc va : Word) (enc : BitVec 32) (g : ClusterId) (w : World) (v : Word)
    (r : Line) (lines : List Line),
    let ctr : Reg := .ctrStatus p
    let engine (t : State) : Option Dump := t.dumps.get none p.val
    let snaps (t : State) : List Snap := t.snaps.get [] p.val
    let stopped (t : State) : Prop := engine t = none ∧ snaps t = [] ∧ t.rb ctr 0 = false ∧ t.rf ctr 9 8 = 0 ∧ t.mem = s.mem ∧ t.cores = s.cores
    let want := match d.last with | some n => (n + 1) % 2 ^ 32 | none => 0
    let write := Instr.dumpRecordWrite p
    let base := x.cfg.base + x.seq % 2 ^ x.cfg.log2 * x.cfg.reclen
    let idle (ppa n : Nat) : Prop := s.linesBusy p x.cfg.inner ppa n = false
    let waits : Prop := s.linesOk p x.cfg.inner base 1 = true ∧ s.linesBusy p x.cfg.inner base 1 = true
    let refuses (t : State) : Prop := stopped t ∧ t.rb ctr 1 = true ∧ t.coal = coalAdd 0x8020 p (0x40 + p.val) (base / 4096) s.coal
    let puts (ppa : Nat) (bs : List Byte) (q : List Snap) (t : State) : Prop := snaps t = q ∧
      t.mem = (s.writeBytes p x.cfg.inner ppa bs (bs.length / 64 + 1)).mem ∧ t.lines = (s.writeBytes p x.cfg.inner ppa bs (bs.length / 64 + 1)).lines
    let c := s.core k
    let tags := s.runs k = true ∧ s.sampling k = true
    let smpl := c.rsys Srn.smplCtl
    let mean := max 16 (fld smpl 31 8)
    let sampled (t : State) : Prop := 1 ≤ (t.core k).smplCount ∧ (t.core k).smplCount ≤ 2 * mean - 1 ∧ (t.core k).pc = c.pc ∧
      (∀ i, i ≠ k → t.core i = s.core i) ∧ t.mem = s.mem ∧ t.regs = s.regs
    let ctl : Reg := .cluSmplCtl g
    let n := 2 ^ s.rf ctl 5 1
    let tail := s.rf (.cluSmplPos g) 15 0
    let full := (tail + 1) % n = s.rf (.cluSmplHead g) 15 0
    let ppa := s.rf (.cluSmplBase g) 47 6 * 64 + 64 * tail
    let buf : List Line := s.smplBuf.get [] g.val
    let denied := s.rb ctl 6 = true ∧ w = .outer
    (engine s = none → exec (.dumpSeqAudit p) s = .next s) ∧
    (engine s = some d → s.rf ctr 63 32 = want → exec (.dumpSeqAudit p) s = .next s) ∧
    (engine s = some d → s.rf ctr 63 32 ≠ want → Does (.dumpSeqAudit p) s fun t => stopped t ∧ t.rb ctr 2 = true) ∧
    (snaps s = [] ∨ s.partState p = 5 → exec write s = .next s) ∧
    (snaps s = x :: rest → s.partState p ≠ 5 → p.val ∉ s.refused →
      (x.stage = 0 → s.linesOk p x.cfg.inner base 1 = true → idle base 1 → Does write s (puts base (x.header 0xFFFFFFFF) ({ x with stage := 1 } :: rest))) ∧
      (x.stage = 1 → x.missed = false → x.body ≠ [] → s.linesOk p x.cfg.inner (base + 64) (x.body.length / 64) = true →
        idle (base + 64) ((x.body.length + 63) / 64) → Does write s (puts (base + 64) x.body ({ x with stage := 2 } :: rest))) ∧
      (x.stage = 2 → s.linesOk p x.cfg.inner base 1 = true → idle base 1 → Does write s fun t => puts base (x.header x.seq) rest t ∧
        (engine s = some d → d.t0 = x.cfg.t0 → engine t = some { d with last := some x.seq } ∧ t.rf ctr 63 32 = (x.seq + 1) % 2 ^ 32)) ∧
      (x.stage = 0 ∨ x.stage = 2 → waits → exec write s = .next s) ∧
      (x.stage = 0 ∨ x.stage = 2 → s.linesOk p x.cfg.inner base 1 = false → Does write s refuses)) ∧
    (snaps s = x :: rest → s.partState p ≠ 5 → p.val ∈ s.refused → x.stage = 0 ∨ x.stage = 2 → Does write s refuses) ∧
    (¬ tags → exec (.sampleTag k pc va enc) s = .next s) ∧
    (tags → c.tagged = none → Does (.sampleTag k pc va enc) s fun t => sampled t ∧ (t.core k).tagged = some { pc := pc, va := va, enc := enc } ∧
      (t.core k).rsys Srn.smplCtl = smpl) ∧
    (tags → c.tagged.isSome = true → Does (.sampleTag k pc va enc) s fun t => sampled t ∧ (t.core k).tagged = c.tagged ∧
      fld ((t.core k).rsys Srn.smplCtl) 63 32 = min (2 ^ 32 - 1) (fld smpl 63 32 + 1) ∧ fld ((t.core k).rsys Srn.smplCtl) 31 0 = fld smpl 31 0) ∧
    (buf = [] ∨ s.rb ctl 0 = false ∨ full → exec (.sampleRingWrite g) s = .next s) ∧
    (buf = r :: lines → s.owner g = some p → s.rb ctl 0 = true → ¬ full → p.val ∉ s.refused →
      (s.linesBusy p (s.rb ctl 6) ppa 1 = true → exec (.sampleRingWrite g) s = .next s) ∧
      (s.linesOk p (s.rb ctl 6) ppa 1 = true → s.linesBusy p (s.rb ctl 6) ppa 1 = false → Does (.sampleRingWrite g) s fun t => (t.smplBuf.get [] g.val : List Line) = lines ∧
        t.rf (.cluSmplPos g) 15 0 = (tail + 1) % n % 65536 ∧ t.mem = (s.writeLine p (s.rb ctl 6) ppa r (BitVec.allOnes 64)).mem) ∧
      (s.linesOk p (s.rb ctl 6) ppa 1 = false → Does (.sampleRingWrite g) s fun t => t.rb ctl 0 = false ∧ t.rb ctl 7 = true ∧ t.mem = s.mem ∧
        t.coal = coalAdd 0x8020 p (0x40 + p.val) (ppa / 4096) s.coal)) ∧
    (bit v 0 = false → exec (.sampleRingEnable g w v) s = .next s) ∧
    (bit v 0 = true → denied → Does (.sampleRingEnable g w v) s fun t => Quiet s t ∧ t.rg ctl = s.rg ctl) ∧
    (bit v 0 = true → ¬ denied → fld v 5 1 < 4 ∨ 16 < fld v 5 1 → exec (.sampleRingEnable g w v) s = .next s) ∧
    (bit v 0 = true → ¬ denied → 4 ≤ fld v 5 1 → fld v 5 1 ≤ 16 → Does (.sampleRingEnable g w v) s fun t => Quiet s t ∧ t.rb ctl 0 = true ∧
      t.rf ctl 5 1 = fld v 5 1 ∧ (s.rb ctl 0 = false → t.rb ctl 6 = decide (w = .inner) ∧ t.rg (.cluSmplHead g) = 0 ∧ t.rg (.cluSmplPos g) = 0))

/-! ## The block (R5, R47) -/

/-- The block right after reset (R5): every register reads its reset value, every core is held, no byte of memory is other than zero, no line has
a copy, no command and no message waits. The content of memory is this model's choice. -/
def Obligations.ResetState : Prop :=
  State.reset.memOk ∧ (∀ r, State.reset.rg r = r.reset) ∧ (∀ k, State.reset.core k = Core.reset) ∧ (∀ da, State.reset.rdByte da = 0) ∧
  (∀ ln g, State.reset.copy ln g = none) ∧ (∀ p, State.reset.partState p = 0) ∧ State.reset.bootStep = 1 ∧ State.reset.tick = 0 ∧
  State.reset.pending = [] ∧ State.reset.msgs = [] ∧ State.reset.fatal = false ∧ State.reset.noneDeferred ∧ step State.reset = .next { State.reset with cycle := 1 }

/-- Every step keeps memory in its canonical form, whatever command waits and whatever state it meets: rising addresses, and no byte listed
that reads as an unlisted one does. -/
def Obligations.MemoryStaysCanonical : Prop := ∀ s t : State, s.memOk → step s = .next t → t.memOk
end

