-- ==== Sys2Proof/Laws/Encoding.lean ====
section
/-! SUPPORT. Laws of the encoding: what each field of a word of each format reads as. -/

namespace Sys2Proof.Machine

/-- The fields of an L-R word. -/
theorem lR_fields (maj fn rt rs rd : Nat) (h0 : maj < 64) (h1 : rd < 32) (h2 : rs < 32) (h3 : rt < 32) (h4 : fn < 512) :
    let w := 3 + 2 ^ 2 * maj + 2 ^ 8 * rd + 2 ^ 13 * rs + 2 ^ 18 * rt + 2 ^ 23 * fn
    w < 2 ^ 32 ∧ w % 4 = 3 ∧ ib w 7 2 = maj ∧ ib w 12 8 = rd ∧ ib w 17 13 = rs ∧ ib w 22 18 = rt ∧ ib w 31 23 = fn := by
  simp only [ib]; omega

/-- The fields of an L-R4 word. -/
theorem lR4_fields (maj ra p rm rt rs rd : Nat) (h0 : maj < 64) (h1 : rd < 32) (h2 : rs < 32) (h3 : rt < 32) (h4 : rm < 8) (h5 : p < 2)
    (h6 : ra < 32) :
    let w := 3 + 2 ^ 2 * maj + 2 ^ 8 * rd + 2 ^ 13 * rs + 2 ^ 18 * rt + 2 ^ 23 * rm + 2 ^ 26 * p + 2 ^ 27 * ra
    w < 2 ^ 32 ∧ w % 4 = 3 ∧ ib w 7 2 = maj ∧ ib w 12 8 = rd ∧ ib w 17 13 = rs ∧ ib w 22 18 = rt ∧ ib w 25 23 = rm ∧ ib w 26 26 = p ∧
      ib w 31 27 = ra := by
  simp only [ib]; omega

/-- The fields of an L-I word. -/
theorem lI_fields (maj imm rs rd : Nat) (h0 : maj < 64) (h1 : rd < 32) (h2 : rs < 32) (h3 : imm < 2 ^ 14) :
    let w := 3 + 2 ^ 2 * maj + 2 ^ 8 * rd + 2 ^ 13 * rs + 2 ^ 18 * imm
    w < 2 ^ 32 ∧ w % 4 = 3 ∧ ib w 7 2 = maj ∧ ib w 12 8 = rd ∧ ib w 17 13 = rs ∧ ib w 31 18 = imm := by
  simp only [ib]; omega

/-- The fields of an L-M word. -/
theorem lM_fields (maj off p ab rt : Nat) (h0 : maj < 64) (h1 : rt < 32) (h2 : ab < 16) (h3 : p < 2) (h4 : off < 2 ^ 14) :
    let w := 3 + 2 ^ 2 * maj + 2 ^ 8 * rt + 2 ^ 13 * ab + 2 ^ 17 * p + 2 ^ 18 * off
    w < 2 ^ 32 ∧ w % 4 = 3 ∧ ib w 7 2 = maj ∧ ib w 12 8 = rt ∧ ib w 16 13 = ab ∧ ib w 17 17 = p ∧ ib w 31 18 = off := by
  simp only [ib]; omega

/-- The fields of an L-U or L-B word. -/
theorem lU_fields (maj imm rd : Nat) (h0 : maj < 64) (h1 : rd < 32) (h2 : imm < 2 ^ 19) :
    let w := 3 + 2 ^ 2 * maj + 2 ^ 8 * rd + 2 ^ 13 * imm
    w < 2 ^ 32 ∧ w % 4 = 3 ∧ ib w 7 2 = maj ∧ ib w 12 8 = rd ∧ ib w 31 13 = imm := by
  simp only [ib]; omega

/-- The fields of an L-J word. -/
theorem lJ_fields (maj off : Nat) (h0 : maj < 64) (h1 : off < 2 ^ 24) :
    let w := 3 + 2 ^ 2 * maj + 2 ^ 8 * off
    w < 2 ^ 32 ∧ w % 4 = 3 ∧ ib w 7 2 = maj ∧ ib w 31 8 = off := by
  simp only [ib]; omega

/-- The fields of an S-RR halfword; the halfword after it does not matter. -/
theorem sRR_fields (sg op d s fn hi : Nat) (h0 : sg < 3) (h1 : op < 8) (h2 : fn < 8) (h3 : s < 16) (h4 : d < 16) :
    let w := sg + 2 ^ 2 * op + 2 ^ 5 * fn + 2 ^ 8 * s + 2 ^ 12 * d + 2 ^ 16 * hi
    w % 2 ^ 16 = sg + 2 ^ 2 * op + 2 ^ 5 * fn + 2 ^ 8 * s + 2 ^ 12 * d ∧ w % 4 = sg ∧ ib w 4 2 = op ∧ ib w 7 5 = fn ∧ ib w 11 8 = s ∧
      ib w 15 12 = d := by
  simp only [ib]; omega

/-- The fields of an S-RI, S-B or S-SP halfword. -/
theorem sRI_fields (sg op d imm hi : Nat) (h0 : sg < 3) (h1 : op < 8) (h2 : imm < 128) (h3 : d < 16) :
    let w := sg + 2 ^ 2 * op + 2 ^ 5 * imm + 2 ^ 12 * d + 2 ^ 16 * hi
    w % 2 ^ 16 = sg + 2 ^ 2 * op + 2 ^ 5 * imm + 2 ^ 12 * d ∧ w % 4 = sg ∧ ib w 4 2 = op ∧ ib w 11 5 = imm ∧ ib w 15 12 = d := by
  simp only [ib]; omega

/-- The fields of an S-LS halfword. -/
theorem sLS_fields (sg op t ab off p hi : Nat) (h0 : sg < 3) (h1 : op < 8) (h2 : p < 2) (h3 : off < 8) (h4 : ab < 8) (h5 : t < 16) :
    let w := sg + 2 ^ 2 * op + 2 ^ 5 * p + 2 ^ 6 * off + 2 ^ 9 * ab + 2 ^ 12 * t + 2 ^ 16 * hi
    w % 4 = sg ∧ ib w 4 2 = op ∧ ib w 5 5 = p ∧ ib w 8 6 = off ∧ ib w 11 9 = ab ∧ ib w 15 12 = t := by
  simp only [ib]; omega

/-- The fields of an S-J halfword. -/
theorem sJ_fields (sg op imm hi : Nat) (h0 : sg < 3) (h1 : op < 8) (h2 : imm < 2 ^ 11) :
    let w := sg + 2 ^ 2 * op + 2 ^ 5 * imm + 2 ^ 16 * hi
    w % 4 = sg ∧ ib w 4 2 = op ∧ ib w 15 5 = imm := by
  simp only [ib]; omega

/-- The fields of an S-AI or S-MISC halfword. -/
theorem sAI_fields (sg op d imm hi : Nat) (h0 : sg < 3) (h1 : op < 8) (h2 : imm < 256) (h3 : d < 8) :
    let w := sg + 2 ^ 2 * op + 2 ^ 5 * imm + 2 ^ 13 * d + 2 ^ 16 * hi
    w % 4 = sg ∧ ib w 4 2 = op ∧ ib w 12 5 = imm ∧ ib w 15 13 = d ∧ ib w 12 10 = imm / 32 ∧ ib w 9 7 = imm / 4 % 8 ∧ ib w 9 5 = imm % 32 ∧
      ib w 6 5 = imm % 4 := by
  simp only [ib]; omega

/-- The fields of an S-AD halfword. -/
theorem sAD_fields (sg op d s fn hi : Nat) (h0 : sg < 3) (h1 : op < 8) (h2 : fn < 16) (h3 : s < 16) (h4 : d < 8) :
    let w := sg + 2 ^ 2 * op + 2 ^ 5 * fn + 2 ^ 9 * s + 2 ^ 13 * d + 2 ^ 16 * hi
    w % 4 = sg ∧ ib w 4 2 = op ∧ ib w 8 5 = fn ∧ ib w 12 9 = s ∧ ib w 15 13 = d := by
  simp only [ib]; omega

/-- The length that the first halfword decides is 2 or 4 bytes (R81). -/
theorem kosalLen_two_or_four (w : Nat) : kosalLen w = 2 ∨ kosalLen w = 4 := by unfold kosalLen; split <;> simp

end Sys2Proof.Machine
end

