-- ==== Sys2Proof/Laws/Table.lean ====
section
/-! SUPPORT. Laws of sparse tables: what a key reads after a write, and that every operation keeps the canonical form. -/

namespace Sys2Proof.Machine

/-! ## Reading after writing -/

@[simp] theorem Tbl.get_nil {α : Type} (d : α) (k : Nat) : Tbl.get d [] k = d := rfl

@[simp] theorem Tbl.get_put_same {α : Type} (d : α) (t : Tbl α) (k : Nat) (x : α) : (t.put k x).get d k = x := by
  induction t with
  | nil => simp [Tbl.put, Tbl.get]
  | cons e t ih =>
    simp only [Tbl.put]
    split
    · simp [Tbl.get]
    · split
      · simp [Tbl.get]
      · simp [Tbl.get, *]

theorem Tbl.get_put_other {α : Type} (d : α) (t : Tbl α) (k j : Nat) (x : α) (h : j ≠ k) : (t.put k x).get d j = t.get d j := by
  induction t with
  | nil => simp [Tbl.put, Tbl.get, h]
  | cons e t ih =>
    simp only [Tbl.put]
    split
    · rename_i hk; subst hk; simp [Tbl.get, h]
    · split
      · simp [Tbl.get, h]
      · simp [Tbl.get, ih]

@[simp] theorem Tbl.get_del_same {α : Type} (d : α) (t : Tbl α) (k : Nat) : (t.del k).get d k = d := by
  induction t with
  | nil => rfl
  | cons e t ih =>
    simp only [Tbl.del]
    split
    · exact ih
    · simp [Tbl.get, *]

theorem Tbl.get_del_other {α : Type} (d : α) (t : Tbl α) (k j : Nat) (h : j ≠ k) : (t.del k).get d j = t.get d j := by
  induction t with
  | nil => rfl
  | cons e t ih =>
    simp only [Tbl.del]
    split
    · rename_i hk; subst hk; simp [Tbl.get, h, ih]
    · simp [Tbl.get, ih]

@[simp] theorem Tbl.get_set_same {α : Type} [DecidableEq α] (d : α) (t : Tbl α) (k : Nat) (x : α) : (Tbl.set d t k x).get d k = x := by
  unfold Tbl.set
  split
  · simp [*]
  · simp

theorem Tbl.get_set_other {α : Type} [DecidableEq α] (d e : α) (t : Tbl α) (k j : Nat) (x : α) (h : j ≠ k) :
    (Tbl.set e t k x).get d j = t.get d j := by
  unfold Tbl.set
  split
  · exact Tbl.get_del_other d t k j h
  · exact Tbl.get_put_other d t k j x h

theorem Tbl.get_set {α : Type} [DecidableEq α] (d : α) (t : Tbl α) (k j : Nat) (x : α) :
    (Tbl.set d t k x).get d j = if j = k then x else t.get d j := by
  split
  · simp [*]
  · exact Tbl.get_set_other d d t k j x ‹_›

/-! ## The canonical form -/

theorem Tbl.rising_mono {α : Type} {a b : Nat} (h : a ≤ b) : (t : Tbl α) → Tbl.rising b t = true → Tbl.rising a t = true
  | [], _ => rfl
  | e :: t, hr => by
    simp only [Tbl.rising, Bool.and_eq_true, decide_eq_true_eq] at *
    exact ⟨Nat.le_trans h hr.1, hr.2⟩

theorem Tbl.rising_del {α : Type} (k : Nat) : (b : Nat) → (t : Tbl α) → Tbl.rising b t = true → Tbl.rising b (t.del k) = true
  | _, [], _ => rfl
  | b, e :: t, h => by
    simp only [Tbl.rising, Bool.and_eq_true, decide_eq_true_eq] at h
    simp only [Tbl.del]
    split
    · exact Tbl.rising_mono (by omega) _ (Tbl.rising_del k (e.1 + 1) t h.2)
    · simp only [Tbl.rising, Bool.and_eq_true, decide_eq_true_eq]; exact ⟨h.1, Tbl.rising_del k _ t h.2⟩

theorem Tbl.rising_put {α : Type} (k : Nat) (x : α) : (b : Nat) → (t : Tbl α) → b ≤ k → Tbl.rising b t = true → Tbl.rising b (t.put k x) = true
  | _, [], hb, _ => by simp [Tbl.put, Tbl.rising, hb]
  | b, e :: t, hb, h => by
    simp only [Tbl.rising, Bool.and_eq_true, decide_eq_true_eq] at h
    simp only [Tbl.put]
    split
    · rename_i hk; subst hk; simp [Tbl.rising, hb, h.2]
    · split
      · simp only [Tbl.rising, Bool.and_eq_true, decide_eq_true_eq]; exact ⟨hb, by omega, h.2⟩
      · simp only [Tbl.rising, Bool.and_eq_true, decide_eq_true_eq]; exact ⟨h.1, Tbl.rising_put k x _ t (by omega) h.2⟩

theorem Tbl.rising_filter {α : Type} (f : Nat × α → Bool) : (b : Nat) → (t : Tbl α) → Tbl.rising b t = true → Tbl.rising b (t.filter f) = true
  | _, [], _ => rfl
  | b, e :: t, h => by
    simp only [Tbl.rising, Bool.and_eq_true, decide_eq_true_eq] at h
    simp only [List.filter]
    split
    · simp only [Tbl.rising, Bool.and_eq_true, decide_eq_true_eq]; exact ⟨h.1, Tbl.rising_filter f _ t h.2⟩
    · exact Tbl.rising_mono (by omega) _ (Tbl.rising_filter f _ t h.2)

theorem Tbl.mem_del {α : Type} {k : Nat} {e : Nat × α} : {t : Tbl α} → e ∈ t.del k → e ∈ t
  | [], h => h
  | x :: t, h => by
    simp only [Tbl.del] at h
    split at h
    · exact List.mem_cons_of_mem _ (Tbl.mem_del h)
    · rcases List.mem_cons.mp h with h | h
      · exact h ▸ List.mem_cons_self
      · exact List.mem_cons_of_mem _ (Tbl.mem_del h)

theorem Tbl.mem_put {α : Type} {k : Nat} {x : α} {e : Nat × α} : {t : Tbl α} → e ∈ t.put k x → e = (k, x) ∨ e ∈ t
  | [], h => .inl (by simpa [Tbl.put] using h)
  | y :: t, h => by
    simp only [Tbl.put] at h
    split at h
    · rcases List.mem_cons.mp h with h | h
      · exact .inl h
      · exact .inr (List.mem_cons_of_mem _ h)
    · split at h
      · rcases List.mem_cons.mp h with h | h
        · exact .inl h
        · exact .inr h
      · rcases List.mem_cons.mp h with h | h
        · exact .inr (h ▸ List.mem_cons_self)
        · exact (Tbl.mem_put h).imp id (List.mem_cons_of_mem _)

theorem Tbl.wf_nil {α : Type} [DecidableEq α] (d : Nat → α) : Tbl.wf d [] = true := rfl

theorem Tbl.wf_del {α : Type} [DecidableEq α] {d : Nat → α} {t : Tbl α} (h : Tbl.wf d t = true) (k : Nat) : Tbl.wf d (t.del k) = true := by
  simp only [Tbl.wf, Bool.and_eq_true, List.all_eq_true] at *
  exact ⟨Tbl.rising_del k 0 t h.1, fun e he => h.2 e (Tbl.mem_del he)⟩

theorem Tbl.wf_put {α : Type} [DecidableEq α] {d : Nat → α} {t : Tbl α} (h : Tbl.wf d t = true) (k : Nat) (x : α) (hx : x ≠ d k) :
    Tbl.wf d (t.put k x) = true := by
  simp only [Tbl.wf, Bool.and_eq_true, List.all_eq_true] at *
  refine ⟨Tbl.rising_put k x 0 t (Nat.zero_le k) h.1, fun e he => ?_⟩
  rcases Tbl.mem_put he with rfl | he
  · simpa using hx
  · exact h.2 e he

/-- A write keeps the canonical form. -/
theorem Tbl.wf_set {α : Type} [DecidableEq α] {d : Nat → α} {t : Tbl α} (h : Tbl.wf d t = true) (k : Nat) (x : α) :
    Tbl.wf d (Tbl.set (d k) t k x) = true := by
  unfold Tbl.set
  split
  · exact Tbl.wf_del h k
  · exact Tbl.wf_put h k x ‹_›

/-- Dropping entries keeps the canonical form. -/
theorem Tbl.wf_filter {α : Type} [DecidableEq α] {d : Nat → α} {t : Tbl α} (h : Tbl.wf d t = true) (f : Nat × α → Bool) :
    Tbl.wf d (t.filter f) = true := by
  simp only [Tbl.wf, Bool.and_eq_true, List.all_eq_true] at *
  exact ⟨Tbl.rising_filter f 0 t h.1, fun e he => h.2 e (List.mem_filter.mp he).1⟩

/-- A key that no entry has reads the default. -/
theorem Tbl.get_of_not_mem {α : Type} (d : α) (k : Nat) : (t : Tbl α) → (∀ e ∈ t, e.1 ≠ k) → t.get d k = d
  | [], _ => rfl
  | e :: t, h => by
    have h1 := h e List.mem_cons_self
    have h2 := Tbl.get_of_not_mem d k t fun x hx => h x (List.mem_cons_of_mem _ hx)
    simp [Tbl.get, Ne.symm h1, h2]

/-- Dropping the entries of some keys: those keys read the default, the others as before. -/
theorem Tbl.get_filter_key {α : Type} (d : α) (g : Nat → Bool) (k : Nat) : (t : Tbl α) → Tbl.get d (t.filter fun e => g e.1) k = if g k then t.get d k else d
  | [] => by simp [Tbl.get]
  | e :: t => by
    have ih := Tbl.get_filter_key d g k t
    simp only [List.filter]
    split
    · by_cases hk : k = e.1
      · subst hk; simp [Tbl.get, *]
      · simp [Tbl.get, hk, ih]
    · by_cases hk : k = e.1
      · subst hk; rw [ih]; simp [*]
      · simp [Tbl.get, hk, ih]

end Sys2Proof.Machine
end

