-- ==== Sys2Proof/Laws/Memory.lean ====
section
/-! SUPPORT. Laws of memory (R47): a read after a write, what a write leaves alone, and that every operation over memory keeps its canonical
form. -/

namespace Sys2Proof.Machine

/-! ## The canonical form -/

/-- Only the bytes count. -/
theorem memOk_of_mem_eq {s t : State} (h : t.mem = s.mem) (hs : s.memOk) : t.memOk := by unfold State.memOk; rw [h]; exact hs

theorem Memory.wf_set {m : List Host.Cell} (h : Memory.wf m = true) (a : Nat) (b : Byte) : Memory.wf (Tbl.set memZero m a b) = true :=
  Tbl.wf_set (d := fun _ => memZero) h a b

theorem Memory.wf_memWrite : (n : Nat) → (m : List Host.Cell) → (a v : Nat) → Memory.wf m = true → Memory.wf (memWrite m a n v) = true
  | 0, _, _, _, h => h
  | n + 1, _, a, v, h => Memory.wf_memWrite n _ (a + 1) (v / 256) (Memory.wf_set h a _)

theorem memOk_wrByte {s : State} (h : s.memOk) (da : Nat) (b : Byte) : (s.wrByte da b).memOk := Memory.wf_set h da b
theorem memOk_setMemLine {s : State} (h : s.memOk) (ln : Nat) (v : Line) : (s.setMemLine ln v).memOk := Memory.wf_memWrite 64 s.mem _ _ h
theorem Memory.wf_filter {m : List Host.Cell} (h : Memory.wf m = true) (f : Host.Cell → Bool) : Memory.wf (m.filter f) = true :=
  Tbl.wf_filter (d := fun _ => memZero) h f
theorem memOk_nil {s : State} (h : s.mem = []) : s.memOk := by unfold State.memOk; rw [h]; rfl

/-! ## One byte -/

@[simp] theorem rdByte_wrByte_same (s : State) (da : Nat) (b : Byte) : (s.wrByte da b).rdByte da = b := Tbl.get_set_same ..
theorem rdByte_wrByte_other (s : State) (da x : Nat) (b : Byte) (h : x ≠ da) : (s.wrByte da b).rdByte x = s.rdByte x :=
  Tbl.get_set_other _ _ _ _ _ _ h
theorem rdByte_of_mem_eq {s t : State} (h : t.mem = s.mem) (da : Nat) : t.rdByte da = s.rdByte da := by unfold State.rdByte; rw [h]

/-! ## Runs of bytes -/

theorem memWrite_get_other (x : Nat) : (n : Nat) → (m : List Host.Cell) → (a v : Nat) → (x < a ∨ a + n ≤ x) →
    Tbl.get memZero (memWrite m a n v) x = Tbl.get memZero m x
  | 0, _, _, _, _ => rfl
  | n + 1, m, a, v, h => by
    rw [memWrite, memWrite_get_other x n _ (a + 1) (v / 256) (by omega)]
    exact Tbl.get_set_other _ _ _ _ _ _ (by omega)

theorem memWrite_get (i : Nat) : (n : Nat) → (m : List Host.Cell) → (a v : Nat) → i < n →
    Tbl.get memZero (memWrite m a n v) (a + i) = BitVec.ofNat 8 (v / 256 ^ i)
  | 0, _, _, _, h => by omega
  | n + 1, m, a, v, h => by
    rw [memWrite]
    cases i with
    | zero => show Tbl.get memZero _ a = _; rw [memWrite_get_other a n _ (a + 1) _ (by omega)]; simp
    | succ i =>
      have := memWrite_get i n (Tbl.set memZero m a (BitVec.ofNat 8 v)) (a + 1) (v / 256) (by omega)
      rw [show a + (i + 1) = a + 1 + i by omega, this, Nat.pow_succ, Nat.mul_comm, ← Nat.div_div_eq_div_mul]

/-- The bytes that a run reads decide it. -/
theorem memRead_congr : (n : Nat) → (m m' : List Host.Cell) → (a : Nat) → (∀ x, a ≤ x → x < a + n → Tbl.get memZero m' x = Tbl.get memZero m x) →
    memRead m' a n = memRead m a n
  | 0, _, _, _, _ => rfl
  | n + 1, m, m', a, h => by
    rw [memRead, memRead, h a (by omega) (by omega), memRead_congr n m m' (a + 1) fun x h1 h2 => h x (by omega) (by omega)]

theorem memRead_memWrite_same : (n : Nat) → (m : List Host.Cell) → (a v : Nat) → memRead (memWrite m a n v) a n = v % 256 ^ n
  | 0, _, _, v => by simp [memRead, Nat.mod_one]
  | n + 1, m, a, v => by
    rw [memWrite, memRead, memRead_memWrite_same n _ (a + 1) (v / 256), memWrite_get_other a n _ (a + 1) _ (by omega), Tbl.get_set_same,
      BitVec.toNat_ofNat, show (256 : Nat) ^ (n + 1) = 256 * 256 ^ n from Nat.pow_succ', Nat.mod_mul]

theorem memRead_memWrite_other (n k : Nat) (m : List Host.Cell) (a b v : Nat) (h : b + k ≤ a ∨ a + n ≤ b) :
    memRead (memWrite m a n v) b k = memRead m b k :=
  memRead_congr k _ _ _ fun x h1 h2 => memWrite_get_other x n m a v (by omega)

/-! ## Lines -/

@[simp] theorem memLine_setMemLine_same (s : State) (ln : Nat) (v : Line) : (s.setMemLine ln v).memLine ln = v := by
  have h : (256 : Nat) ^ 64 = 2 ^ 512 := by rw [show (256 : Nat) = 2 ^ 8 from rfl, ← Nat.pow_mul]
  apply BitVec.eq_of_toNat_eq
  simp only [State.memLine, State.setMemLine, memRead_memWrite_same, BitVec.toNat_ofNat, h, Nat.mod_mod]
  exact Nat.mod_eq_of_lt v.isLt

theorem memLine_setMemLine_other (s : State) (ln j : Nat) (v : Line) (h : j ≠ ln) : (s.setMemLine ln v).memLine j = s.memLine j := by
  simp only [State.memLine, State.setMemLine]
  rw [memRead_memWrite_other]
  omega

/-- Every byte outside the line is as before. -/
theorem rdByte_setMemLine_other (s : State) (ln da : Nat) (v : Line) (h : da / 64 ≠ ln) : (s.setMemLine ln v).rdByte da = s.rdByte da :=
  memWrite_get_other da 64 s.mem (64 * ln) v.toNat (by omega)

/-- A byte of the line is the line's byte. -/
theorem rdByte_setMemLine_same (s : State) (ln i : Nat) (v : Line) (h : i < 64) :
    (s.setMemLine ln v).rdByte (64 * ln + i) = BitVec.ofNat 8 (v.toNat / 256 ^ i) :=
  memWrite_get i 64 s.mem (64 * ln) v.toNat h

end Sys2Proof.Machine
end

