-- ==== Sys2Proof/Laws/State.lean ====
section
/-! SUPPORT. Laws of the state's updates: every field under every update that changes another one, and what a named piece of state reads after
it was written. -/

namespace Sys2Proof.Machine

/-! ## rgSet -/

@[simp] theorem rgSet_pending (s : State) (r : Reg) (v : Word) : (s.rgSet r v).pending = s.pending := rfl
@[simp] theorem rgSet_free (s : State) (r : Reg) (v : Word) : (s.rgSet r v).free = s.free := rfl
@[simp] theorem rgSet_cycle (s : State) (r : Reg) (v : Word) : (s.rgSet r v).cycle = s.cycle := rfl
@[simp] theorem rgSet_mem (s : State) (r : Reg) (v : Word) : (s.rgSet r v).mem = s.mem := rfl
@[simp] theorem rgSet_lines (s : State) (r : Reg) (v : Word) : (s.rgSet r v).lines = s.lines := rfl
@[simp] theorem rgSet_l2Lru (s : State) (r : Reg) (v : Word) : (s.rgSet r v).l2Lru = s.l2Lru := rfl
@[simp] theorem rgSet_hresv (s : State) (r : Reg) (v : Word) : (s.rgSet r v).hresv = s.hresv := rfl
@[simp] theorem rgSet_tlbOwed (s : State) (r : Reg) (v : Word) : (s.rgSet r v).tlbOwed = s.tlbOwed := rfl
@[simp] theorem rgSet_cores (s : State) (r : Reg) (v : Word) : (s.rgSet r v).cores = s.cores := rfl
@[simp] theorem rgSet_facets (s : State) (r : Reg) (v : Word) : (s.rgSet r v).facets = s.facets := rfl
@[simp] theorem rgSet_marker (s : State) (r : Reg) (v : Word) : (s.rgSet r v).marker = s.marker := rfl
@[simp] theorem rgSet_refBad (s : State) (r : Reg) (v : Word) : (s.rgSet r v).refBad = s.refBad := rfl
@[simp] theorem rgSet_net (s : State) (r : Reg) (v : Word) : (s.rgSet r v).net = s.net := rfl
@[simp] theorem rgSet_latch (s : State) (r : Reg) (v : Word) : (s.rgSet r v).latch = s.latch := rfl
@[simp] theorem rgSet_chord (s : State) (r : Reg) (v : Word) : (s.rgSet r v).chord = s.chord := rfl
@[simp] theorem rgSet_hbm (s : State) (r : Reg) (v : Word) : (s.rgSet r v).hbm = s.hbm := rfl
@[simp] theorem rgSet_msgs (s : State) (r : Reg) (v : Word) : (s.rgSet r v).msgs = s.msgs := rfl
@[simp] theorem rgSet_bbx (s : State) (r : Reg) (v : Word) : (s.rgSet r v).bbx = s.bbx := rfl
@[simp] theorem rgSet_coal (s : State) (r : Reg) (v : Word) : (s.rgSet r v).coal = s.coal := rfl
@[simp] theorem rgSet_ras (s : State) (r : Reg) (v : Word) : (s.rgSet r v).ras = s.ras := rfl
@[simp] theorem rgSet_rasSeq (s : State) (r : Reg) (v : Word) : (s.rgSet r v).rasSeq = s.rasSeq := rfl
@[simp] theorem rgSet_ipi (s : State) (r : Reg) (v : Word) : (s.rgSet r v).ipi = s.ipi := rfl
@[simp] theorem rgSet_wakeO (s : State) (r : Reg) (v : Word) : (s.rgSet r v).wakeO = s.wakeO := rfl
@[simp] theorem rgSet_wakeI (s : State) (r : Reg) (v : Word) : (s.rgSet r v).wakeI = s.wakeI := rfl
@[simp] theorem rgSet_wakeAb (s : State) (r : Reg) (v : Word) : (s.rgSet r v).wakeAb = s.wakeAb := rfl
@[simp] theorem rgSet_smplBuf (s : State) (r : Reg) (v : Word) : (s.rgSet r v).smplBuf = s.smplBuf := rfl
@[simp] theorem rgSet_refused (s : State) (r : Reg) (v : Word) : (s.rgSet r v).refused = s.refused := rfl
@[simp] theorem rgSet_fatal (s : State) (r : Reg) (v : Word) : (s.rgSet r v).fatal = s.fatal := rfl
@[simp] theorem rgSet_psc (s : State) (r : Reg) (v : Word) : (s.rgSet r v).psc = s.psc := rfl
@[simp] theorem rgSet_devs (s : State) (r : Reg) (v : Word) : (s.rgSet r v).devs = s.devs := rfl
@[simp] theorem rgSet_devNext (s : State) (r : Reg) (v : Word) : (s.rgSet r v).devNext = s.devNext := rfl
@[simp] theorem rgSet_ports (s : State) (r : Reg) (v : Word) : (s.rgSet r v).ports = s.ports := rfl
@[simp] theorem rgSet_iots (s : State) (r : Reg) (v : Word) : (s.rgSet r v).iots = s.iots := rfl
@[simp] theorem rgSet_saves (s : State) (r : Reg) (v : Word) : (s.rgSet r v).saves = s.saves := rfl
@[simp] theorem rgSet_cluSaves (s : State) (r : Reg) (v : Word) : (s.rgSet r v).cluSaves = s.cluSaves := rfl
@[simp] theorem rgSet_ibi (s : State) (r : Reg) (v : Word) : (s.rgSet r v).ibi = s.ibi := rfl
@[simp] theorem rgSet_meter (s : State) (r : Reg) (v : Word) : (s.rgSet r v).meter = s.meter := rfl
@[simp] theorem rgSet_pwr (s : State) (r : Reg) (v : Word) : (s.rgSet r v).pwr = s.pwr := rfl
@[simp] theorem rgSet_taps (s : State) (r : Reg) (v : Word) : (s.rgSet r v).taps = s.taps := rfl
@[simp] theorem rgSet_ctrs (s : State) (r : Reg) (v : Word) : (s.rgSet r v).ctrs = s.ctrs := rfl
@[simp] theorem rgSet_dumps (s : State) (r : Reg) (v : Word) : (s.rgSet r v).dumps = s.dumps := rfl
@[simp] theorem rgSet_snaps (s : State) (r : Reg) (v : Word) : (s.rgSet r v).snaps = s.snaps := rfl
@[simp] theorem rgSet_reply (s : State) (r : Reg) (v : Word) : (s.rgSet r v).reply = s.reply := rfl

/-! ## rfSet -/

@[simp] theorem rfSet_pending (s : State) (r : Reg) (hi lo x : Nat) : (s.rfSet r hi lo x).pending = s.pending := rfl
@[simp] theorem rfSet_free (s : State) (r : Reg) (hi lo x : Nat) : (s.rfSet r hi lo x).free = s.free := rfl
@[simp] theorem rfSet_cycle (s : State) (r : Reg) (hi lo x : Nat) : (s.rfSet r hi lo x).cycle = s.cycle := rfl
@[simp] theorem rfSet_mem (s : State) (r : Reg) (hi lo x : Nat) : (s.rfSet r hi lo x).mem = s.mem := rfl
@[simp] theorem rfSet_lines (s : State) (r : Reg) (hi lo x : Nat) : (s.rfSet r hi lo x).lines = s.lines := rfl
@[simp] theorem rfSet_l2Lru (s : State) (r : Reg) (hi lo x : Nat) : (s.rfSet r hi lo x).l2Lru = s.l2Lru := rfl
@[simp] theorem rfSet_hresv (s : State) (r : Reg) (hi lo x : Nat) : (s.rfSet r hi lo x).hresv = s.hresv := rfl
@[simp] theorem rfSet_tlbOwed (s : State) (r : Reg) (hi lo x : Nat) : (s.rfSet r hi lo x).tlbOwed = s.tlbOwed := rfl
@[simp] theorem rfSet_cores (s : State) (r : Reg) (hi lo x : Nat) : (s.rfSet r hi lo x).cores = s.cores := rfl
@[simp] theorem rfSet_facets (s : State) (r : Reg) (hi lo x : Nat) : (s.rfSet r hi lo x).facets = s.facets := rfl
@[simp] theorem rfSet_marker (s : State) (r : Reg) (hi lo x : Nat) : (s.rfSet r hi lo x).marker = s.marker := rfl
@[simp] theorem rfSet_refBad (s : State) (r : Reg) (hi lo x : Nat) : (s.rfSet r hi lo x).refBad = s.refBad := rfl
@[simp] theorem rfSet_net (s : State) (r : Reg) (hi lo x : Nat) : (s.rfSet r hi lo x).net = s.net := rfl
@[simp] theorem rfSet_latch (s : State) (r : Reg) (hi lo x : Nat) : (s.rfSet r hi lo x).latch = s.latch := rfl
@[simp] theorem rfSet_chord (s : State) (r : Reg) (hi lo x : Nat) : (s.rfSet r hi lo x).chord = s.chord := rfl
@[simp] theorem rfSet_hbm (s : State) (r : Reg) (hi lo x : Nat) : (s.rfSet r hi lo x).hbm = s.hbm := rfl
@[simp] theorem rfSet_msgs (s : State) (r : Reg) (hi lo x : Nat) : (s.rfSet r hi lo x).msgs = s.msgs := rfl
@[simp] theorem rfSet_bbx (s : State) (r : Reg) (hi lo x : Nat) : (s.rfSet r hi lo x).bbx = s.bbx := rfl
@[simp] theorem rfSet_coal (s : State) (r : Reg) (hi lo x : Nat) : (s.rfSet r hi lo x).coal = s.coal := rfl
@[simp] theorem rfSet_ras (s : State) (r : Reg) (hi lo x : Nat) : (s.rfSet r hi lo x).ras = s.ras := rfl
@[simp] theorem rfSet_rasSeq (s : State) (r : Reg) (hi lo x : Nat) : (s.rfSet r hi lo x).rasSeq = s.rasSeq := rfl
@[simp] theorem rfSet_ipi (s : State) (r : Reg) (hi lo x : Nat) : (s.rfSet r hi lo x).ipi = s.ipi := rfl
@[simp] theorem rfSet_wakeO (s : State) (r : Reg) (hi lo x : Nat) : (s.rfSet r hi lo x).wakeO = s.wakeO := rfl
@[simp] theorem rfSet_wakeI (s : State) (r : Reg) (hi lo x : Nat) : (s.rfSet r hi lo x).wakeI = s.wakeI := rfl
@[simp] theorem rfSet_wakeAb (s : State) (r : Reg) (hi lo x : Nat) : (s.rfSet r hi lo x).wakeAb = s.wakeAb := rfl
@[simp] theorem rfSet_smplBuf (s : State) (r : Reg) (hi lo x : Nat) : (s.rfSet r hi lo x).smplBuf = s.smplBuf := rfl
@[simp] theorem rfSet_refused (s : State) (r : Reg) (hi lo x : Nat) : (s.rfSet r hi lo x).refused = s.refused := rfl
@[simp] theorem rfSet_fatal (s : State) (r : Reg) (hi lo x : Nat) : (s.rfSet r hi lo x).fatal = s.fatal := rfl
@[simp] theorem rfSet_psc (s : State) (r : Reg) (hi lo x : Nat) : (s.rfSet r hi lo x).psc = s.psc := rfl
@[simp] theorem rfSet_devs (s : State) (r : Reg) (hi lo x : Nat) : (s.rfSet r hi lo x).devs = s.devs := rfl
@[simp] theorem rfSet_devNext (s : State) (r : Reg) (hi lo x : Nat) : (s.rfSet r hi lo x).devNext = s.devNext := rfl
@[simp] theorem rfSet_ports (s : State) (r : Reg) (hi lo x : Nat) : (s.rfSet r hi lo x).ports = s.ports := rfl
@[simp] theorem rfSet_iots (s : State) (r : Reg) (hi lo x : Nat) : (s.rfSet r hi lo x).iots = s.iots := rfl
@[simp] theorem rfSet_saves (s : State) (r : Reg) (hi lo x : Nat) : (s.rfSet r hi lo x).saves = s.saves := rfl
@[simp] theorem rfSet_cluSaves (s : State) (r : Reg) (hi lo x : Nat) : (s.rfSet r hi lo x).cluSaves = s.cluSaves := rfl
@[simp] theorem rfSet_ibi (s : State) (r : Reg) (hi lo x : Nat) : (s.rfSet r hi lo x).ibi = s.ibi := rfl
@[simp] theorem rfSet_meter (s : State) (r : Reg) (hi lo x : Nat) : (s.rfSet r hi lo x).meter = s.meter := rfl
@[simp] theorem rfSet_pwr (s : State) (r : Reg) (hi lo x : Nat) : (s.rfSet r hi lo x).pwr = s.pwr := rfl
@[simp] theorem rfSet_taps (s : State) (r : Reg) (hi lo x : Nat) : (s.rfSet r hi lo x).taps = s.taps := rfl
@[simp] theorem rfSet_ctrs (s : State) (r : Reg) (hi lo x : Nat) : (s.rfSet r hi lo x).ctrs = s.ctrs := rfl
@[simp] theorem rfSet_dumps (s : State) (r : Reg) (hi lo x : Nat) : (s.rfSet r hi lo x).dumps = s.dumps := rfl
@[simp] theorem rfSet_snaps (s : State) (r : Reg) (hi lo x : Nat) : (s.rfSet r hi lo x).snaps = s.snaps := rfl
@[simp] theorem rfSet_reply (s : State) (r : Reg) (hi lo x : Nat) : (s.rfSet r hi lo x).reply = s.reply := rfl

/-! ## rfInc -/

@[simp] theorem rfInc_pending (s : State) (r : Reg) (hi lo n : Nat) : (s.rfInc r hi lo n).pending = s.pending := rfl
@[simp] theorem rfInc_free (s : State) (r : Reg) (hi lo n : Nat) : (s.rfInc r hi lo n).free = s.free := rfl
@[simp] theorem rfInc_cycle (s : State) (r : Reg) (hi lo n : Nat) : (s.rfInc r hi lo n).cycle = s.cycle := rfl
@[simp] theorem rfInc_mem (s : State) (r : Reg) (hi lo n : Nat) : (s.rfInc r hi lo n).mem = s.mem := rfl
@[simp] theorem rfInc_lines (s : State) (r : Reg) (hi lo n : Nat) : (s.rfInc r hi lo n).lines = s.lines := rfl
@[simp] theorem rfInc_l2Lru (s : State) (r : Reg) (hi lo n : Nat) : (s.rfInc r hi lo n).l2Lru = s.l2Lru := rfl
@[simp] theorem rfInc_hresv (s : State) (r : Reg) (hi lo n : Nat) : (s.rfInc r hi lo n).hresv = s.hresv := rfl
@[simp] theorem rfInc_tlbOwed (s : State) (r : Reg) (hi lo n : Nat) : (s.rfInc r hi lo n).tlbOwed = s.tlbOwed := rfl
@[simp] theorem rfInc_cores (s : State) (r : Reg) (hi lo n : Nat) : (s.rfInc r hi lo n).cores = s.cores := rfl
@[simp] theorem rfInc_facets (s : State) (r : Reg) (hi lo n : Nat) : (s.rfInc r hi lo n).facets = s.facets := rfl
@[simp] theorem rfInc_marker (s : State) (r : Reg) (hi lo n : Nat) : (s.rfInc r hi lo n).marker = s.marker := rfl
@[simp] theorem rfInc_refBad (s : State) (r : Reg) (hi lo n : Nat) : (s.rfInc r hi lo n).refBad = s.refBad := rfl
@[simp] theorem rfInc_net (s : State) (r : Reg) (hi lo n : Nat) : (s.rfInc r hi lo n).net = s.net := rfl
@[simp] theorem rfInc_latch (s : State) (r : Reg) (hi lo n : Nat) : (s.rfInc r hi lo n).latch = s.latch := rfl
@[simp] theorem rfInc_chord (s : State) (r : Reg) (hi lo n : Nat) : (s.rfInc r hi lo n).chord = s.chord := rfl
@[simp] theorem rfInc_hbm (s : State) (r : Reg) (hi lo n : Nat) : (s.rfInc r hi lo n).hbm = s.hbm := rfl
@[simp] theorem rfInc_msgs (s : State) (r : Reg) (hi lo n : Nat) : (s.rfInc r hi lo n).msgs = s.msgs := rfl
@[simp] theorem rfInc_bbx (s : State) (r : Reg) (hi lo n : Nat) : (s.rfInc r hi lo n).bbx = s.bbx := rfl
@[simp] theorem rfInc_coal (s : State) (r : Reg) (hi lo n : Nat) : (s.rfInc r hi lo n).coal = s.coal := rfl
@[simp] theorem rfInc_ras (s : State) (r : Reg) (hi lo n : Nat) : (s.rfInc r hi lo n).ras = s.ras := rfl
@[simp] theorem rfInc_rasSeq (s : State) (r : Reg) (hi lo n : Nat) : (s.rfInc r hi lo n).rasSeq = s.rasSeq := rfl
@[simp] theorem rfInc_ipi (s : State) (r : Reg) (hi lo n : Nat) : (s.rfInc r hi lo n).ipi = s.ipi := rfl
@[simp] theorem rfInc_wakeO (s : State) (r : Reg) (hi lo n : Nat) : (s.rfInc r hi lo n).wakeO = s.wakeO := rfl
@[simp] theorem rfInc_wakeI (s : State) (r : Reg) (hi lo n : Nat) : (s.rfInc r hi lo n).wakeI = s.wakeI := rfl
@[simp] theorem rfInc_wakeAb (s : State) (r : Reg) (hi lo n : Nat) : (s.rfInc r hi lo n).wakeAb = s.wakeAb := rfl
@[simp] theorem rfInc_smplBuf (s : State) (r : Reg) (hi lo n : Nat) : (s.rfInc r hi lo n).smplBuf = s.smplBuf := rfl
@[simp] theorem rfInc_refused (s : State) (r : Reg) (hi lo n : Nat) : (s.rfInc r hi lo n).refused = s.refused := rfl
@[simp] theorem rfInc_fatal (s : State) (r : Reg) (hi lo n : Nat) : (s.rfInc r hi lo n).fatal = s.fatal := rfl
@[simp] theorem rfInc_psc (s : State) (r : Reg) (hi lo n : Nat) : (s.rfInc r hi lo n).psc = s.psc := rfl
@[simp] theorem rfInc_devs (s : State) (r : Reg) (hi lo n : Nat) : (s.rfInc r hi lo n).devs = s.devs := rfl
@[simp] theorem rfInc_devNext (s : State) (r : Reg) (hi lo n : Nat) : (s.rfInc r hi lo n).devNext = s.devNext := rfl
@[simp] theorem rfInc_ports (s : State) (r : Reg) (hi lo n : Nat) : (s.rfInc r hi lo n).ports = s.ports := rfl
@[simp] theorem rfInc_iots (s : State) (r : Reg) (hi lo n : Nat) : (s.rfInc r hi lo n).iots = s.iots := rfl
@[simp] theorem rfInc_saves (s : State) (r : Reg) (hi lo n : Nat) : (s.rfInc r hi lo n).saves = s.saves := rfl
@[simp] theorem rfInc_cluSaves (s : State) (r : Reg) (hi lo n : Nat) : (s.rfInc r hi lo n).cluSaves = s.cluSaves := rfl
@[simp] theorem rfInc_ibi (s : State) (r : Reg) (hi lo n : Nat) : (s.rfInc r hi lo n).ibi = s.ibi := rfl
@[simp] theorem rfInc_meter (s : State) (r : Reg) (hi lo n : Nat) : (s.rfInc r hi lo n).meter = s.meter := rfl
@[simp] theorem rfInc_pwr (s : State) (r : Reg) (hi lo n : Nat) : (s.rfInc r hi lo n).pwr = s.pwr := rfl
@[simp] theorem rfInc_taps (s : State) (r : Reg) (hi lo n : Nat) : (s.rfInc r hi lo n).taps = s.taps := rfl
@[simp] theorem rfInc_ctrs (s : State) (r : Reg) (hi lo n : Nat) : (s.rfInc r hi lo n).ctrs = s.ctrs := rfl
@[simp] theorem rfInc_dumps (s : State) (r : Reg) (hi lo n : Nat) : (s.rfInc r hi lo n).dumps = s.dumps := rfl
@[simp] theorem rfInc_snaps (s : State) (r : Reg) (hi lo n : Nat) : (s.rfInc r hi lo n).snaps = s.snaps := rfl
@[simp] theorem rfInc_reply (s : State) (r : Reg) (hi lo n : Nat) : (s.rfInc r hi lo n).reply = s.reply := rfl

/-! ## rgWrite -/

@[simp] theorem rgWrite_pending (s : State) (r : Reg) (l : Bool) (v : Word) : (s.rgWrite r l v).pending = s.pending := rfl
@[simp] theorem rgWrite_free (s : State) (r : Reg) (l : Bool) (v : Word) : (s.rgWrite r l v).free = s.free := rfl
@[simp] theorem rgWrite_cycle (s : State) (r : Reg) (l : Bool) (v : Word) : (s.rgWrite r l v).cycle = s.cycle := rfl
@[simp] theorem rgWrite_mem (s : State) (r : Reg) (l : Bool) (v : Word) : (s.rgWrite r l v).mem = s.mem := rfl
@[simp] theorem rgWrite_lines (s : State) (r : Reg) (l : Bool) (v : Word) : (s.rgWrite r l v).lines = s.lines := rfl
@[simp] theorem rgWrite_l2Lru (s : State) (r : Reg) (l : Bool) (v : Word) : (s.rgWrite r l v).l2Lru = s.l2Lru := rfl
@[simp] theorem rgWrite_hresv (s : State) (r : Reg) (l : Bool) (v : Word) : (s.rgWrite r l v).hresv = s.hresv := rfl
@[simp] theorem rgWrite_tlbOwed (s : State) (r : Reg) (l : Bool) (v : Word) : (s.rgWrite r l v).tlbOwed = s.tlbOwed := rfl
@[simp] theorem rgWrite_cores (s : State) (r : Reg) (l : Bool) (v : Word) : (s.rgWrite r l v).cores = s.cores := rfl
@[simp] theorem rgWrite_facets (s : State) (r : Reg) (l : Bool) (v : Word) : (s.rgWrite r l v).facets = s.facets := rfl
@[simp] theorem rgWrite_marker (s : State) (r : Reg) (l : Bool) (v : Word) : (s.rgWrite r l v).marker = s.marker := rfl
@[simp] theorem rgWrite_refBad (s : State) (r : Reg) (l : Bool) (v : Word) : (s.rgWrite r l v).refBad = s.refBad := rfl
@[simp] theorem rgWrite_net (s : State) (r : Reg) (l : Bool) (v : Word) : (s.rgWrite r l v).net = s.net := rfl
@[simp] theorem rgWrite_latch (s : State) (r : Reg) (l : Bool) (v : Word) : (s.rgWrite r l v).latch = s.latch := rfl
@[simp] theorem rgWrite_chord (s : State) (r : Reg) (l : Bool) (v : Word) : (s.rgWrite r l v).chord = s.chord := rfl
@[simp] theorem rgWrite_hbm (s : State) (r : Reg) (l : Bool) (v : Word) : (s.rgWrite r l v).hbm = s.hbm := rfl
@[simp] theorem rgWrite_msgs (s : State) (r : Reg) (l : Bool) (v : Word) : (s.rgWrite r l v).msgs = s.msgs := rfl
@[simp] theorem rgWrite_bbx (s : State) (r : Reg) (l : Bool) (v : Word) : (s.rgWrite r l v).bbx = s.bbx := rfl
@[simp] theorem rgWrite_coal (s : State) (r : Reg) (l : Bool) (v : Word) : (s.rgWrite r l v).coal = s.coal := rfl
@[simp] theorem rgWrite_ras (s : State) (r : Reg) (l : Bool) (v : Word) : (s.rgWrite r l v).ras = s.ras := rfl
@[simp] theorem rgWrite_rasSeq (s : State) (r : Reg) (l : Bool) (v : Word) : (s.rgWrite r l v).rasSeq = s.rasSeq := rfl
@[simp] theorem rgWrite_ipi (s : State) (r : Reg) (l : Bool) (v : Word) : (s.rgWrite r l v).ipi = s.ipi := rfl
@[simp] theorem rgWrite_wakeO (s : State) (r : Reg) (l : Bool) (v : Word) : (s.rgWrite r l v).wakeO = s.wakeO := rfl
@[simp] theorem rgWrite_wakeI (s : State) (r : Reg) (l : Bool) (v : Word) : (s.rgWrite r l v).wakeI = s.wakeI := rfl
@[simp] theorem rgWrite_wakeAb (s : State) (r : Reg) (l : Bool) (v : Word) : (s.rgWrite r l v).wakeAb = s.wakeAb := rfl
@[simp] theorem rgWrite_smplBuf (s : State) (r : Reg) (l : Bool) (v : Word) : (s.rgWrite r l v).smplBuf = s.smplBuf := rfl
@[simp] theorem rgWrite_refused (s : State) (r : Reg) (l : Bool) (v : Word) : (s.rgWrite r l v).refused = s.refused := rfl
@[simp] theorem rgWrite_fatal (s : State) (r : Reg) (l : Bool) (v : Word) : (s.rgWrite r l v).fatal = s.fatal := rfl
@[simp] theorem rgWrite_psc (s : State) (r : Reg) (l : Bool) (v : Word) : (s.rgWrite r l v).psc = s.psc := rfl
@[simp] theorem rgWrite_devs (s : State) (r : Reg) (l : Bool) (v : Word) : (s.rgWrite r l v).devs = s.devs := rfl
@[simp] theorem rgWrite_devNext (s : State) (r : Reg) (l : Bool) (v : Word) : (s.rgWrite r l v).devNext = s.devNext := rfl
@[simp] theorem rgWrite_ports (s : State) (r : Reg) (l : Bool) (v : Word) : (s.rgWrite r l v).ports = s.ports := rfl
@[simp] theorem rgWrite_iots (s : State) (r : Reg) (l : Bool) (v : Word) : (s.rgWrite r l v).iots = s.iots := rfl
@[simp] theorem rgWrite_saves (s : State) (r : Reg) (l : Bool) (v : Word) : (s.rgWrite r l v).saves = s.saves := rfl
@[simp] theorem rgWrite_cluSaves (s : State) (r : Reg) (l : Bool) (v : Word) : (s.rgWrite r l v).cluSaves = s.cluSaves := rfl
@[simp] theorem rgWrite_ibi (s : State) (r : Reg) (l : Bool) (v : Word) : (s.rgWrite r l v).ibi = s.ibi := rfl
@[simp] theorem rgWrite_meter (s : State) (r : Reg) (l : Bool) (v : Word) : (s.rgWrite r l v).meter = s.meter := rfl
@[simp] theorem rgWrite_pwr (s : State) (r : Reg) (l : Bool) (v : Word) : (s.rgWrite r l v).pwr = s.pwr := rfl
@[simp] theorem rgWrite_taps (s : State) (r : Reg) (l : Bool) (v : Word) : (s.rgWrite r l v).taps = s.taps := rfl
@[simp] theorem rgWrite_ctrs (s : State) (r : Reg) (l : Bool) (v : Word) : (s.rgWrite r l v).ctrs = s.ctrs := rfl
@[simp] theorem rgWrite_dumps (s : State) (r : Reg) (l : Bool) (v : Word) : (s.rgWrite r l v).dumps = s.dumps := rfl
@[simp] theorem rgWrite_snaps (s : State) (r : Reg) (l : Bool) (v : Word) : (s.rgWrite r l v).snaps = s.snaps := rfl
@[simp] theorem rgWrite_reply (s : State) (r : Reg) (l : Bool) (v : Word) : (s.rgWrite r l v).reply = s.reply := rfl

/-! ## rgReset -/

@[simp] theorem rgReset_pending (s : State) (r : Reg) : (s.rgReset r).pending = s.pending := rfl
@[simp] theorem rgReset_free (s : State) (r : Reg) : (s.rgReset r).free = s.free := rfl
@[simp] theorem rgReset_cycle (s : State) (r : Reg) : (s.rgReset r).cycle = s.cycle := rfl
@[simp] theorem rgReset_mem (s : State) (r : Reg) : (s.rgReset r).mem = s.mem := rfl
@[simp] theorem rgReset_lines (s : State) (r : Reg) : (s.rgReset r).lines = s.lines := rfl
@[simp] theorem rgReset_l2Lru (s : State) (r : Reg) : (s.rgReset r).l2Lru = s.l2Lru := rfl
@[simp] theorem rgReset_hresv (s : State) (r : Reg) : (s.rgReset r).hresv = s.hresv := rfl
@[simp] theorem rgReset_tlbOwed (s : State) (r : Reg) : (s.rgReset r).tlbOwed = s.tlbOwed := rfl
@[simp] theorem rgReset_cores (s : State) (r : Reg) : (s.rgReset r).cores = s.cores := rfl
@[simp] theorem rgReset_facets (s : State) (r : Reg) : (s.rgReset r).facets = s.facets := rfl
@[simp] theorem rgReset_marker (s : State) (r : Reg) : (s.rgReset r).marker = s.marker := rfl
@[simp] theorem rgReset_refBad (s : State) (r : Reg) : (s.rgReset r).refBad = s.refBad := rfl
@[simp] theorem rgReset_net (s : State) (r : Reg) : (s.rgReset r).net = s.net := rfl
@[simp] theorem rgReset_latch (s : State) (r : Reg) : (s.rgReset r).latch = s.latch := rfl
@[simp] theorem rgReset_chord (s : State) (r : Reg) : (s.rgReset r).chord = s.chord := rfl
@[simp] theorem rgReset_hbm (s : State) (r : Reg) : (s.rgReset r).hbm = s.hbm := rfl
@[simp] theorem rgReset_msgs (s : State) (r : Reg) : (s.rgReset r).msgs = s.msgs := rfl
@[simp] theorem rgReset_bbx (s : State) (r : Reg) : (s.rgReset r).bbx = s.bbx := rfl
@[simp] theorem rgReset_coal (s : State) (r : Reg) : (s.rgReset r).coal = s.coal := rfl
@[simp] theorem rgReset_ras (s : State) (r : Reg) : (s.rgReset r).ras = s.ras := rfl
@[simp] theorem rgReset_rasSeq (s : State) (r : Reg) : (s.rgReset r).rasSeq = s.rasSeq := rfl
@[simp] theorem rgReset_ipi (s : State) (r : Reg) : (s.rgReset r).ipi = s.ipi := rfl
@[simp] theorem rgReset_wakeO (s : State) (r : Reg) : (s.rgReset r).wakeO = s.wakeO := rfl
@[simp] theorem rgReset_wakeI (s : State) (r : Reg) : (s.rgReset r).wakeI = s.wakeI := rfl
@[simp] theorem rgReset_wakeAb (s : State) (r : Reg) : (s.rgReset r).wakeAb = s.wakeAb := rfl
@[simp] theorem rgReset_smplBuf (s : State) (r : Reg) : (s.rgReset r).smplBuf = s.smplBuf := rfl
@[simp] theorem rgReset_refused (s : State) (r : Reg) : (s.rgReset r).refused = s.refused := rfl
@[simp] theorem rgReset_fatal (s : State) (r : Reg) : (s.rgReset r).fatal = s.fatal := rfl
@[simp] theorem rgReset_psc (s : State) (r : Reg) : (s.rgReset r).psc = s.psc := rfl
@[simp] theorem rgReset_devs (s : State) (r : Reg) : (s.rgReset r).devs = s.devs := rfl
@[simp] theorem rgReset_devNext (s : State) (r : Reg) : (s.rgReset r).devNext = s.devNext := rfl
@[simp] theorem rgReset_ports (s : State) (r : Reg) : (s.rgReset r).ports = s.ports := rfl
@[simp] theorem rgReset_iots (s : State) (r : Reg) : (s.rgReset r).iots = s.iots := rfl
@[simp] theorem rgReset_saves (s : State) (r : Reg) : (s.rgReset r).saves = s.saves := rfl
@[simp] theorem rgReset_cluSaves (s : State) (r : Reg) : (s.rgReset r).cluSaves = s.cluSaves := rfl
@[simp] theorem rgReset_ibi (s : State) (r : Reg) : (s.rgReset r).ibi = s.ibi := rfl
@[simp] theorem rgReset_meter (s : State) (r : Reg) : (s.rgReset r).meter = s.meter := rfl
@[simp] theorem rgReset_pwr (s : State) (r : Reg) : (s.rgReset r).pwr = s.pwr := rfl
@[simp] theorem rgReset_taps (s : State) (r : Reg) : (s.rgReset r).taps = s.taps := rfl
@[simp] theorem rgReset_ctrs (s : State) (r : Reg) : (s.rgReset r).ctrs = s.ctrs := rfl
@[simp] theorem rgReset_dumps (s : State) (r : Reg) : (s.rgReset r).dumps = s.dumps := rfl
@[simp] theorem rgReset_snaps (s : State) (r : Reg) : (s.rgReset r).snaps = s.snaps := rfl
@[simp] theorem rgReset_reply (s : State) (r : Reg) : (s.rgReset r).reply = s.reply := rfl

/-! ## setCore -/

@[simp] theorem setCore_pending (s : State) (k : CoreId) (c : Core) : (s.setCore k c).pending = s.pending := rfl
@[simp] theorem setCore_free (s : State) (k : CoreId) (c : Core) : (s.setCore k c).free = s.free := rfl
@[simp] theorem setCore_cycle (s : State) (k : CoreId) (c : Core) : (s.setCore k c).cycle = s.cycle := rfl
@[simp] theorem setCore_regs (s : State) (k : CoreId) (c : Core) : (s.setCore k c).regs = s.regs := rfl
@[simp] theorem setCore_mem (s : State) (k : CoreId) (c : Core) : (s.setCore k c).mem = s.mem := rfl
@[simp] theorem setCore_lines (s : State) (k : CoreId) (c : Core) : (s.setCore k c).lines = s.lines := rfl
@[simp] theorem setCore_l2Lru (s : State) (k : CoreId) (c : Core) : (s.setCore k c).l2Lru = s.l2Lru := rfl
@[simp] theorem setCore_hresv (s : State) (k : CoreId) (c : Core) : (s.setCore k c).hresv = s.hresv := rfl
@[simp] theorem setCore_tlbOwed (s : State) (k : CoreId) (c : Core) : (s.setCore k c).tlbOwed = s.tlbOwed := rfl
@[simp] theorem setCore_facets (s : State) (k : CoreId) (c : Core) : (s.setCore k c).facets = s.facets := rfl
@[simp] theorem setCore_marker (s : State) (k : CoreId) (c : Core) : (s.setCore k c).marker = s.marker := rfl
@[simp] theorem setCore_refBad (s : State) (k : CoreId) (c : Core) : (s.setCore k c).refBad = s.refBad := rfl
@[simp] theorem setCore_net (s : State) (k : CoreId) (c : Core) : (s.setCore k c).net = s.net := rfl
@[simp] theorem setCore_latch (s : State) (k : CoreId) (c : Core) : (s.setCore k c).latch = s.latch := rfl
@[simp] theorem setCore_chord (s : State) (k : CoreId) (c : Core) : (s.setCore k c).chord = s.chord := rfl
@[simp] theorem setCore_hbm (s : State) (k : CoreId) (c : Core) : (s.setCore k c).hbm = s.hbm := rfl
@[simp] theorem setCore_msgs (s : State) (k : CoreId) (c : Core) : (s.setCore k c).msgs = s.msgs := rfl
@[simp] theorem setCore_bbx (s : State) (k : CoreId) (c : Core) : (s.setCore k c).bbx = s.bbx := rfl
@[simp] theorem setCore_coal (s : State) (k : CoreId) (c : Core) : (s.setCore k c).coal = s.coal := rfl
@[simp] theorem setCore_ras (s : State) (k : CoreId) (c : Core) : (s.setCore k c).ras = s.ras := rfl
@[simp] theorem setCore_rasSeq (s : State) (k : CoreId) (c : Core) : (s.setCore k c).rasSeq = s.rasSeq := rfl
@[simp] theorem setCore_ipi (s : State) (k : CoreId) (c : Core) : (s.setCore k c).ipi = s.ipi := rfl
@[simp] theorem setCore_wakeO (s : State) (k : CoreId) (c : Core) : (s.setCore k c).wakeO = s.wakeO := rfl
@[simp] theorem setCore_wakeI (s : State) (k : CoreId) (c : Core) : (s.setCore k c).wakeI = s.wakeI := rfl
@[simp] theorem setCore_wakeAb (s : State) (k : CoreId) (c : Core) : (s.setCore k c).wakeAb = s.wakeAb := rfl
@[simp] theorem setCore_smplBuf (s : State) (k : CoreId) (c : Core) : (s.setCore k c).smplBuf = s.smplBuf := rfl
@[simp] theorem setCore_refused (s : State) (k : CoreId) (c : Core) : (s.setCore k c).refused = s.refused := rfl
@[simp] theorem setCore_fatal (s : State) (k : CoreId) (c : Core) : (s.setCore k c).fatal = s.fatal := rfl
@[simp] theorem setCore_psc (s : State) (k : CoreId) (c : Core) : (s.setCore k c).psc = s.psc := rfl
@[simp] theorem setCore_devs (s : State) (k : CoreId) (c : Core) : (s.setCore k c).devs = s.devs := rfl
@[simp] theorem setCore_devNext (s : State) (k : CoreId) (c : Core) : (s.setCore k c).devNext = s.devNext := rfl
@[simp] theorem setCore_ports (s : State) (k : CoreId) (c : Core) : (s.setCore k c).ports = s.ports := rfl
@[simp] theorem setCore_iots (s : State) (k : CoreId) (c : Core) : (s.setCore k c).iots = s.iots := rfl
@[simp] theorem setCore_saves (s : State) (k : CoreId) (c : Core) : (s.setCore k c).saves = s.saves := rfl
@[simp] theorem setCore_cluSaves (s : State) (k : CoreId) (c : Core) : (s.setCore k c).cluSaves = s.cluSaves := rfl
@[simp] theorem setCore_ibi (s : State) (k : CoreId) (c : Core) : (s.setCore k c).ibi = s.ibi := rfl
@[simp] theorem setCore_meter (s : State) (k : CoreId) (c : Core) : (s.setCore k c).meter = s.meter := rfl
@[simp] theorem setCore_pwr (s : State) (k : CoreId) (c : Core) : (s.setCore k c).pwr = s.pwr := rfl
@[simp] theorem setCore_taps (s : State) (k : CoreId) (c : Core) : (s.setCore k c).taps = s.taps := rfl
@[simp] theorem setCore_ctrs (s : State) (k : CoreId) (c : Core) : (s.setCore k c).ctrs = s.ctrs := rfl
@[simp] theorem setCore_dumps (s : State) (k : CoreId) (c : Core) : (s.setCore k c).dumps = s.dumps := rfl
@[simp] theorem setCore_snaps (s : State) (k : CoreId) (c : Core) : (s.setCore k c).snaps = s.snaps := rfl
@[simp] theorem setCore_reply (s : State) (k : CoreId) (c : Core) : (s.setCore k c).reply = s.reply := rfl

/-! ## send -/

@[simp] theorem send_pending (s : State) (kind : MsgKind) (m : Msg) : (s.send kind m).pending = s.pending := rfl
@[simp] theorem send_free (s : State) (kind : MsgKind) (m : Msg) : (s.send kind m).free = s.free := rfl
@[simp] theorem send_cycle (s : State) (kind : MsgKind) (m : Msg) : (s.send kind m).cycle = s.cycle := rfl
@[simp] theorem send_regs (s : State) (kind : MsgKind) (m : Msg) : (s.send kind m).regs = s.regs := rfl
@[simp] theorem send_mem (s : State) (kind : MsgKind) (m : Msg) : (s.send kind m).mem = s.mem := rfl
@[simp] theorem send_lines (s : State) (kind : MsgKind) (m : Msg) : (s.send kind m).lines = s.lines := rfl
@[simp] theorem send_l2Lru (s : State) (kind : MsgKind) (m : Msg) : (s.send kind m).l2Lru = s.l2Lru := rfl
@[simp] theorem send_hresv (s : State) (kind : MsgKind) (m : Msg) : (s.send kind m).hresv = s.hresv := rfl
@[simp] theorem send_tlbOwed (s : State) (kind : MsgKind) (m : Msg) : (s.send kind m).tlbOwed = s.tlbOwed := rfl
@[simp] theorem send_cores (s : State) (kind : MsgKind) (m : Msg) : (s.send kind m).cores = s.cores := rfl
@[simp] theorem send_facets (s : State) (kind : MsgKind) (m : Msg) : (s.send kind m).facets = s.facets := rfl
@[simp] theorem send_marker (s : State) (kind : MsgKind) (m : Msg) : (s.send kind m).marker = s.marker := rfl
@[simp] theorem send_refBad (s : State) (kind : MsgKind) (m : Msg) : (s.send kind m).refBad = s.refBad := rfl
@[simp] theorem send_net (s : State) (kind : MsgKind) (m : Msg) : (s.send kind m).net = s.net := rfl
@[simp] theorem send_latch (s : State) (kind : MsgKind) (m : Msg) : (s.send kind m).latch = s.latch := rfl
@[simp] theorem send_chord (s : State) (kind : MsgKind) (m : Msg) : (s.send kind m).chord = s.chord := rfl
@[simp] theorem send_hbm (s : State) (kind : MsgKind) (m : Msg) : (s.send kind m).hbm = s.hbm := rfl
@[simp] theorem send_bbx (s : State) (kind : MsgKind) (m : Msg) : (s.send kind m).bbx = s.bbx := rfl
@[simp] theorem send_coal (s : State) (kind : MsgKind) (m : Msg) : (s.send kind m).coal = s.coal := rfl
@[simp] theorem send_ras (s : State) (kind : MsgKind) (m : Msg) : (s.send kind m).ras = s.ras := rfl
@[simp] theorem send_rasSeq (s : State) (kind : MsgKind) (m : Msg) : (s.send kind m).rasSeq = s.rasSeq := rfl
@[simp] theorem send_ipi (s : State) (kind : MsgKind) (m : Msg) : (s.send kind m).ipi = s.ipi := rfl
@[simp] theorem send_wakeO (s : State) (kind : MsgKind) (m : Msg) : (s.send kind m).wakeO = s.wakeO := rfl
@[simp] theorem send_wakeI (s : State) (kind : MsgKind) (m : Msg) : (s.send kind m).wakeI = s.wakeI := rfl
@[simp] theorem send_wakeAb (s : State) (kind : MsgKind) (m : Msg) : (s.send kind m).wakeAb = s.wakeAb := rfl
@[simp] theorem send_smplBuf (s : State) (kind : MsgKind) (m : Msg) : (s.send kind m).smplBuf = s.smplBuf := rfl
@[simp] theorem send_refused (s : State) (kind : MsgKind) (m : Msg) : (s.send kind m).refused = s.refused := rfl
@[simp] theorem send_fatal (s : State) (kind : MsgKind) (m : Msg) : (s.send kind m).fatal = s.fatal := rfl
@[simp] theorem send_psc (s : State) (kind : MsgKind) (m : Msg) : (s.send kind m).psc = s.psc := rfl
@[simp] theorem send_devs (s : State) (kind : MsgKind) (m : Msg) : (s.send kind m).devs = s.devs := rfl
@[simp] theorem send_devNext (s : State) (kind : MsgKind) (m : Msg) : (s.send kind m).devNext = s.devNext := rfl
@[simp] theorem send_ports (s : State) (kind : MsgKind) (m : Msg) : (s.send kind m).ports = s.ports := rfl
@[simp] theorem send_iots (s : State) (kind : MsgKind) (m : Msg) : (s.send kind m).iots = s.iots := rfl
@[simp] theorem send_saves (s : State) (kind : MsgKind) (m : Msg) : (s.send kind m).saves = s.saves := rfl
@[simp] theorem send_cluSaves (s : State) (kind : MsgKind) (m : Msg) : (s.send kind m).cluSaves = s.cluSaves := rfl
@[simp] theorem send_ibi (s : State) (kind : MsgKind) (m : Msg) : (s.send kind m).ibi = s.ibi := rfl
@[simp] theorem send_meter (s : State) (kind : MsgKind) (m : Msg) : (s.send kind m).meter = s.meter := rfl
@[simp] theorem send_pwr (s : State) (kind : MsgKind) (m : Msg) : (s.send kind m).pwr = s.pwr := rfl
@[simp] theorem send_taps (s : State) (kind : MsgKind) (m : Msg) : (s.send kind m).taps = s.taps := rfl
@[simp] theorem send_ctrs (s : State) (kind : MsgKind) (m : Msg) : (s.send kind m).ctrs = s.ctrs := rfl
@[simp] theorem send_dumps (s : State) (kind : MsgKind) (m : Msg) : (s.send kind m).dumps = s.dumps := rfl
@[simp] theorem send_snaps (s : State) (kind : MsgKind) (m : Msg) : (s.send kind m).snaps = s.snaps := rfl
@[simp] theorem send_reply (s : State) (kind : MsgKind) (m : Msg) : (s.send kind m).reply = s.reply := rfl

/-! ## arrived -/

@[simp] theorem arrived_pending (s : State) (kind : MsgKind) (m : Msg) : (s.arrived kind m).pending = s.pending := rfl
@[simp] theorem arrived_free (s : State) (kind : MsgKind) (m : Msg) : (s.arrived kind m).free = s.free := rfl
@[simp] theorem arrived_cycle (s : State) (kind : MsgKind) (m : Msg) : (s.arrived kind m).cycle = s.cycle := rfl
@[simp] theorem arrived_regs (s : State) (kind : MsgKind) (m : Msg) : (s.arrived kind m).regs = s.regs := rfl
@[simp] theorem arrived_mem (s : State) (kind : MsgKind) (m : Msg) : (s.arrived kind m).mem = s.mem := rfl
@[simp] theorem arrived_lines (s : State) (kind : MsgKind) (m : Msg) : (s.arrived kind m).lines = s.lines := rfl
@[simp] theorem arrived_l2Lru (s : State) (kind : MsgKind) (m : Msg) : (s.arrived kind m).l2Lru = s.l2Lru := rfl
@[simp] theorem arrived_hresv (s : State) (kind : MsgKind) (m : Msg) : (s.arrived kind m).hresv = s.hresv := rfl
@[simp] theorem arrived_tlbOwed (s : State) (kind : MsgKind) (m : Msg) : (s.arrived kind m).tlbOwed = s.tlbOwed := rfl
@[simp] theorem arrived_cores (s : State) (kind : MsgKind) (m : Msg) : (s.arrived kind m).cores = s.cores := rfl
@[simp] theorem arrived_facets (s : State) (kind : MsgKind) (m : Msg) : (s.arrived kind m).facets = s.facets := rfl
@[simp] theorem arrived_marker (s : State) (kind : MsgKind) (m : Msg) : (s.arrived kind m).marker = s.marker := rfl
@[simp] theorem arrived_refBad (s : State) (kind : MsgKind) (m : Msg) : (s.arrived kind m).refBad = s.refBad := rfl
@[simp] theorem arrived_net (s : State) (kind : MsgKind) (m : Msg) : (s.arrived kind m).net = s.net := rfl
@[simp] theorem arrived_latch (s : State) (kind : MsgKind) (m : Msg) : (s.arrived kind m).latch = s.latch := rfl
@[simp] theorem arrived_chord (s : State) (kind : MsgKind) (m : Msg) : (s.arrived kind m).chord = s.chord := rfl
@[simp] theorem arrived_hbm (s : State) (kind : MsgKind) (m : Msg) : (s.arrived kind m).hbm = s.hbm := rfl
@[simp] theorem arrived_bbx (s : State) (kind : MsgKind) (m : Msg) : (s.arrived kind m).bbx = s.bbx := rfl
@[simp] theorem arrived_coal (s : State) (kind : MsgKind) (m : Msg) : (s.arrived kind m).coal = s.coal := rfl
@[simp] theorem arrived_ras (s : State) (kind : MsgKind) (m : Msg) : (s.arrived kind m).ras = s.ras := rfl
@[simp] theorem arrived_rasSeq (s : State) (kind : MsgKind) (m : Msg) : (s.arrived kind m).rasSeq = s.rasSeq := rfl
@[simp] theorem arrived_ipi (s : State) (kind : MsgKind) (m : Msg) : (s.arrived kind m).ipi = s.ipi := rfl
@[simp] theorem arrived_wakeO (s : State) (kind : MsgKind) (m : Msg) : (s.arrived kind m).wakeO = s.wakeO := rfl
@[simp] theorem arrived_wakeI (s : State) (kind : MsgKind) (m : Msg) : (s.arrived kind m).wakeI = s.wakeI := rfl
@[simp] theorem arrived_wakeAb (s : State) (kind : MsgKind) (m : Msg) : (s.arrived kind m).wakeAb = s.wakeAb := rfl
@[simp] theorem arrived_smplBuf (s : State) (kind : MsgKind) (m : Msg) : (s.arrived kind m).smplBuf = s.smplBuf := rfl
@[simp] theorem arrived_refused (s : State) (kind : MsgKind) (m : Msg) : (s.arrived kind m).refused = s.refused := rfl
@[simp] theorem arrived_fatal (s : State) (kind : MsgKind) (m : Msg) : (s.arrived kind m).fatal = s.fatal := rfl
@[simp] theorem arrived_psc (s : State) (kind : MsgKind) (m : Msg) : (s.arrived kind m).psc = s.psc := rfl
@[simp] theorem arrived_devs (s : State) (kind : MsgKind) (m : Msg) : (s.arrived kind m).devs = s.devs := rfl
@[simp] theorem arrived_devNext (s : State) (kind : MsgKind) (m : Msg) : (s.arrived kind m).devNext = s.devNext := rfl
@[simp] theorem arrived_ports (s : State) (kind : MsgKind) (m : Msg) : (s.arrived kind m).ports = s.ports := rfl
@[simp] theorem arrived_iots (s : State) (kind : MsgKind) (m : Msg) : (s.arrived kind m).iots = s.iots := rfl
@[simp] theorem arrived_saves (s : State) (kind : MsgKind) (m : Msg) : (s.arrived kind m).saves = s.saves := rfl
@[simp] theorem arrived_cluSaves (s : State) (kind : MsgKind) (m : Msg) : (s.arrived kind m).cluSaves = s.cluSaves := rfl
@[simp] theorem arrived_ibi (s : State) (kind : MsgKind) (m : Msg) : (s.arrived kind m).ibi = s.ibi := rfl
@[simp] theorem arrived_meter (s : State) (kind : MsgKind) (m : Msg) : (s.arrived kind m).meter = s.meter := rfl
@[simp] theorem arrived_pwr (s : State) (kind : MsgKind) (m : Msg) : (s.arrived kind m).pwr = s.pwr := rfl
@[simp] theorem arrived_taps (s : State) (kind : MsgKind) (m : Msg) : (s.arrived kind m).taps = s.taps := rfl
@[simp] theorem arrived_ctrs (s : State) (kind : MsgKind) (m : Msg) : (s.arrived kind m).ctrs = s.ctrs := rfl
@[simp] theorem arrived_dumps (s : State) (kind : MsgKind) (m : Msg) : (s.arrived kind m).dumps = s.dumps := rfl
@[simp] theorem arrived_snaps (s : State) (kind : MsgKind) (m : Msg) : (s.arrived kind m).snaps = s.snaps := rfl
@[simp] theorem arrived_reply (s : State) (kind : MsgKind) (m : Msg) : (s.arrived kind m).reply = s.reply := rfl

/-! ## wrByte -/

@[simp] theorem wrByte_pending (s : State) (da : Nat) (b : Byte) : (s.wrByte da b).pending = s.pending := rfl
@[simp] theorem wrByte_free (s : State) (da : Nat) (b : Byte) : (s.wrByte da b).free = s.free := rfl
@[simp] theorem wrByte_cycle (s : State) (da : Nat) (b : Byte) : (s.wrByte da b).cycle = s.cycle := rfl
@[simp] theorem wrByte_regs (s : State) (da : Nat) (b : Byte) : (s.wrByte da b).regs = s.regs := rfl
@[simp] theorem wrByte_lines (s : State) (da : Nat) (b : Byte) : (s.wrByte da b).lines = s.lines := rfl
@[simp] theorem wrByte_l2Lru (s : State) (da : Nat) (b : Byte) : (s.wrByte da b).l2Lru = s.l2Lru := rfl
@[simp] theorem wrByte_hresv (s : State) (da : Nat) (b : Byte) : (s.wrByte da b).hresv = s.hresv := rfl
@[simp] theorem wrByte_tlbOwed (s : State) (da : Nat) (b : Byte) : (s.wrByte da b).tlbOwed = s.tlbOwed := rfl
@[simp] theorem wrByte_cores (s : State) (da : Nat) (b : Byte) : (s.wrByte da b).cores = s.cores := rfl
@[simp] theorem wrByte_facets (s : State) (da : Nat) (b : Byte) : (s.wrByte da b).facets = s.facets := rfl
@[simp] theorem wrByte_marker (s : State) (da : Nat) (b : Byte) : (s.wrByte da b).marker = s.marker := rfl
@[simp] theorem wrByte_refBad (s : State) (da : Nat) (b : Byte) : (s.wrByte da b).refBad = s.refBad := rfl
@[simp] theorem wrByte_net (s : State) (da : Nat) (b : Byte) : (s.wrByte da b).net = s.net := rfl
@[simp] theorem wrByte_latch (s : State) (da : Nat) (b : Byte) : (s.wrByte da b).latch = s.latch := rfl
@[simp] theorem wrByte_chord (s : State) (da : Nat) (b : Byte) : (s.wrByte da b).chord = s.chord := rfl
@[simp] theorem wrByte_hbm (s : State) (da : Nat) (b : Byte) : (s.wrByte da b).hbm = s.hbm := rfl
@[simp] theorem wrByte_msgs (s : State) (da : Nat) (b : Byte) : (s.wrByte da b).msgs = s.msgs := rfl
@[simp] theorem wrByte_bbx (s : State) (da : Nat) (b : Byte) : (s.wrByte da b).bbx = s.bbx := rfl
@[simp] theorem wrByte_coal (s : State) (da : Nat) (b : Byte) : (s.wrByte da b).coal = s.coal := rfl
@[simp] theorem wrByte_ras (s : State) (da : Nat) (b : Byte) : (s.wrByte da b).ras = s.ras := rfl
@[simp] theorem wrByte_rasSeq (s : State) (da : Nat) (b : Byte) : (s.wrByte da b).rasSeq = s.rasSeq := rfl
@[simp] theorem wrByte_ipi (s : State) (da : Nat) (b : Byte) : (s.wrByte da b).ipi = s.ipi := rfl
@[simp] theorem wrByte_wakeO (s : State) (da : Nat) (b : Byte) : (s.wrByte da b).wakeO = s.wakeO := rfl
@[simp] theorem wrByte_wakeI (s : State) (da : Nat) (b : Byte) : (s.wrByte da b).wakeI = s.wakeI := rfl
@[simp] theorem wrByte_wakeAb (s : State) (da : Nat) (b : Byte) : (s.wrByte da b).wakeAb = s.wakeAb := rfl
@[simp] theorem wrByte_smplBuf (s : State) (da : Nat) (b : Byte) : (s.wrByte da b).smplBuf = s.smplBuf := rfl
@[simp] theorem wrByte_refused (s : State) (da : Nat) (b : Byte) : (s.wrByte da b).refused = s.refused := rfl
@[simp] theorem wrByte_fatal (s : State) (da : Nat) (b : Byte) : (s.wrByte da b).fatal = s.fatal := rfl
@[simp] theorem wrByte_psc (s : State) (da : Nat) (b : Byte) : (s.wrByte da b).psc = s.psc := rfl
@[simp] theorem wrByte_devs (s : State) (da : Nat) (b : Byte) : (s.wrByte da b).devs = s.devs := rfl
@[simp] theorem wrByte_devNext (s : State) (da : Nat) (b : Byte) : (s.wrByte da b).devNext = s.devNext := rfl
@[simp] theorem wrByte_ports (s : State) (da : Nat) (b : Byte) : (s.wrByte da b).ports = s.ports := rfl
@[simp] theorem wrByte_iots (s : State) (da : Nat) (b : Byte) : (s.wrByte da b).iots = s.iots := rfl
@[simp] theorem wrByte_saves (s : State) (da : Nat) (b : Byte) : (s.wrByte da b).saves = s.saves := rfl
@[simp] theorem wrByte_cluSaves (s : State) (da : Nat) (b : Byte) : (s.wrByte da b).cluSaves = s.cluSaves := rfl
@[simp] theorem wrByte_ibi (s : State) (da : Nat) (b : Byte) : (s.wrByte da b).ibi = s.ibi := rfl
@[simp] theorem wrByte_meter (s : State) (da : Nat) (b : Byte) : (s.wrByte da b).meter = s.meter := rfl
@[simp] theorem wrByte_pwr (s : State) (da : Nat) (b : Byte) : (s.wrByte da b).pwr = s.pwr := rfl
@[simp] theorem wrByte_taps (s : State) (da : Nat) (b : Byte) : (s.wrByte da b).taps = s.taps := rfl
@[simp] theorem wrByte_ctrs (s : State) (da : Nat) (b : Byte) : (s.wrByte da b).ctrs = s.ctrs := rfl
@[simp] theorem wrByte_dumps (s : State) (da : Nat) (b : Byte) : (s.wrByte da b).dumps = s.dumps := rfl
@[simp] theorem wrByte_snaps (s : State) (da : Nat) (b : Byte) : (s.wrByte da b).snaps = s.snaps := rfl
@[simp] theorem wrByte_reply (s : State) (da : Nat) (b : Byte) : (s.wrByte da b).reply = s.reply := rfl

/-! ## setMemLine -/

@[simp] theorem setMemLine_pending (s : State) (ln : Nat) (v : Line) : (s.setMemLine ln v).pending = s.pending := rfl
@[simp] theorem setMemLine_free (s : State) (ln : Nat) (v : Line) : (s.setMemLine ln v).free = s.free := rfl
@[simp] theorem setMemLine_cycle (s : State) (ln : Nat) (v : Line) : (s.setMemLine ln v).cycle = s.cycle := rfl
@[simp] theorem setMemLine_regs (s : State) (ln : Nat) (v : Line) : (s.setMemLine ln v).regs = s.regs := rfl
@[simp] theorem setMemLine_lines (s : State) (ln : Nat) (v : Line) : (s.setMemLine ln v).lines = s.lines := rfl
@[simp] theorem setMemLine_l2Lru (s : State) (ln : Nat) (v : Line) : (s.setMemLine ln v).l2Lru = s.l2Lru := rfl
@[simp] theorem setMemLine_hresv (s : State) (ln : Nat) (v : Line) : (s.setMemLine ln v).hresv = s.hresv := rfl
@[simp] theorem setMemLine_tlbOwed (s : State) (ln : Nat) (v : Line) : (s.setMemLine ln v).tlbOwed = s.tlbOwed := rfl
@[simp] theorem setMemLine_cores (s : State) (ln : Nat) (v : Line) : (s.setMemLine ln v).cores = s.cores := rfl
@[simp] theorem setMemLine_facets (s : State) (ln : Nat) (v : Line) : (s.setMemLine ln v).facets = s.facets := rfl
@[simp] theorem setMemLine_marker (s : State) (ln : Nat) (v : Line) : (s.setMemLine ln v).marker = s.marker := rfl
@[simp] theorem setMemLine_refBad (s : State) (ln : Nat) (v : Line) : (s.setMemLine ln v).refBad = s.refBad := rfl
@[simp] theorem setMemLine_net (s : State) (ln : Nat) (v : Line) : (s.setMemLine ln v).net = s.net := rfl
@[simp] theorem setMemLine_latch (s : State) (ln : Nat) (v : Line) : (s.setMemLine ln v).latch = s.latch := rfl
@[simp] theorem setMemLine_chord (s : State) (ln : Nat) (v : Line) : (s.setMemLine ln v).chord = s.chord := rfl
@[simp] theorem setMemLine_hbm (s : State) (ln : Nat) (v : Line) : (s.setMemLine ln v).hbm = s.hbm := rfl
@[simp] theorem setMemLine_msgs (s : State) (ln : Nat) (v : Line) : (s.setMemLine ln v).msgs = s.msgs := rfl
@[simp] theorem setMemLine_bbx (s : State) (ln : Nat) (v : Line) : (s.setMemLine ln v).bbx = s.bbx := rfl
@[simp] theorem setMemLine_coal (s : State) (ln : Nat) (v : Line) : (s.setMemLine ln v).coal = s.coal := rfl
@[simp] theorem setMemLine_ras (s : State) (ln : Nat) (v : Line) : (s.setMemLine ln v).ras = s.ras := rfl
@[simp] theorem setMemLine_rasSeq (s : State) (ln : Nat) (v : Line) : (s.setMemLine ln v).rasSeq = s.rasSeq := rfl
@[simp] theorem setMemLine_ipi (s : State) (ln : Nat) (v : Line) : (s.setMemLine ln v).ipi = s.ipi := rfl
@[simp] theorem setMemLine_wakeO (s : State) (ln : Nat) (v : Line) : (s.setMemLine ln v).wakeO = s.wakeO := rfl
@[simp] theorem setMemLine_wakeI (s : State) (ln : Nat) (v : Line) : (s.setMemLine ln v).wakeI = s.wakeI := rfl
@[simp] theorem setMemLine_wakeAb (s : State) (ln : Nat) (v : Line) : (s.setMemLine ln v).wakeAb = s.wakeAb := rfl
@[simp] theorem setMemLine_smplBuf (s : State) (ln : Nat) (v : Line) : (s.setMemLine ln v).smplBuf = s.smplBuf := rfl
@[simp] theorem setMemLine_refused (s : State) (ln : Nat) (v : Line) : (s.setMemLine ln v).refused = s.refused := rfl
@[simp] theorem setMemLine_fatal (s : State) (ln : Nat) (v : Line) : (s.setMemLine ln v).fatal = s.fatal := rfl
@[simp] theorem setMemLine_psc (s : State) (ln : Nat) (v : Line) : (s.setMemLine ln v).psc = s.psc := rfl
@[simp] theorem setMemLine_devs (s : State) (ln : Nat) (v : Line) : (s.setMemLine ln v).devs = s.devs := rfl
@[simp] theorem setMemLine_devNext (s : State) (ln : Nat) (v : Line) : (s.setMemLine ln v).devNext = s.devNext := rfl
@[simp] theorem setMemLine_ports (s : State) (ln : Nat) (v : Line) : (s.setMemLine ln v).ports = s.ports := rfl
@[simp] theorem setMemLine_iots (s : State) (ln : Nat) (v : Line) : (s.setMemLine ln v).iots = s.iots := rfl
@[simp] theorem setMemLine_saves (s : State) (ln : Nat) (v : Line) : (s.setMemLine ln v).saves = s.saves := rfl
@[simp] theorem setMemLine_cluSaves (s : State) (ln : Nat) (v : Line) : (s.setMemLine ln v).cluSaves = s.cluSaves := rfl
@[simp] theorem setMemLine_ibi (s : State) (ln : Nat) (v : Line) : (s.setMemLine ln v).ibi = s.ibi := rfl
@[simp] theorem setMemLine_meter (s : State) (ln : Nat) (v : Line) : (s.setMemLine ln v).meter = s.meter := rfl
@[simp] theorem setMemLine_pwr (s : State) (ln : Nat) (v : Line) : (s.setMemLine ln v).pwr = s.pwr := rfl
@[simp] theorem setMemLine_taps (s : State) (ln : Nat) (v : Line) : (s.setMemLine ln v).taps = s.taps := rfl
@[simp] theorem setMemLine_ctrs (s : State) (ln : Nat) (v : Line) : (s.setMemLine ln v).ctrs = s.ctrs := rfl
@[simp] theorem setMemLine_dumps (s : State) (ln : Nat) (v : Line) : (s.setMemLine ln v).dumps = s.dumps := rfl
@[simp] theorem setMemLine_snaps (s : State) (ln : Nat) (v : Line) : (s.setMemLine ln v).snaps = s.snaps := rfl
@[simp] theorem setMemLine_reply (s : State) (ln : Nat) (v : Line) : (s.setMemLine ln v).reply = s.reply := rfl

/-! ## setLine -/

@[simp] theorem setLine_pending (s : State) (ln : Nat) (l : LineSt) : (s.setLine ln l).pending = s.pending := rfl
@[simp] theorem setLine_free (s : State) (ln : Nat) (l : LineSt) : (s.setLine ln l).free = s.free := rfl
@[simp] theorem setLine_cycle (s : State) (ln : Nat) (l : LineSt) : (s.setLine ln l).cycle = s.cycle := rfl
@[simp] theorem setLine_regs (s : State) (ln : Nat) (l : LineSt) : (s.setLine ln l).regs = s.regs := rfl
@[simp] theorem setLine_mem (s : State) (ln : Nat) (l : LineSt) : (s.setLine ln l).mem = s.mem := rfl
@[simp] theorem setLine_l2Lru (s : State) (ln : Nat) (l : LineSt) : (s.setLine ln l).l2Lru = s.l2Lru := rfl
@[simp] theorem setLine_hresv (s : State) (ln : Nat) (l : LineSt) : (s.setLine ln l).hresv = s.hresv := rfl
@[simp] theorem setLine_tlbOwed (s : State) (ln : Nat) (l : LineSt) : (s.setLine ln l).tlbOwed = s.tlbOwed := rfl
@[simp] theorem setLine_cores (s : State) (ln : Nat) (l : LineSt) : (s.setLine ln l).cores = s.cores := rfl
@[simp] theorem setLine_facets (s : State) (ln : Nat) (l : LineSt) : (s.setLine ln l).facets = s.facets := rfl
@[simp] theorem setLine_marker (s : State) (ln : Nat) (l : LineSt) : (s.setLine ln l).marker = s.marker := rfl
@[simp] theorem setLine_refBad (s : State) (ln : Nat) (l : LineSt) : (s.setLine ln l).refBad = s.refBad := rfl
@[simp] theorem setLine_net (s : State) (ln : Nat) (l : LineSt) : (s.setLine ln l).net = s.net := rfl
@[simp] theorem setLine_latch (s : State) (ln : Nat) (l : LineSt) : (s.setLine ln l).latch = s.latch := rfl
@[simp] theorem setLine_chord (s : State) (ln : Nat) (l : LineSt) : (s.setLine ln l).chord = s.chord := rfl
@[simp] theorem setLine_hbm (s : State) (ln : Nat) (l : LineSt) : (s.setLine ln l).hbm = s.hbm := rfl
@[simp] theorem setLine_msgs (s : State) (ln : Nat) (l : LineSt) : (s.setLine ln l).msgs = s.msgs := rfl
@[simp] theorem setLine_bbx (s : State) (ln : Nat) (l : LineSt) : (s.setLine ln l).bbx = s.bbx := rfl
@[simp] theorem setLine_coal (s : State) (ln : Nat) (l : LineSt) : (s.setLine ln l).coal = s.coal := rfl
@[simp] theorem setLine_ras (s : State) (ln : Nat) (l : LineSt) : (s.setLine ln l).ras = s.ras := rfl
@[simp] theorem setLine_rasSeq (s : State) (ln : Nat) (l : LineSt) : (s.setLine ln l).rasSeq = s.rasSeq := rfl
@[simp] theorem setLine_ipi (s : State) (ln : Nat) (l : LineSt) : (s.setLine ln l).ipi = s.ipi := rfl
@[simp] theorem setLine_wakeO (s : State) (ln : Nat) (l : LineSt) : (s.setLine ln l).wakeO = s.wakeO := rfl
@[simp] theorem setLine_wakeI (s : State) (ln : Nat) (l : LineSt) : (s.setLine ln l).wakeI = s.wakeI := rfl
@[simp] theorem setLine_wakeAb (s : State) (ln : Nat) (l : LineSt) : (s.setLine ln l).wakeAb = s.wakeAb := rfl
@[simp] theorem setLine_smplBuf (s : State) (ln : Nat) (l : LineSt) : (s.setLine ln l).smplBuf = s.smplBuf := rfl
@[simp] theorem setLine_refused (s : State) (ln : Nat) (l : LineSt) : (s.setLine ln l).refused = s.refused := rfl
@[simp] theorem setLine_fatal (s : State) (ln : Nat) (l : LineSt) : (s.setLine ln l).fatal = s.fatal := rfl
@[simp] theorem setLine_psc (s : State) (ln : Nat) (l : LineSt) : (s.setLine ln l).psc = s.psc := rfl
@[simp] theorem setLine_devs (s : State) (ln : Nat) (l : LineSt) : (s.setLine ln l).devs = s.devs := rfl
@[simp] theorem setLine_devNext (s : State) (ln : Nat) (l : LineSt) : (s.setLine ln l).devNext = s.devNext := rfl
@[simp] theorem setLine_ports (s : State) (ln : Nat) (l : LineSt) : (s.setLine ln l).ports = s.ports := rfl
@[simp] theorem setLine_iots (s : State) (ln : Nat) (l : LineSt) : (s.setLine ln l).iots = s.iots := rfl
@[simp] theorem setLine_saves (s : State) (ln : Nat) (l : LineSt) : (s.setLine ln l).saves = s.saves := rfl
@[simp] theorem setLine_cluSaves (s : State) (ln : Nat) (l : LineSt) : (s.setLine ln l).cluSaves = s.cluSaves := rfl
@[simp] theorem setLine_ibi (s : State) (ln : Nat) (l : LineSt) : (s.setLine ln l).ibi = s.ibi := rfl
@[simp] theorem setLine_meter (s : State) (ln : Nat) (l : LineSt) : (s.setLine ln l).meter = s.meter := rfl
@[simp] theorem setLine_pwr (s : State) (ln : Nat) (l : LineSt) : (s.setLine ln l).pwr = s.pwr := rfl
@[simp] theorem setLine_taps (s : State) (ln : Nat) (l : LineSt) : (s.setLine ln l).taps = s.taps := rfl
@[simp] theorem setLine_ctrs (s : State) (ln : Nat) (l : LineSt) : (s.setLine ln l).ctrs = s.ctrs := rfl
@[simp] theorem setLine_dumps (s : State) (ln : Nat) (l : LineSt) : (s.setLine ln l).dumps = s.dumps := rfl
@[simp] theorem setLine_snaps (s : State) (ln : Nat) (l : LineSt) : (s.setLine ln l).snaps = s.snaps := rfl
@[simp] theorem setLine_reply (s : State) (ln : Nat) (l : LineSt) : (s.setLine ln l).reply = s.reply := rfl

/-! ## setCopy -/

@[simp] theorem setCopy_pending (s : State) (ln : Nat) (g : ClusterId) (c : Option L2Copy) : (s.setCopy ln g c).pending = s.pending := rfl
@[simp] theorem setCopy_free (s : State) (ln : Nat) (g : ClusterId) (c : Option L2Copy) : (s.setCopy ln g c).free = s.free := rfl
@[simp] theorem setCopy_cycle (s : State) (ln : Nat) (g : ClusterId) (c : Option L2Copy) : (s.setCopy ln g c).cycle = s.cycle := rfl
@[simp] theorem setCopy_regs (s : State) (ln : Nat) (g : ClusterId) (c : Option L2Copy) : (s.setCopy ln g c).regs = s.regs := rfl
@[simp] theorem setCopy_mem (s : State) (ln : Nat) (g : ClusterId) (c : Option L2Copy) : (s.setCopy ln g c).mem = s.mem := rfl
@[simp] theorem setCopy_l2Lru (s : State) (ln : Nat) (g : ClusterId) (c : Option L2Copy) : (s.setCopy ln g c).l2Lru = s.l2Lru := rfl
@[simp] theorem setCopy_hresv (s : State) (ln : Nat) (g : ClusterId) (c : Option L2Copy) : (s.setCopy ln g c).hresv = s.hresv := rfl
@[simp] theorem setCopy_tlbOwed (s : State) (ln : Nat) (g : ClusterId) (c : Option L2Copy) : (s.setCopy ln g c).tlbOwed = s.tlbOwed := rfl
@[simp] theorem setCopy_cores (s : State) (ln : Nat) (g : ClusterId) (c : Option L2Copy) : (s.setCopy ln g c).cores = s.cores := rfl
@[simp] theorem setCopy_facets (s : State) (ln : Nat) (g : ClusterId) (c : Option L2Copy) : (s.setCopy ln g c).facets = s.facets := rfl
@[simp] theorem setCopy_marker (s : State) (ln : Nat) (g : ClusterId) (c : Option L2Copy) : (s.setCopy ln g c).marker = s.marker := rfl
@[simp] theorem setCopy_refBad (s : State) (ln : Nat) (g : ClusterId) (c : Option L2Copy) : (s.setCopy ln g c).refBad = s.refBad := rfl
@[simp] theorem setCopy_net (s : State) (ln : Nat) (g : ClusterId) (c : Option L2Copy) : (s.setCopy ln g c).net = s.net := rfl
@[simp] theorem setCopy_latch (s : State) (ln : Nat) (g : ClusterId) (c : Option L2Copy) : (s.setCopy ln g c).latch = s.latch := rfl
@[simp] theorem setCopy_chord (s : State) (ln : Nat) (g : ClusterId) (c : Option L2Copy) : (s.setCopy ln g c).chord = s.chord := rfl
@[simp] theorem setCopy_hbm (s : State) (ln : Nat) (g : ClusterId) (c : Option L2Copy) : (s.setCopy ln g c).hbm = s.hbm := rfl
@[simp] theorem setCopy_msgs (s : State) (ln : Nat) (g : ClusterId) (c : Option L2Copy) : (s.setCopy ln g c).msgs = s.msgs := rfl
@[simp] theorem setCopy_bbx (s : State) (ln : Nat) (g : ClusterId) (c : Option L2Copy) : (s.setCopy ln g c).bbx = s.bbx := rfl
@[simp] theorem setCopy_coal (s : State) (ln : Nat) (g : ClusterId) (c : Option L2Copy) : (s.setCopy ln g c).coal = s.coal := rfl
@[simp] theorem setCopy_ras (s : State) (ln : Nat) (g : ClusterId) (c : Option L2Copy) : (s.setCopy ln g c).ras = s.ras := rfl
@[simp] theorem setCopy_rasSeq (s : State) (ln : Nat) (g : ClusterId) (c : Option L2Copy) : (s.setCopy ln g c).rasSeq = s.rasSeq := rfl
@[simp] theorem setCopy_ipi (s : State) (ln : Nat) (g : ClusterId) (c : Option L2Copy) : (s.setCopy ln g c).ipi = s.ipi := rfl
@[simp] theorem setCopy_wakeO (s : State) (ln : Nat) (g : ClusterId) (c : Option L2Copy) : (s.setCopy ln g c).wakeO = s.wakeO := rfl
@[simp] theorem setCopy_wakeI (s : State) (ln : Nat) (g : ClusterId) (c : Option L2Copy) : (s.setCopy ln g c).wakeI = s.wakeI := rfl
@[simp] theorem setCopy_wakeAb (s : State) (ln : Nat) (g : ClusterId) (c : Option L2Copy) : (s.setCopy ln g c).wakeAb = s.wakeAb := rfl
@[simp] theorem setCopy_smplBuf (s : State) (ln : Nat) (g : ClusterId) (c : Option L2Copy) : (s.setCopy ln g c).smplBuf = s.smplBuf := rfl
@[simp] theorem setCopy_refused (s : State) (ln : Nat) (g : ClusterId) (c : Option L2Copy) : (s.setCopy ln g c).refused = s.refused := rfl
@[simp] theorem setCopy_fatal (s : State) (ln : Nat) (g : ClusterId) (c : Option L2Copy) : (s.setCopy ln g c).fatal = s.fatal := rfl
@[simp] theorem setCopy_psc (s : State) (ln : Nat) (g : ClusterId) (c : Option L2Copy) : (s.setCopy ln g c).psc = s.psc := rfl
@[simp] theorem setCopy_devs (s : State) (ln : Nat) (g : ClusterId) (c : Option L2Copy) : (s.setCopy ln g c).devs = s.devs := rfl
@[simp] theorem setCopy_devNext (s : State) (ln : Nat) (g : ClusterId) (c : Option L2Copy) : (s.setCopy ln g c).devNext = s.devNext := rfl
@[simp] theorem setCopy_ports (s : State) (ln : Nat) (g : ClusterId) (c : Option L2Copy) : (s.setCopy ln g c).ports = s.ports := rfl
@[simp] theorem setCopy_iots (s : State) (ln : Nat) (g : ClusterId) (c : Option L2Copy) : (s.setCopy ln g c).iots = s.iots := rfl
@[simp] theorem setCopy_saves (s : State) (ln : Nat) (g : ClusterId) (c : Option L2Copy) : (s.setCopy ln g c).saves = s.saves := rfl
@[simp] theorem setCopy_cluSaves (s : State) (ln : Nat) (g : ClusterId) (c : Option L2Copy) : (s.setCopy ln g c).cluSaves = s.cluSaves := rfl
@[simp] theorem setCopy_ibi (s : State) (ln : Nat) (g : ClusterId) (c : Option L2Copy) : (s.setCopy ln g c).ibi = s.ibi := rfl
@[simp] theorem setCopy_meter (s : State) (ln : Nat) (g : ClusterId) (c : Option L2Copy) : (s.setCopy ln g c).meter = s.meter := rfl
@[simp] theorem setCopy_pwr (s : State) (ln : Nat) (g : ClusterId) (c : Option L2Copy) : (s.setCopy ln g c).pwr = s.pwr := rfl
@[simp] theorem setCopy_taps (s : State) (ln : Nat) (g : ClusterId) (c : Option L2Copy) : (s.setCopy ln g c).taps = s.taps := rfl
@[simp] theorem setCopy_ctrs (s : State) (ln : Nat) (g : ClusterId) (c : Option L2Copy) : (s.setCopy ln g c).ctrs = s.ctrs := rfl
@[simp] theorem setCopy_dumps (s : State) (ln : Nat) (g : ClusterId) (c : Option L2Copy) : (s.setCopy ln g c).dumps = s.dumps := rfl
@[simp] theorem setCopy_snaps (s : State) (ln : Nat) (g : ClusterId) (c : Option L2Copy) : (s.setCopy ln g c).snaps = s.snaps := rfl
@[simp] theorem setCopy_reply (s : State) (ln : Nat) (g : ClusterId) (c : Option L2Copy) : (s.setCopy ln g c).reply = s.reply := rfl

/-! ## setDir -/

@[simp] theorem setDir_pending (s : State) (ln : Nat) (e : Option DirEnt) : (s.setDir ln e).pending = s.pending := rfl
@[simp] theorem setDir_free (s : State) (ln : Nat) (e : Option DirEnt) : (s.setDir ln e).free = s.free := rfl
@[simp] theorem setDir_cycle (s : State) (ln : Nat) (e : Option DirEnt) : (s.setDir ln e).cycle = s.cycle := rfl
@[simp] theorem setDir_regs (s : State) (ln : Nat) (e : Option DirEnt) : (s.setDir ln e).regs = s.regs := rfl
@[simp] theorem setDir_mem (s : State) (ln : Nat) (e : Option DirEnt) : (s.setDir ln e).mem = s.mem := rfl
@[simp] theorem setDir_l2Lru (s : State) (ln : Nat) (e : Option DirEnt) : (s.setDir ln e).l2Lru = s.l2Lru := rfl
@[simp] theorem setDir_hresv (s : State) (ln : Nat) (e : Option DirEnt) : (s.setDir ln e).hresv = s.hresv := rfl
@[simp] theorem setDir_tlbOwed (s : State) (ln : Nat) (e : Option DirEnt) : (s.setDir ln e).tlbOwed = s.tlbOwed := rfl
@[simp] theorem setDir_cores (s : State) (ln : Nat) (e : Option DirEnt) : (s.setDir ln e).cores = s.cores := rfl
@[simp] theorem setDir_facets (s : State) (ln : Nat) (e : Option DirEnt) : (s.setDir ln e).facets = s.facets := rfl
@[simp] theorem setDir_marker (s : State) (ln : Nat) (e : Option DirEnt) : (s.setDir ln e).marker = s.marker := rfl
@[simp] theorem setDir_refBad (s : State) (ln : Nat) (e : Option DirEnt) : (s.setDir ln e).refBad = s.refBad := rfl
@[simp] theorem setDir_net (s : State) (ln : Nat) (e : Option DirEnt) : (s.setDir ln e).net = s.net := rfl
@[simp] theorem setDir_latch (s : State) (ln : Nat) (e : Option DirEnt) : (s.setDir ln e).latch = s.latch := rfl
@[simp] theorem setDir_chord (s : State) (ln : Nat) (e : Option DirEnt) : (s.setDir ln e).chord = s.chord := rfl
@[simp] theorem setDir_hbm (s : State) (ln : Nat) (e : Option DirEnt) : (s.setDir ln e).hbm = s.hbm := rfl
@[simp] theorem setDir_msgs (s : State) (ln : Nat) (e : Option DirEnt) : (s.setDir ln e).msgs = s.msgs := rfl
@[simp] theorem setDir_bbx (s : State) (ln : Nat) (e : Option DirEnt) : (s.setDir ln e).bbx = s.bbx := rfl
@[simp] theorem setDir_coal (s : State) (ln : Nat) (e : Option DirEnt) : (s.setDir ln e).coal = s.coal := rfl
@[simp] theorem setDir_ras (s : State) (ln : Nat) (e : Option DirEnt) : (s.setDir ln e).ras = s.ras := rfl
@[simp] theorem setDir_rasSeq (s : State) (ln : Nat) (e : Option DirEnt) : (s.setDir ln e).rasSeq = s.rasSeq := rfl
@[simp] theorem setDir_ipi (s : State) (ln : Nat) (e : Option DirEnt) : (s.setDir ln e).ipi = s.ipi := rfl
@[simp] theorem setDir_wakeO (s : State) (ln : Nat) (e : Option DirEnt) : (s.setDir ln e).wakeO = s.wakeO := rfl
@[simp] theorem setDir_wakeI (s : State) (ln : Nat) (e : Option DirEnt) : (s.setDir ln e).wakeI = s.wakeI := rfl
@[simp] theorem setDir_wakeAb (s : State) (ln : Nat) (e : Option DirEnt) : (s.setDir ln e).wakeAb = s.wakeAb := rfl
@[simp] theorem setDir_smplBuf (s : State) (ln : Nat) (e : Option DirEnt) : (s.setDir ln e).smplBuf = s.smplBuf := rfl
@[simp] theorem setDir_refused (s : State) (ln : Nat) (e : Option DirEnt) : (s.setDir ln e).refused = s.refused := rfl
@[simp] theorem setDir_fatal (s : State) (ln : Nat) (e : Option DirEnt) : (s.setDir ln e).fatal = s.fatal := rfl
@[simp] theorem setDir_psc (s : State) (ln : Nat) (e : Option DirEnt) : (s.setDir ln e).psc = s.psc := rfl
@[simp] theorem setDir_devs (s : State) (ln : Nat) (e : Option DirEnt) : (s.setDir ln e).devs = s.devs := rfl
@[simp] theorem setDir_devNext (s : State) (ln : Nat) (e : Option DirEnt) : (s.setDir ln e).devNext = s.devNext := rfl
@[simp] theorem setDir_ports (s : State) (ln : Nat) (e : Option DirEnt) : (s.setDir ln e).ports = s.ports := rfl
@[simp] theorem setDir_iots (s : State) (ln : Nat) (e : Option DirEnt) : (s.setDir ln e).iots = s.iots := rfl
@[simp] theorem setDir_saves (s : State) (ln : Nat) (e : Option DirEnt) : (s.setDir ln e).saves = s.saves := rfl
@[simp] theorem setDir_cluSaves (s : State) (ln : Nat) (e : Option DirEnt) : (s.setDir ln e).cluSaves = s.cluSaves := rfl
@[simp] theorem setDir_ibi (s : State) (ln : Nat) (e : Option DirEnt) : (s.setDir ln e).ibi = s.ibi := rfl
@[simp] theorem setDir_meter (s : State) (ln : Nat) (e : Option DirEnt) : (s.setDir ln e).meter = s.meter := rfl
@[simp] theorem setDir_pwr (s : State) (ln : Nat) (e : Option DirEnt) : (s.setDir ln e).pwr = s.pwr := rfl
@[simp] theorem setDir_taps (s : State) (ln : Nat) (e : Option DirEnt) : (s.setDir ln e).taps = s.taps := rfl
@[simp] theorem setDir_ctrs (s : State) (ln : Nat) (e : Option DirEnt) : (s.setDir ln e).ctrs = s.ctrs := rfl
@[simp] theorem setDir_dumps (s : State) (ln : Nat) (e : Option DirEnt) : (s.setDir ln e).dumps = s.dumps := rfl
@[simp] theorem setDir_snaps (s : State) (ln : Nat) (e : Option DirEnt) : (s.setDir ln e).snaps = s.snaps := rfl
@[simp] theorem setDir_reply (s : State) (ln : Nat) (e : Option DirEnt) : (s.setDir ln e).reply = s.reply := rfl

/-! ## bbCoal -/

@[simp] theorem bbCoal_pending (s : State) (code : Nat) (p : Pid) (inst page : Nat) : (s.bbCoal code p inst page).pending = s.pending := rfl
@[simp] theorem bbCoal_free (s : State) (code : Nat) (p : Pid) (inst page : Nat) : (s.bbCoal code p inst page).free = s.free := rfl
@[simp] theorem bbCoal_cycle (s : State) (code : Nat) (p : Pid) (inst page : Nat) : (s.bbCoal code p inst page).cycle = s.cycle := rfl
@[simp] theorem bbCoal_regs (s : State) (code : Nat) (p : Pid) (inst page : Nat) : (s.bbCoal code p inst page).regs = s.regs := rfl
@[simp] theorem bbCoal_mem (s : State) (code : Nat) (p : Pid) (inst page : Nat) : (s.bbCoal code p inst page).mem = s.mem := rfl
@[simp] theorem bbCoal_lines (s : State) (code : Nat) (p : Pid) (inst page : Nat) : (s.bbCoal code p inst page).lines = s.lines := rfl
@[simp] theorem bbCoal_l2Lru (s : State) (code : Nat) (p : Pid) (inst page : Nat) : (s.bbCoal code p inst page).l2Lru = s.l2Lru := rfl
@[simp] theorem bbCoal_hresv (s : State) (code : Nat) (p : Pid) (inst page : Nat) : (s.bbCoal code p inst page).hresv = s.hresv := rfl
@[simp] theorem bbCoal_tlbOwed (s : State) (code : Nat) (p : Pid) (inst page : Nat) : (s.bbCoal code p inst page).tlbOwed = s.tlbOwed := rfl
@[simp] theorem bbCoal_cores (s : State) (code : Nat) (p : Pid) (inst page : Nat) : (s.bbCoal code p inst page).cores = s.cores := rfl
@[simp] theorem bbCoal_facets (s : State) (code : Nat) (p : Pid) (inst page : Nat) : (s.bbCoal code p inst page).facets = s.facets := rfl
@[simp] theorem bbCoal_marker (s : State) (code : Nat) (p : Pid) (inst page : Nat) : (s.bbCoal code p inst page).marker = s.marker := rfl
@[simp] theorem bbCoal_refBad (s : State) (code : Nat) (p : Pid) (inst page : Nat) : (s.bbCoal code p inst page).refBad = s.refBad := rfl
@[simp] theorem bbCoal_net (s : State) (code : Nat) (p : Pid) (inst page : Nat) : (s.bbCoal code p inst page).net = s.net := rfl
@[simp] theorem bbCoal_latch (s : State) (code : Nat) (p : Pid) (inst page : Nat) : (s.bbCoal code p inst page).latch = s.latch := rfl
@[simp] theorem bbCoal_chord (s : State) (code : Nat) (p : Pid) (inst page : Nat) : (s.bbCoal code p inst page).chord = s.chord := rfl
@[simp] theorem bbCoal_hbm (s : State) (code : Nat) (p : Pid) (inst page : Nat) : (s.bbCoal code p inst page).hbm = s.hbm := rfl
@[simp] theorem bbCoal_msgs (s : State) (code : Nat) (p : Pid) (inst page : Nat) : (s.bbCoal code p inst page).msgs = s.msgs := rfl
@[simp] theorem bbCoal_bbx (s : State) (code : Nat) (p : Pid) (inst page : Nat) : (s.bbCoal code p inst page).bbx = s.bbx := rfl
@[simp] theorem bbCoal_ras (s : State) (code : Nat) (p : Pid) (inst page : Nat) : (s.bbCoal code p inst page).ras = s.ras := rfl
@[simp] theorem bbCoal_rasSeq (s : State) (code : Nat) (p : Pid) (inst page : Nat) : (s.bbCoal code p inst page).rasSeq = s.rasSeq := rfl
@[simp] theorem bbCoal_ipi (s : State) (code : Nat) (p : Pid) (inst page : Nat) : (s.bbCoal code p inst page).ipi = s.ipi := rfl
@[simp] theorem bbCoal_wakeO (s : State) (code : Nat) (p : Pid) (inst page : Nat) : (s.bbCoal code p inst page).wakeO = s.wakeO := rfl
@[simp] theorem bbCoal_wakeI (s : State) (code : Nat) (p : Pid) (inst page : Nat) : (s.bbCoal code p inst page).wakeI = s.wakeI := rfl
@[simp] theorem bbCoal_wakeAb (s : State) (code : Nat) (p : Pid) (inst page : Nat) : (s.bbCoal code p inst page).wakeAb = s.wakeAb := rfl
@[simp] theorem bbCoal_smplBuf (s : State) (code : Nat) (p : Pid) (inst page : Nat) : (s.bbCoal code p inst page).smplBuf = s.smplBuf := rfl
@[simp] theorem bbCoal_refused (s : State) (code : Nat) (p : Pid) (inst page : Nat) : (s.bbCoal code p inst page).refused = s.refused := rfl
@[simp] theorem bbCoal_fatal (s : State) (code : Nat) (p : Pid) (inst page : Nat) : (s.bbCoal code p inst page).fatal = s.fatal := rfl
@[simp] theorem bbCoal_psc (s : State) (code : Nat) (p : Pid) (inst page : Nat) : (s.bbCoal code p inst page).psc = s.psc := rfl
@[simp] theorem bbCoal_devs (s : State) (code : Nat) (p : Pid) (inst page : Nat) : (s.bbCoal code p inst page).devs = s.devs := rfl
@[simp] theorem bbCoal_devNext (s : State) (code : Nat) (p : Pid) (inst page : Nat) : (s.bbCoal code p inst page).devNext = s.devNext := rfl
@[simp] theorem bbCoal_ports (s : State) (code : Nat) (p : Pid) (inst page : Nat) : (s.bbCoal code p inst page).ports = s.ports := rfl
@[simp] theorem bbCoal_iots (s : State) (code : Nat) (p : Pid) (inst page : Nat) : (s.bbCoal code p inst page).iots = s.iots := rfl
@[simp] theorem bbCoal_saves (s : State) (code : Nat) (p : Pid) (inst page : Nat) : (s.bbCoal code p inst page).saves = s.saves := rfl
@[simp] theorem bbCoal_cluSaves (s : State) (code : Nat) (p : Pid) (inst page : Nat) : (s.bbCoal code p inst page).cluSaves = s.cluSaves := rfl
@[simp] theorem bbCoal_ibi (s : State) (code : Nat) (p : Pid) (inst page : Nat) : (s.bbCoal code p inst page).ibi = s.ibi := rfl
@[simp] theorem bbCoal_meter (s : State) (code : Nat) (p : Pid) (inst page : Nat) : (s.bbCoal code p inst page).meter = s.meter := rfl
@[simp] theorem bbCoal_pwr (s : State) (code : Nat) (p : Pid) (inst page : Nat) : (s.bbCoal code p inst page).pwr = s.pwr := rfl
@[simp] theorem bbCoal_taps (s : State) (code : Nat) (p : Pid) (inst page : Nat) : (s.bbCoal code p inst page).taps = s.taps := rfl
@[simp] theorem bbCoal_ctrs (s : State) (code : Nat) (p : Pid) (inst page : Nat) : (s.bbCoal code p inst page).ctrs = s.ctrs := rfl
@[simp] theorem bbCoal_dumps (s : State) (code : Nat) (p : Pid) (inst page : Nat) : (s.bbCoal code p inst page).dumps = s.dumps := rfl
@[simp] theorem bbCoal_snaps (s : State) (code : Nat) (p : Pid) (inst page : Nat) : (s.bbCoal code p inst page).snaps = s.snaps := rfl
@[simp] theorem bbCoal_reply (s : State) (code : Nat) (p : Pid) (inst page : Nat) : (s.bbCoal code p inst page).reply = s.reply := rfl

/-! ## portCount -/

@[simp] theorem portCount_pending (s : State) (kind : Nat) (p : Pid) (e c n : Nat) : (s.portCount kind p e c n).pending = s.pending := rfl
@[simp] theorem portCount_free (s : State) (kind : Nat) (p : Pid) (e c n : Nat) : (s.portCount kind p e c n).free = s.free := rfl
@[simp] theorem portCount_cycle (s : State) (kind : Nat) (p : Pid) (e c n : Nat) : (s.portCount kind p e c n).cycle = s.cycle := rfl
@[simp] theorem portCount_regs (s : State) (kind : Nat) (p : Pid) (e c n : Nat) : (s.portCount kind p e c n).regs = s.regs := rfl
@[simp] theorem portCount_mem (s : State) (kind : Nat) (p : Pid) (e c n : Nat) : (s.portCount kind p e c n).mem = s.mem := rfl
@[simp] theorem portCount_lines (s : State) (kind : Nat) (p : Pid) (e c n : Nat) : (s.portCount kind p e c n).lines = s.lines := rfl
@[simp] theorem portCount_l2Lru (s : State) (kind : Nat) (p : Pid) (e c n : Nat) : (s.portCount kind p e c n).l2Lru = s.l2Lru := rfl
@[simp] theorem portCount_hresv (s : State) (kind : Nat) (p : Pid) (e c n : Nat) : (s.portCount kind p e c n).hresv = s.hresv := rfl
@[simp] theorem portCount_tlbOwed (s : State) (kind : Nat) (p : Pid) (e c n : Nat) : (s.portCount kind p e c n).tlbOwed = s.tlbOwed := rfl
@[simp] theorem portCount_cores (s : State) (kind : Nat) (p : Pid) (e c n : Nat) : (s.portCount kind p e c n).cores = s.cores := rfl
@[simp] theorem portCount_facets (s : State) (kind : Nat) (p : Pid) (e c n : Nat) : (s.portCount kind p e c n).facets = s.facets := rfl
@[simp] theorem portCount_marker (s : State) (kind : Nat) (p : Pid) (e c n : Nat) : (s.portCount kind p e c n).marker = s.marker := rfl
@[simp] theorem portCount_refBad (s : State) (kind : Nat) (p : Pid) (e c n : Nat) : (s.portCount kind p e c n).refBad = s.refBad := rfl
@[simp] theorem portCount_net (s : State) (kind : Nat) (p : Pid) (e c n : Nat) : (s.portCount kind p e c n).net = s.net := rfl
@[simp] theorem portCount_latch (s : State) (kind : Nat) (p : Pid) (e c n : Nat) : (s.portCount kind p e c n).latch = s.latch := rfl
@[simp] theorem portCount_chord (s : State) (kind : Nat) (p : Pid) (e c n : Nat) : (s.portCount kind p e c n).chord = s.chord := rfl
@[simp] theorem portCount_hbm (s : State) (kind : Nat) (p : Pid) (e c n : Nat) : (s.portCount kind p e c n).hbm = s.hbm := rfl
@[simp] theorem portCount_msgs (s : State) (kind : Nat) (p : Pid) (e c n : Nat) : (s.portCount kind p e c n).msgs = s.msgs := rfl
@[simp] theorem portCount_bbx (s : State) (kind : Nat) (p : Pid) (e c n : Nat) : (s.portCount kind p e c n).bbx = s.bbx := rfl
@[simp] theorem portCount_coal (s : State) (kind : Nat) (p : Pid) (e c n : Nat) : (s.portCount kind p e c n).coal = s.coal := rfl
@[simp] theorem portCount_ras (s : State) (kind : Nat) (p : Pid) (e c n : Nat) : (s.portCount kind p e c n).ras = s.ras := rfl
@[simp] theorem portCount_rasSeq (s : State) (kind : Nat) (p : Pid) (e c n : Nat) : (s.portCount kind p e c n).rasSeq = s.rasSeq := rfl
@[simp] theorem portCount_ipi (s : State) (kind : Nat) (p : Pid) (e c n : Nat) : (s.portCount kind p e c n).ipi = s.ipi := rfl
@[simp] theorem portCount_wakeO (s : State) (kind : Nat) (p : Pid) (e c n : Nat) : (s.portCount kind p e c n).wakeO = s.wakeO := rfl
@[simp] theorem portCount_wakeI (s : State) (kind : Nat) (p : Pid) (e c n : Nat) : (s.portCount kind p e c n).wakeI = s.wakeI := rfl
@[simp] theorem portCount_wakeAb (s : State) (kind : Nat) (p : Pid) (e c n : Nat) : (s.portCount kind p e c n).wakeAb = s.wakeAb := rfl
@[simp] theorem portCount_smplBuf (s : State) (kind : Nat) (p : Pid) (e c n : Nat) : (s.portCount kind p e c n).smplBuf = s.smplBuf := rfl
@[simp] theorem portCount_refused (s : State) (kind : Nat) (p : Pid) (e c n : Nat) : (s.portCount kind p e c n).refused = s.refused := rfl
@[simp] theorem portCount_fatal (s : State) (kind : Nat) (p : Pid) (e c n : Nat) : (s.portCount kind p e c n).fatal = s.fatal := rfl
@[simp] theorem portCount_psc (s : State) (kind : Nat) (p : Pid) (e c n : Nat) : (s.portCount kind p e c n).psc = s.psc := rfl
@[simp] theorem portCount_devs (s : State) (kind : Nat) (p : Pid) (e c n : Nat) : (s.portCount kind p e c n).devs = s.devs := rfl
@[simp] theorem portCount_devNext (s : State) (kind : Nat) (p : Pid) (e c n : Nat) : (s.portCount kind p e c n).devNext = s.devNext := rfl
@[simp] theorem portCount_ports (s : State) (kind : Nat) (p : Pid) (e c n : Nat) : (s.portCount kind p e c n).ports = s.ports := rfl
@[simp] theorem portCount_iots (s : State) (kind : Nat) (p : Pid) (e c n : Nat) : (s.portCount kind p e c n).iots = s.iots := rfl
@[simp] theorem portCount_saves (s : State) (kind : Nat) (p : Pid) (e c n : Nat) : (s.portCount kind p e c n).saves = s.saves := rfl
@[simp] theorem portCount_cluSaves (s : State) (kind : Nat) (p : Pid) (e c n : Nat) : (s.portCount kind p e c n).cluSaves = s.cluSaves := rfl
@[simp] theorem portCount_ibi (s : State) (kind : Nat) (p : Pid) (e c n : Nat) : (s.portCount kind p e c n).ibi = s.ibi := rfl
@[simp] theorem portCount_meter (s : State) (kind : Nat) (p : Pid) (e c n : Nat) : (s.portCount kind p e c n).meter = s.meter := rfl
@[simp] theorem portCount_pwr (s : State) (kind : Nat) (p : Pid) (e c n : Nat) : (s.portCount kind p e c n).pwr = s.pwr := rfl
@[simp] theorem portCount_taps (s : State) (kind : Nat) (p : Pid) (e c n : Nat) : (s.portCount kind p e c n).taps = s.taps := rfl
@[simp] theorem portCount_dumps (s : State) (kind : Nat) (p : Pid) (e c n : Nat) : (s.portCount kind p e c n).dumps = s.dumps := rfl
@[simp] theorem portCount_snaps (s : State) (kind : Nat) (p : Pid) (e c n : Nat) : (s.portCount kind p e c n).snaps = s.snaps := rfl
@[simp] theorem portCount_reply (s : State) (kind : Nat) (p : Pid) (e c n : Nat) : (s.portCount kind p e c n).reply = s.reply := rfl

/-! ## deliver -/

@[simp] theorem deliver_pending (s : State) (p : Pid) (i : Nat) (g : Bool) (k : CoreId) : (s.deliver p i g k).pending = s.pending := rfl
@[simp] theorem deliver_free (s : State) (p : Pid) (i : Nat) (g : Bool) (k : CoreId) : (s.deliver p i g k).free = s.free := rfl
@[simp] theorem deliver_cycle (s : State) (p : Pid) (i : Nat) (g : Bool) (k : CoreId) : (s.deliver p i g k).cycle = s.cycle := rfl
@[simp] theorem deliver_regs (s : State) (p : Pid) (i : Nat) (g : Bool) (k : CoreId) : (s.deliver p i g k).regs = s.regs := rfl
@[simp] theorem deliver_mem (s : State) (p : Pid) (i : Nat) (g : Bool) (k : CoreId) : (s.deliver p i g k).mem = s.mem := rfl
@[simp] theorem deliver_lines (s : State) (p : Pid) (i : Nat) (g : Bool) (k : CoreId) : (s.deliver p i g k).lines = s.lines := rfl
@[simp] theorem deliver_l2Lru (s : State) (p : Pid) (i : Nat) (g : Bool) (k : CoreId) : (s.deliver p i g k).l2Lru = s.l2Lru := rfl
@[simp] theorem deliver_hresv (s : State) (p : Pid) (i : Nat) (g : Bool) (k : CoreId) : (s.deliver p i g k).hresv = s.hresv := rfl
@[simp] theorem deliver_tlbOwed (s : State) (p : Pid) (i : Nat) (g : Bool) (k : CoreId) : (s.deliver p i g k).tlbOwed = s.tlbOwed := rfl
@[simp] theorem deliver_cores (s : State) (p : Pid) (i : Nat) (g : Bool) (k : CoreId) : (s.deliver p i g k).cores = s.cores := rfl
@[simp] theorem deliver_facets (s : State) (p : Pid) (i : Nat) (g : Bool) (k : CoreId) : (s.deliver p i g k).facets = s.facets := rfl
@[simp] theorem deliver_marker (s : State) (p : Pid) (i : Nat) (g : Bool) (k : CoreId) : (s.deliver p i g k).marker = s.marker := rfl
@[simp] theorem deliver_refBad (s : State) (p : Pid) (i : Nat) (g : Bool) (k : CoreId) : (s.deliver p i g k).refBad = s.refBad := rfl
@[simp] theorem deliver_net (s : State) (p : Pid) (i : Nat) (g : Bool) (k : CoreId) : (s.deliver p i g k).net = s.net := rfl
@[simp] theorem deliver_latch (s : State) (p : Pid) (i : Nat) (g : Bool) (k : CoreId) : (s.deliver p i g k).latch = s.latch := rfl
@[simp] theorem deliver_chord (s : State) (p : Pid) (i : Nat) (g : Bool) (k : CoreId) : (s.deliver p i g k).chord = s.chord := rfl
@[simp] theorem deliver_hbm (s : State) (p : Pid) (i : Nat) (g : Bool) (k : CoreId) : (s.deliver p i g k).hbm = s.hbm := rfl
@[simp] theorem deliver_bbx (s : State) (p : Pid) (i : Nat) (g : Bool) (k : CoreId) : (s.deliver p i g k).bbx = s.bbx := rfl
@[simp] theorem deliver_coal (s : State) (p : Pid) (i : Nat) (g : Bool) (k : CoreId) : (s.deliver p i g k).coal = s.coal := rfl
@[simp] theorem deliver_ras (s : State) (p : Pid) (i : Nat) (g : Bool) (k : CoreId) : (s.deliver p i g k).ras = s.ras := rfl
@[simp] theorem deliver_rasSeq (s : State) (p : Pid) (i : Nat) (g : Bool) (k : CoreId) : (s.deliver p i g k).rasSeq = s.rasSeq := rfl
@[simp] theorem deliver_ipi (s : State) (p : Pid) (i : Nat) (g : Bool) (k : CoreId) : (s.deliver p i g k).ipi = s.ipi := rfl
@[simp] theorem deliver_wakeO (s : State) (p : Pid) (i : Nat) (g : Bool) (k : CoreId) : (s.deliver p i g k).wakeO = s.wakeO := rfl
@[simp] theorem deliver_wakeI (s : State) (p : Pid) (i : Nat) (g : Bool) (k : CoreId) : (s.deliver p i g k).wakeI = s.wakeI := rfl
@[simp] theorem deliver_wakeAb (s : State) (p : Pid) (i : Nat) (g : Bool) (k : CoreId) : (s.deliver p i g k).wakeAb = s.wakeAb := rfl
@[simp] theorem deliver_smplBuf (s : State) (p : Pid) (i : Nat) (g : Bool) (k : CoreId) : (s.deliver p i g k).smplBuf = s.smplBuf := rfl
@[simp] theorem deliver_refused (s : State) (p : Pid) (i : Nat) (g : Bool) (k : CoreId) : (s.deliver p i g k).refused = s.refused := rfl
@[simp] theorem deliver_fatal (s : State) (p : Pid) (i : Nat) (g : Bool) (k : CoreId) : (s.deliver p i g k).fatal = s.fatal := rfl
@[simp] theorem deliver_psc (s : State) (p : Pid) (i : Nat) (g : Bool) (k : CoreId) : (s.deliver p i g k).psc = s.psc := rfl
@[simp] theorem deliver_devs (s : State) (p : Pid) (i : Nat) (g : Bool) (k : CoreId) : (s.deliver p i g k).devs = s.devs := rfl
@[simp] theorem deliver_devNext (s : State) (p : Pid) (i : Nat) (g : Bool) (k : CoreId) : (s.deliver p i g k).devNext = s.devNext := rfl
@[simp] theorem deliver_ports (s : State) (p : Pid) (i : Nat) (g : Bool) (k : CoreId) : (s.deliver p i g k).ports = s.ports := rfl
@[simp] theorem deliver_iots (s : State) (p : Pid) (i : Nat) (g : Bool) (k : CoreId) : (s.deliver p i g k).iots = s.iots := rfl
@[simp] theorem deliver_saves (s : State) (p : Pid) (i : Nat) (g : Bool) (k : CoreId) : (s.deliver p i g k).saves = s.saves := rfl
@[simp] theorem deliver_cluSaves (s : State) (p : Pid) (i : Nat) (g : Bool) (k : CoreId) : (s.deliver p i g k).cluSaves = s.cluSaves := rfl
@[simp] theorem deliver_ibi (s : State) (p : Pid) (i : Nat) (g : Bool) (k : CoreId) : (s.deliver p i g k).ibi = s.ibi := rfl
@[simp] theorem deliver_meter (s : State) (p : Pid) (i : Nat) (g : Bool) (k : CoreId) : (s.deliver p i g k).meter = s.meter := rfl
@[simp] theorem deliver_pwr (s : State) (p : Pid) (i : Nat) (g : Bool) (k : CoreId) : (s.deliver p i g k).pwr = s.pwr := rfl
@[simp] theorem deliver_taps (s : State) (p : Pid) (i : Nat) (g : Bool) (k : CoreId) : (s.deliver p i g k).taps = s.taps := rfl
@[simp] theorem deliver_ctrs (s : State) (p : Pid) (i : Nat) (g : Bool) (k : CoreId) : (s.deliver p i g k).ctrs = s.ctrs := rfl
@[simp] theorem deliver_dumps (s : State) (p : Pid) (i : Nat) (g : Bool) (k : CoreId) : (s.deliver p i g k).dumps = s.dumps := rfl
@[simp] theorem deliver_snaps (s : State) (p : Pid) (i : Nat) (g : Bool) (k : CoreId) : (s.deliver p i g k).snaps = s.snaps := rfl
@[simp] theorem deliver_reply (s : State) (p : Pid) (i : Nat) (g : Bool) (k : CoreId) : (s.deliver p i g k).reply = s.reply := rfl

/-! ## setFacet -/

@[simp] theorem setFacet_pending (s : State) (f : FacetId) (x : Facet) : (s.setFacet f x).pending = s.pending := rfl
@[simp] theorem setFacet_free (s : State) (f : FacetId) (x : Facet) : (s.setFacet f x).free = s.free := rfl
@[simp] theorem setFacet_cycle (s : State) (f : FacetId) (x : Facet) : (s.setFacet f x).cycle = s.cycle := rfl
@[simp] theorem setFacet_regs (s : State) (f : FacetId) (x : Facet) : (s.setFacet f x).regs = s.regs := rfl
@[simp] theorem setFacet_mem (s : State) (f : FacetId) (x : Facet) : (s.setFacet f x).mem = s.mem := rfl
@[simp] theorem setFacet_lines (s : State) (f : FacetId) (x : Facet) : (s.setFacet f x).lines = s.lines := rfl
@[simp] theorem setFacet_l2Lru (s : State) (f : FacetId) (x : Facet) : (s.setFacet f x).l2Lru = s.l2Lru := rfl
@[simp] theorem setFacet_hresv (s : State) (f : FacetId) (x : Facet) : (s.setFacet f x).hresv = s.hresv := rfl
@[simp] theorem setFacet_tlbOwed (s : State) (f : FacetId) (x : Facet) : (s.setFacet f x).tlbOwed = s.tlbOwed := rfl
@[simp] theorem setFacet_cores (s : State) (f : FacetId) (x : Facet) : (s.setFacet f x).cores = s.cores := rfl
@[simp] theorem setFacet_marker (s : State) (f : FacetId) (x : Facet) : (s.setFacet f x).marker = s.marker := rfl
@[simp] theorem setFacet_refBad (s : State) (f : FacetId) (x : Facet) : (s.setFacet f x).refBad = s.refBad := rfl
@[simp] theorem setFacet_net (s : State) (f : FacetId) (x : Facet) : (s.setFacet f x).net = s.net := rfl
@[simp] theorem setFacet_latch (s : State) (f : FacetId) (x : Facet) : (s.setFacet f x).latch = s.latch := rfl
@[simp] theorem setFacet_chord (s : State) (f : FacetId) (x : Facet) : (s.setFacet f x).chord = s.chord := rfl
@[simp] theorem setFacet_hbm (s : State) (f : FacetId) (x : Facet) : (s.setFacet f x).hbm = s.hbm := rfl
@[simp] theorem setFacet_msgs (s : State) (f : FacetId) (x : Facet) : (s.setFacet f x).msgs = s.msgs := rfl
@[simp] theorem setFacet_bbx (s : State) (f : FacetId) (x : Facet) : (s.setFacet f x).bbx = s.bbx := rfl
@[simp] theorem setFacet_coal (s : State) (f : FacetId) (x : Facet) : (s.setFacet f x).coal = s.coal := rfl
@[simp] theorem setFacet_ras (s : State) (f : FacetId) (x : Facet) : (s.setFacet f x).ras = s.ras := rfl
@[simp] theorem setFacet_rasSeq (s : State) (f : FacetId) (x : Facet) : (s.setFacet f x).rasSeq = s.rasSeq := rfl
@[simp] theorem setFacet_ipi (s : State) (f : FacetId) (x : Facet) : (s.setFacet f x).ipi = s.ipi := rfl
@[simp] theorem setFacet_wakeO (s : State) (f : FacetId) (x : Facet) : (s.setFacet f x).wakeO = s.wakeO := rfl
@[simp] theorem setFacet_wakeI (s : State) (f : FacetId) (x : Facet) : (s.setFacet f x).wakeI = s.wakeI := rfl
@[simp] theorem setFacet_wakeAb (s : State) (f : FacetId) (x : Facet) : (s.setFacet f x).wakeAb = s.wakeAb := rfl
@[simp] theorem setFacet_smplBuf (s : State) (f : FacetId) (x : Facet) : (s.setFacet f x).smplBuf = s.smplBuf := rfl
@[simp] theorem setFacet_refused (s : State) (f : FacetId) (x : Facet) : (s.setFacet f x).refused = s.refused := rfl
@[simp] theorem setFacet_fatal (s : State) (f : FacetId) (x : Facet) : (s.setFacet f x).fatal = s.fatal := rfl
@[simp] theorem setFacet_psc (s : State) (f : FacetId) (x : Facet) : (s.setFacet f x).psc = s.psc := rfl
@[simp] theorem setFacet_devs (s : State) (f : FacetId) (x : Facet) : (s.setFacet f x).devs = s.devs := rfl
@[simp] theorem setFacet_devNext (s : State) (f : FacetId) (x : Facet) : (s.setFacet f x).devNext = s.devNext := rfl
@[simp] theorem setFacet_ports (s : State) (f : FacetId) (x : Facet) : (s.setFacet f x).ports = s.ports := rfl
@[simp] theorem setFacet_iots (s : State) (f : FacetId) (x : Facet) : (s.setFacet f x).iots = s.iots := rfl
@[simp] theorem setFacet_saves (s : State) (f : FacetId) (x : Facet) : (s.setFacet f x).saves = s.saves := rfl
@[simp] theorem setFacet_cluSaves (s : State) (f : FacetId) (x : Facet) : (s.setFacet f x).cluSaves = s.cluSaves := rfl
@[simp] theorem setFacet_ibi (s : State) (f : FacetId) (x : Facet) : (s.setFacet f x).ibi = s.ibi := rfl
@[simp] theorem setFacet_meter (s : State) (f : FacetId) (x : Facet) : (s.setFacet f x).meter = s.meter := rfl
@[simp] theorem setFacet_pwr (s : State) (f : FacetId) (x : Facet) : (s.setFacet f x).pwr = s.pwr := rfl
@[simp] theorem setFacet_taps (s : State) (f : FacetId) (x : Facet) : (s.setFacet f x).taps = s.taps := rfl
@[simp] theorem setFacet_ctrs (s : State) (f : FacetId) (x : Facet) : (s.setFacet f x).ctrs = s.ctrs := rfl
@[simp] theorem setFacet_dumps (s : State) (f : FacetId) (x : Facet) : (s.setFacet f x).dumps = s.dumps := rfl
@[simp] theorem setFacet_snaps (s : State) (f : FacetId) (x : Facet) : (s.setFacet f x).snaps = s.snaps := rfl
@[simp] theorem setFacet_reply (s : State) (f : FacetId) (x : Facet) : (s.setFacet f x).reply = s.reply := rfl

/-! ## setStrand -/

@[simp] theorem setStrand_pending (s : State) (f : FacetId) (st : StrandId) (x : Strand) : (s.setStrand f st x).pending = s.pending := rfl
@[simp] theorem setStrand_free (s : State) (f : FacetId) (st : StrandId) (x : Strand) : (s.setStrand f st x).free = s.free := rfl
@[simp] theorem setStrand_cycle (s : State) (f : FacetId) (st : StrandId) (x : Strand) : (s.setStrand f st x).cycle = s.cycle := rfl
@[simp] theorem setStrand_regs (s : State) (f : FacetId) (st : StrandId) (x : Strand) : (s.setStrand f st x).regs = s.regs := rfl
@[simp] theorem setStrand_mem (s : State) (f : FacetId) (st : StrandId) (x : Strand) : (s.setStrand f st x).mem = s.mem := rfl
@[simp] theorem setStrand_lines (s : State) (f : FacetId) (st : StrandId) (x : Strand) : (s.setStrand f st x).lines = s.lines := rfl
@[simp] theorem setStrand_l2Lru (s : State) (f : FacetId) (st : StrandId) (x : Strand) : (s.setStrand f st x).l2Lru = s.l2Lru := rfl
@[simp] theorem setStrand_hresv (s : State) (f : FacetId) (st : StrandId) (x : Strand) : (s.setStrand f st x).hresv = s.hresv := rfl
@[simp] theorem setStrand_tlbOwed (s : State) (f : FacetId) (st : StrandId) (x : Strand) : (s.setStrand f st x).tlbOwed = s.tlbOwed := rfl
@[simp] theorem setStrand_cores (s : State) (f : FacetId) (st : StrandId) (x : Strand) : (s.setStrand f st x).cores = s.cores := rfl
@[simp] theorem setStrand_facets (s : State) (f : FacetId) (st : StrandId) (x : Strand) : (s.setStrand f st x).facets = s.facets := rfl
@[simp] theorem setStrand_marker (s : State) (f : FacetId) (st : StrandId) (x : Strand) : (s.setStrand f st x).marker = s.marker := rfl
@[simp] theorem setStrand_refBad (s : State) (f : FacetId) (st : StrandId) (x : Strand) : (s.setStrand f st x).refBad = s.refBad := rfl
@[simp] theorem setStrand_net (s : State) (f : FacetId) (st : StrandId) (x : Strand) : (s.setStrand f st x).net = s.net := rfl
@[simp] theorem setStrand_latch (s : State) (f : FacetId) (st : StrandId) (x : Strand) : (s.setStrand f st x).latch = s.latch := rfl
@[simp] theorem setStrand_hbm (s : State) (f : FacetId) (st : StrandId) (x : Strand) : (s.setStrand f st x).hbm = s.hbm := rfl
@[simp] theorem setStrand_msgs (s : State) (f : FacetId) (st : StrandId) (x : Strand) : (s.setStrand f st x).msgs = s.msgs := rfl
@[simp] theorem setStrand_bbx (s : State) (f : FacetId) (st : StrandId) (x : Strand) : (s.setStrand f st x).bbx = s.bbx := rfl
@[simp] theorem setStrand_coal (s : State) (f : FacetId) (st : StrandId) (x : Strand) : (s.setStrand f st x).coal = s.coal := rfl
@[simp] theorem setStrand_ras (s : State) (f : FacetId) (st : StrandId) (x : Strand) : (s.setStrand f st x).ras = s.ras := rfl
@[simp] theorem setStrand_rasSeq (s : State) (f : FacetId) (st : StrandId) (x : Strand) : (s.setStrand f st x).rasSeq = s.rasSeq := rfl
@[simp] theorem setStrand_ipi (s : State) (f : FacetId) (st : StrandId) (x : Strand) : (s.setStrand f st x).ipi = s.ipi := rfl
@[simp] theorem setStrand_wakeO (s : State) (f : FacetId) (st : StrandId) (x : Strand) : (s.setStrand f st x).wakeO = s.wakeO := rfl
@[simp] theorem setStrand_wakeI (s : State) (f : FacetId) (st : StrandId) (x : Strand) : (s.setStrand f st x).wakeI = s.wakeI := rfl
@[simp] theorem setStrand_wakeAb (s : State) (f : FacetId) (st : StrandId) (x : Strand) : (s.setStrand f st x).wakeAb = s.wakeAb := rfl
@[simp] theorem setStrand_smplBuf (s : State) (f : FacetId) (st : StrandId) (x : Strand) : (s.setStrand f st x).smplBuf = s.smplBuf := rfl
@[simp] theorem setStrand_refused (s : State) (f : FacetId) (st : StrandId) (x : Strand) : (s.setStrand f st x).refused = s.refused := rfl
@[simp] theorem setStrand_fatal (s : State) (f : FacetId) (st : StrandId) (x : Strand) : (s.setStrand f st x).fatal = s.fatal := rfl
@[simp] theorem setStrand_psc (s : State) (f : FacetId) (st : StrandId) (x : Strand) : (s.setStrand f st x).psc = s.psc := rfl
@[simp] theorem setStrand_devs (s : State) (f : FacetId) (st : StrandId) (x : Strand) : (s.setStrand f st x).devs = s.devs := rfl
@[simp] theorem setStrand_devNext (s : State) (f : FacetId) (st : StrandId) (x : Strand) : (s.setStrand f st x).devNext = s.devNext := rfl
@[simp] theorem setStrand_ports (s : State) (f : FacetId) (st : StrandId) (x : Strand) : (s.setStrand f st x).ports = s.ports := rfl
@[simp] theorem setStrand_iots (s : State) (f : FacetId) (st : StrandId) (x : Strand) : (s.setStrand f st x).iots = s.iots := rfl
@[simp] theorem setStrand_saves (s : State) (f : FacetId) (st : StrandId) (x : Strand) : (s.setStrand f st x).saves = s.saves := rfl
@[simp] theorem setStrand_cluSaves (s : State) (f : FacetId) (st : StrandId) (x : Strand) : (s.setStrand f st x).cluSaves = s.cluSaves := rfl
@[simp] theorem setStrand_ibi (s : State) (f : FacetId) (st : StrandId) (x : Strand) : (s.setStrand f st x).ibi = s.ibi := rfl
@[simp] theorem setStrand_meter (s : State) (f : FacetId) (st : StrandId) (x : Strand) : (s.setStrand f st x).meter = s.meter := rfl
@[simp] theorem setStrand_pwr (s : State) (f : FacetId) (st : StrandId) (x : Strand) : (s.setStrand f st x).pwr = s.pwr := rfl
@[simp] theorem setStrand_taps (s : State) (f : FacetId) (st : StrandId) (x : Strand) : (s.setStrand f st x).taps = s.taps := rfl
@[simp] theorem setStrand_ctrs (s : State) (f : FacetId) (st : StrandId) (x : Strand) : (s.setStrand f st x).ctrs = s.ctrs := rfl
@[simp] theorem setStrand_dumps (s : State) (f : FacetId) (st : StrandId) (x : Strand) : (s.setStrand f st x).dumps = s.dumps := rfl
@[simp] theorem setStrand_snaps (s : State) (f : FacetId) (st : StrandId) (x : Strand) : (s.setStrand f st x).snaps = s.snaps := rfl
@[simp] theorem setStrand_reply (s : State) (f : FacetId) (st : StrandId) (x : Strand) : (s.setStrand f st x).reply = s.reply := rfl

/-! ## setPc -/

@[simp] theorem setPc_pending (s : State) (pc : PcId) (x : PcSt) : (s.setPc pc x).pending = s.pending := rfl
@[simp] theorem setPc_free (s : State) (pc : PcId) (x : PcSt) : (s.setPc pc x).free = s.free := rfl
@[simp] theorem setPc_cycle (s : State) (pc : PcId) (x : PcSt) : (s.setPc pc x).cycle = s.cycle := rfl
@[simp] theorem setPc_regs (s : State) (pc : PcId) (x : PcSt) : (s.setPc pc x).regs = s.regs := rfl
@[simp] theorem setPc_mem (s : State) (pc : PcId) (x : PcSt) : (s.setPc pc x).mem = s.mem := rfl
@[simp] theorem setPc_lines (s : State) (pc : PcId) (x : PcSt) : (s.setPc pc x).lines = s.lines := rfl
@[simp] theorem setPc_l2Lru (s : State) (pc : PcId) (x : PcSt) : (s.setPc pc x).l2Lru = s.l2Lru := rfl
@[simp] theorem setPc_hresv (s : State) (pc : PcId) (x : PcSt) : (s.setPc pc x).hresv = s.hresv := rfl
@[simp] theorem setPc_tlbOwed (s : State) (pc : PcId) (x : PcSt) : (s.setPc pc x).tlbOwed = s.tlbOwed := rfl
@[simp] theorem setPc_cores (s : State) (pc : PcId) (x : PcSt) : (s.setPc pc x).cores = s.cores := rfl
@[simp] theorem setPc_facets (s : State) (pc : PcId) (x : PcSt) : (s.setPc pc x).facets = s.facets := rfl
@[simp] theorem setPc_marker (s : State) (pc : PcId) (x : PcSt) : (s.setPc pc x).marker = s.marker := rfl
@[simp] theorem setPc_refBad (s : State) (pc : PcId) (x : PcSt) : (s.setPc pc x).refBad = s.refBad := rfl
@[simp] theorem setPc_net (s : State) (pc : PcId) (x : PcSt) : (s.setPc pc x).net = s.net := rfl
@[simp] theorem setPc_latch (s : State) (pc : PcId) (x : PcSt) : (s.setPc pc x).latch = s.latch := rfl
@[simp] theorem setPc_chord (s : State) (pc : PcId) (x : PcSt) : (s.setPc pc x).chord = s.chord := rfl
@[simp] theorem setPc_msgs (s : State) (pc : PcId) (x : PcSt) : (s.setPc pc x).msgs = s.msgs := rfl
@[simp] theorem setPc_bbx (s : State) (pc : PcId) (x : PcSt) : (s.setPc pc x).bbx = s.bbx := rfl
@[simp] theorem setPc_coal (s : State) (pc : PcId) (x : PcSt) : (s.setPc pc x).coal = s.coal := rfl
@[simp] theorem setPc_ras (s : State) (pc : PcId) (x : PcSt) : (s.setPc pc x).ras = s.ras := rfl
@[simp] theorem setPc_rasSeq (s : State) (pc : PcId) (x : PcSt) : (s.setPc pc x).rasSeq = s.rasSeq := rfl
@[simp] theorem setPc_ipi (s : State) (pc : PcId) (x : PcSt) : (s.setPc pc x).ipi = s.ipi := rfl
@[simp] theorem setPc_wakeO (s : State) (pc : PcId) (x : PcSt) : (s.setPc pc x).wakeO = s.wakeO := rfl
@[simp] theorem setPc_wakeI (s : State) (pc : PcId) (x : PcSt) : (s.setPc pc x).wakeI = s.wakeI := rfl
@[simp] theorem setPc_wakeAb (s : State) (pc : PcId) (x : PcSt) : (s.setPc pc x).wakeAb = s.wakeAb := rfl
@[simp] theorem setPc_smplBuf (s : State) (pc : PcId) (x : PcSt) : (s.setPc pc x).smplBuf = s.smplBuf := rfl
@[simp] theorem setPc_refused (s : State) (pc : PcId) (x : PcSt) : (s.setPc pc x).refused = s.refused := rfl
@[simp] theorem setPc_fatal (s : State) (pc : PcId) (x : PcSt) : (s.setPc pc x).fatal = s.fatal := rfl
@[simp] theorem setPc_psc (s : State) (pc : PcId) (x : PcSt) : (s.setPc pc x).psc = s.psc := rfl
@[simp] theorem setPc_devs (s : State) (pc : PcId) (x : PcSt) : (s.setPc pc x).devs = s.devs := rfl
@[simp] theorem setPc_devNext (s : State) (pc : PcId) (x : PcSt) : (s.setPc pc x).devNext = s.devNext := rfl
@[simp] theorem setPc_ports (s : State) (pc : PcId) (x : PcSt) : (s.setPc pc x).ports = s.ports := rfl
@[simp] theorem setPc_iots (s : State) (pc : PcId) (x : PcSt) : (s.setPc pc x).iots = s.iots := rfl
@[simp] theorem setPc_saves (s : State) (pc : PcId) (x : PcSt) : (s.setPc pc x).saves = s.saves := rfl
@[simp] theorem setPc_cluSaves (s : State) (pc : PcId) (x : PcSt) : (s.setPc pc x).cluSaves = s.cluSaves := rfl
@[simp] theorem setPc_ibi (s : State) (pc : PcId) (x : PcSt) : (s.setPc pc x).ibi = s.ibi := rfl
@[simp] theorem setPc_meter (s : State) (pc : PcId) (x : PcSt) : (s.setPc pc x).meter = s.meter := rfl
@[simp] theorem setPc_pwr (s : State) (pc : PcId) (x : PcSt) : (s.setPc pc x).pwr = s.pwr := rfl
@[simp] theorem setPc_taps (s : State) (pc : PcId) (x : PcSt) : (s.setPc pc x).taps = s.taps := rfl
@[simp] theorem setPc_ctrs (s : State) (pc : PcId) (x : PcSt) : (s.setPc pc x).ctrs = s.ctrs := rfl
@[simp] theorem setPc_dumps (s : State) (pc : PcId) (x : PcSt) : (s.setPc pc x).dumps = s.dumps := rfl
@[simp] theorem setPc_snaps (s : State) (pc : PcId) (x : PcSt) : (s.setPc pc x).snaps = s.snaps := rfl
@[simp] theorem setPc_reply (s : State) (pc : PcId) (x : PcSt) : (s.setPc pc x).reply = s.reply := rfl

/-! ## setStack -/

@[simp] theorem setStack_pending (s : State) (m : Nat) (x : StackSt) : (s.setStack m x).pending = s.pending := rfl
@[simp] theorem setStack_free (s : State) (m : Nat) (x : StackSt) : (s.setStack m x).free = s.free := rfl
@[simp] theorem setStack_cycle (s : State) (m : Nat) (x : StackSt) : (s.setStack m x).cycle = s.cycle := rfl
@[simp] theorem setStack_regs (s : State) (m : Nat) (x : StackSt) : (s.setStack m x).regs = s.regs := rfl
@[simp] theorem setStack_mem (s : State) (m : Nat) (x : StackSt) : (s.setStack m x).mem = s.mem := rfl
@[simp] theorem setStack_lines (s : State) (m : Nat) (x : StackSt) : (s.setStack m x).lines = s.lines := rfl
@[simp] theorem setStack_l2Lru (s : State) (m : Nat) (x : StackSt) : (s.setStack m x).l2Lru = s.l2Lru := rfl
@[simp] theorem setStack_hresv (s : State) (m : Nat) (x : StackSt) : (s.setStack m x).hresv = s.hresv := rfl
@[simp] theorem setStack_tlbOwed (s : State) (m : Nat) (x : StackSt) : (s.setStack m x).tlbOwed = s.tlbOwed := rfl
@[simp] theorem setStack_cores (s : State) (m : Nat) (x : StackSt) : (s.setStack m x).cores = s.cores := rfl
@[simp] theorem setStack_facets (s : State) (m : Nat) (x : StackSt) : (s.setStack m x).facets = s.facets := rfl
@[simp] theorem setStack_marker (s : State) (m : Nat) (x : StackSt) : (s.setStack m x).marker = s.marker := rfl
@[simp] theorem setStack_refBad (s : State) (m : Nat) (x : StackSt) : (s.setStack m x).refBad = s.refBad := rfl
@[simp] theorem setStack_net (s : State) (m : Nat) (x : StackSt) : (s.setStack m x).net = s.net := rfl
@[simp] theorem setStack_latch (s : State) (m : Nat) (x : StackSt) : (s.setStack m x).latch = s.latch := rfl
@[simp] theorem setStack_chord (s : State) (m : Nat) (x : StackSt) : (s.setStack m x).chord = s.chord := rfl
@[simp] theorem setStack_msgs (s : State) (m : Nat) (x : StackSt) : (s.setStack m x).msgs = s.msgs := rfl
@[simp] theorem setStack_bbx (s : State) (m : Nat) (x : StackSt) : (s.setStack m x).bbx = s.bbx := rfl
@[simp] theorem setStack_coal (s : State) (m : Nat) (x : StackSt) : (s.setStack m x).coal = s.coal := rfl
@[simp] theorem setStack_ras (s : State) (m : Nat) (x : StackSt) : (s.setStack m x).ras = s.ras := rfl
@[simp] theorem setStack_rasSeq (s : State) (m : Nat) (x : StackSt) : (s.setStack m x).rasSeq = s.rasSeq := rfl
@[simp] theorem setStack_ipi (s : State) (m : Nat) (x : StackSt) : (s.setStack m x).ipi = s.ipi := rfl
@[simp] theorem setStack_wakeO (s : State) (m : Nat) (x : StackSt) : (s.setStack m x).wakeO = s.wakeO := rfl
@[simp] theorem setStack_wakeI (s : State) (m : Nat) (x : StackSt) : (s.setStack m x).wakeI = s.wakeI := rfl
@[simp] theorem setStack_wakeAb (s : State) (m : Nat) (x : StackSt) : (s.setStack m x).wakeAb = s.wakeAb := rfl
@[simp] theorem setStack_smplBuf (s : State) (m : Nat) (x : StackSt) : (s.setStack m x).smplBuf = s.smplBuf := rfl
@[simp] theorem setStack_refused (s : State) (m : Nat) (x : StackSt) : (s.setStack m x).refused = s.refused := rfl
@[simp] theorem setStack_fatal (s : State) (m : Nat) (x : StackSt) : (s.setStack m x).fatal = s.fatal := rfl
@[simp] theorem setStack_psc (s : State) (m : Nat) (x : StackSt) : (s.setStack m x).psc = s.psc := rfl
@[simp] theorem setStack_devs (s : State) (m : Nat) (x : StackSt) : (s.setStack m x).devs = s.devs := rfl
@[simp] theorem setStack_devNext (s : State) (m : Nat) (x : StackSt) : (s.setStack m x).devNext = s.devNext := rfl
@[simp] theorem setStack_ports (s : State) (m : Nat) (x : StackSt) : (s.setStack m x).ports = s.ports := rfl
@[simp] theorem setStack_iots (s : State) (m : Nat) (x : StackSt) : (s.setStack m x).iots = s.iots := rfl
@[simp] theorem setStack_saves (s : State) (m : Nat) (x : StackSt) : (s.setStack m x).saves = s.saves := rfl
@[simp] theorem setStack_cluSaves (s : State) (m : Nat) (x : StackSt) : (s.setStack m x).cluSaves = s.cluSaves := rfl
@[simp] theorem setStack_ibi (s : State) (m : Nat) (x : StackSt) : (s.setStack m x).ibi = s.ibi := rfl
@[simp] theorem setStack_meter (s : State) (m : Nat) (x : StackSt) : (s.setStack m x).meter = s.meter := rfl
@[simp] theorem setStack_pwr (s : State) (m : Nat) (x : StackSt) : (s.setStack m x).pwr = s.pwr := rfl
@[simp] theorem setStack_taps (s : State) (m : Nat) (x : StackSt) : (s.setStack m x).taps = s.taps := rfl
@[simp] theorem setStack_ctrs (s : State) (m : Nat) (x : StackSt) : (s.setStack m x).ctrs = s.ctrs := rfl
@[simp] theorem setStack_dumps (s : State) (m : Nat) (x : StackSt) : (s.setStack m x).dumps = s.dumps := rfl
@[simp] theorem setStack_snaps (s : State) (m : Nat) (x : StackSt) : (s.setStack m x).snaps = s.snaps := rfl
@[simp] theorem setStack_reply (s : State) (m : Nat) (x : StackSt) : (s.setStack m x).reply = s.reply := rfl

/-! ## setPortSt -/

@[simp] theorem setPortSt_pending (s : State) (p : PortId) (x : PortSt) : (s.setPortSt p x).pending = s.pending := rfl
@[simp] theorem setPortSt_free (s : State) (p : PortId) (x : PortSt) : (s.setPortSt p x).free = s.free := rfl
@[simp] theorem setPortSt_cycle (s : State) (p : PortId) (x : PortSt) : (s.setPortSt p x).cycle = s.cycle := rfl
@[simp] theorem setPortSt_regs (s : State) (p : PortId) (x : PortSt) : (s.setPortSt p x).regs = s.regs := rfl
@[simp] theorem setPortSt_mem (s : State) (p : PortId) (x : PortSt) : (s.setPortSt p x).mem = s.mem := rfl
@[simp] theorem setPortSt_lines (s : State) (p : PortId) (x : PortSt) : (s.setPortSt p x).lines = s.lines := rfl
@[simp] theorem setPortSt_l2Lru (s : State) (p : PortId) (x : PortSt) : (s.setPortSt p x).l2Lru = s.l2Lru := rfl
@[simp] theorem setPortSt_hresv (s : State) (p : PortId) (x : PortSt) : (s.setPortSt p x).hresv = s.hresv := rfl
@[simp] theorem setPortSt_tlbOwed (s : State) (p : PortId) (x : PortSt) : (s.setPortSt p x).tlbOwed = s.tlbOwed := rfl
@[simp] theorem setPortSt_cores (s : State) (p : PortId) (x : PortSt) : (s.setPortSt p x).cores = s.cores := rfl
@[simp] theorem setPortSt_facets (s : State) (p : PortId) (x : PortSt) : (s.setPortSt p x).facets = s.facets := rfl
@[simp] theorem setPortSt_marker (s : State) (p : PortId) (x : PortSt) : (s.setPortSt p x).marker = s.marker := rfl
@[simp] theorem setPortSt_refBad (s : State) (p : PortId) (x : PortSt) : (s.setPortSt p x).refBad = s.refBad := rfl
@[simp] theorem setPortSt_net (s : State) (p : PortId) (x : PortSt) : (s.setPortSt p x).net = s.net := rfl
@[simp] theorem setPortSt_latch (s : State) (p : PortId) (x : PortSt) : (s.setPortSt p x).latch = s.latch := rfl
@[simp] theorem setPortSt_chord (s : State) (p : PortId) (x : PortSt) : (s.setPortSt p x).chord = s.chord := rfl
@[simp] theorem setPortSt_hbm (s : State) (p : PortId) (x : PortSt) : (s.setPortSt p x).hbm = s.hbm := rfl
@[simp] theorem setPortSt_msgs (s : State) (p : PortId) (x : PortSt) : (s.setPortSt p x).msgs = s.msgs := rfl
@[simp] theorem setPortSt_bbx (s : State) (p : PortId) (x : PortSt) : (s.setPortSt p x).bbx = s.bbx := rfl
@[simp] theorem setPortSt_coal (s : State) (p : PortId) (x : PortSt) : (s.setPortSt p x).coal = s.coal := rfl
@[simp] theorem setPortSt_ras (s : State) (p : PortId) (x : PortSt) : (s.setPortSt p x).ras = s.ras := rfl
@[simp] theorem setPortSt_rasSeq (s : State) (p : PortId) (x : PortSt) : (s.setPortSt p x).rasSeq = s.rasSeq := rfl
@[simp] theorem setPortSt_ipi (s : State) (p : PortId) (x : PortSt) : (s.setPortSt p x).ipi = s.ipi := rfl
@[simp] theorem setPortSt_wakeO (s : State) (p : PortId) (x : PortSt) : (s.setPortSt p x).wakeO = s.wakeO := rfl
@[simp] theorem setPortSt_wakeI (s : State) (p : PortId) (x : PortSt) : (s.setPortSt p x).wakeI = s.wakeI := rfl
@[simp] theorem setPortSt_wakeAb (s : State) (p : PortId) (x : PortSt) : (s.setPortSt p x).wakeAb = s.wakeAb := rfl
@[simp] theorem setPortSt_smplBuf (s : State) (p : PortId) (x : PortSt) : (s.setPortSt p x).smplBuf = s.smplBuf := rfl
@[simp] theorem setPortSt_refused (s : State) (p : PortId) (x : PortSt) : (s.setPortSt p x).refused = s.refused := rfl
@[simp] theorem setPortSt_fatal (s : State) (p : PortId) (x : PortSt) : (s.setPortSt p x).fatal = s.fatal := rfl
@[simp] theorem setPortSt_psc (s : State) (p : PortId) (x : PortSt) : (s.setPortSt p x).psc = s.psc := rfl
@[simp] theorem setPortSt_devs (s : State) (p : PortId) (x : PortSt) : (s.setPortSt p x).devs = s.devs := rfl
@[simp] theorem setPortSt_devNext (s : State) (p : PortId) (x : PortSt) : (s.setPortSt p x).devNext = s.devNext := rfl
@[simp] theorem setPortSt_iots (s : State) (p : PortId) (x : PortSt) : (s.setPortSt p x).iots = s.iots := rfl
@[simp] theorem setPortSt_saves (s : State) (p : PortId) (x : PortSt) : (s.setPortSt p x).saves = s.saves := rfl
@[simp] theorem setPortSt_cluSaves (s : State) (p : PortId) (x : PortSt) : (s.setPortSt p x).cluSaves = s.cluSaves := rfl
@[simp] theorem setPortSt_ibi (s : State) (p : PortId) (x : PortSt) : (s.setPortSt p x).ibi = s.ibi := rfl
@[simp] theorem setPortSt_meter (s : State) (p : PortId) (x : PortSt) : (s.setPortSt p x).meter = s.meter := rfl
@[simp] theorem setPortSt_pwr (s : State) (p : PortId) (x : PortSt) : (s.setPortSt p x).pwr = s.pwr := rfl
@[simp] theorem setPortSt_taps (s : State) (p : PortId) (x : PortSt) : (s.setPortSt p x).taps = s.taps := rfl
@[simp] theorem setPortSt_ctrs (s : State) (p : PortId) (x : PortSt) : (s.setPortSt p x).ctrs = s.ctrs := rfl
@[simp] theorem setPortSt_dumps (s : State) (p : PortId) (x : PortSt) : (s.setPortSt p x).dumps = s.dumps := rfl
@[simp] theorem setPortSt_snaps (s : State) (p : PortId) (x : PortSt) : (s.setPortSt p x).snaps = s.snaps := rfl
@[simp] theorem setPortSt_reply (s : State) (p : PortId) (x : PortSt) : (s.setPortSt p x).reply = s.reply := rfl

/-! ## setIot -/

@[simp] theorem setIot_pending (s : State) (p : Pid) (x : Iot) : (s.setIot p x).pending = s.pending := rfl
@[simp] theorem setIot_free (s : State) (p : Pid) (x : Iot) : (s.setIot p x).free = s.free := rfl
@[simp] theorem setIot_cycle (s : State) (p : Pid) (x : Iot) : (s.setIot p x).cycle = s.cycle := rfl
@[simp] theorem setIot_regs (s : State) (p : Pid) (x : Iot) : (s.setIot p x).regs = s.regs := rfl
@[simp] theorem setIot_mem (s : State) (p : Pid) (x : Iot) : (s.setIot p x).mem = s.mem := rfl
@[simp] theorem setIot_lines (s : State) (p : Pid) (x : Iot) : (s.setIot p x).lines = s.lines := rfl
@[simp] theorem setIot_l2Lru (s : State) (p : Pid) (x : Iot) : (s.setIot p x).l2Lru = s.l2Lru := rfl
@[simp] theorem setIot_hresv (s : State) (p : Pid) (x : Iot) : (s.setIot p x).hresv = s.hresv := rfl
@[simp] theorem setIot_tlbOwed (s : State) (p : Pid) (x : Iot) : (s.setIot p x).tlbOwed = s.tlbOwed := rfl
@[simp] theorem setIot_cores (s : State) (p : Pid) (x : Iot) : (s.setIot p x).cores = s.cores := rfl
@[simp] theorem setIot_facets (s : State) (p : Pid) (x : Iot) : (s.setIot p x).facets = s.facets := rfl
@[simp] theorem setIot_marker (s : State) (p : Pid) (x : Iot) : (s.setIot p x).marker = s.marker := rfl
@[simp] theorem setIot_refBad (s : State) (p : Pid) (x : Iot) : (s.setIot p x).refBad = s.refBad := rfl
@[simp] theorem setIot_net (s : State) (p : Pid) (x : Iot) : (s.setIot p x).net = s.net := rfl
@[simp] theorem setIot_latch (s : State) (p : Pid) (x : Iot) : (s.setIot p x).latch = s.latch := rfl
@[simp] theorem setIot_chord (s : State) (p : Pid) (x : Iot) : (s.setIot p x).chord = s.chord := rfl
@[simp] theorem setIot_hbm (s : State) (p : Pid) (x : Iot) : (s.setIot p x).hbm = s.hbm := rfl
@[simp] theorem setIot_msgs (s : State) (p : Pid) (x : Iot) : (s.setIot p x).msgs = s.msgs := rfl
@[simp] theorem setIot_bbx (s : State) (p : Pid) (x : Iot) : (s.setIot p x).bbx = s.bbx := rfl
@[simp] theorem setIot_coal (s : State) (p : Pid) (x : Iot) : (s.setIot p x).coal = s.coal := rfl
@[simp] theorem setIot_ras (s : State) (p : Pid) (x : Iot) : (s.setIot p x).ras = s.ras := rfl
@[simp] theorem setIot_rasSeq (s : State) (p : Pid) (x : Iot) : (s.setIot p x).rasSeq = s.rasSeq := rfl
@[simp] theorem setIot_ipi (s : State) (p : Pid) (x : Iot) : (s.setIot p x).ipi = s.ipi := rfl
@[simp] theorem setIot_wakeO (s : State) (p : Pid) (x : Iot) : (s.setIot p x).wakeO = s.wakeO := rfl
@[simp] theorem setIot_wakeI (s : State) (p : Pid) (x : Iot) : (s.setIot p x).wakeI = s.wakeI := rfl
@[simp] theorem setIot_wakeAb (s : State) (p : Pid) (x : Iot) : (s.setIot p x).wakeAb = s.wakeAb := rfl
@[simp] theorem setIot_smplBuf (s : State) (p : Pid) (x : Iot) : (s.setIot p x).smplBuf = s.smplBuf := rfl
@[simp] theorem setIot_refused (s : State) (p : Pid) (x : Iot) : (s.setIot p x).refused = s.refused := rfl
@[simp] theorem setIot_fatal (s : State) (p : Pid) (x : Iot) : (s.setIot p x).fatal = s.fatal := rfl
@[simp] theorem setIot_psc (s : State) (p : Pid) (x : Iot) : (s.setIot p x).psc = s.psc := rfl
@[simp] theorem setIot_devs (s : State) (p : Pid) (x : Iot) : (s.setIot p x).devs = s.devs := rfl
@[simp] theorem setIot_devNext (s : State) (p : Pid) (x : Iot) : (s.setIot p x).devNext = s.devNext := rfl
@[simp] theorem setIot_ports (s : State) (p : Pid) (x : Iot) : (s.setIot p x).ports = s.ports := rfl
@[simp] theorem setIot_saves (s : State) (p : Pid) (x : Iot) : (s.setIot p x).saves = s.saves := rfl
@[simp] theorem setIot_cluSaves (s : State) (p : Pid) (x : Iot) : (s.setIot p x).cluSaves = s.cluSaves := rfl
@[simp] theorem setIot_ibi (s : State) (p : Pid) (x : Iot) : (s.setIot p x).ibi = s.ibi := rfl
@[simp] theorem setIot_meter (s : State) (p : Pid) (x : Iot) : (s.setIot p x).meter = s.meter := rfl
@[simp] theorem setIot_pwr (s : State) (p : Pid) (x : Iot) : (s.setIot p x).pwr = s.pwr := rfl
@[simp] theorem setIot_taps (s : State) (p : Pid) (x : Iot) : (s.setIot p x).taps = s.taps := rfl
@[simp] theorem setIot_ctrs (s : State) (p : Pid) (x : Iot) : (s.setIot p x).ctrs = s.ctrs := rfl
@[simp] theorem setIot_dumps (s : State) (p : Pid) (x : Iot) : (s.setIot p x).dumps = s.dumps := rfl
@[simp] theorem setIot_snaps (s : State) (p : Pid) (x : Iot) : (s.setIot p x).snaps = s.snaps := rfl
@[simp] theorem setIot_reply (s : State) (p : Pid) (x : Iot) : (s.setIot p x).reply = s.reply := rfl

/-! ## setTap -/

@[simp] theorem setTap_pending (s : State) (d : Fin 13) (x : Tap) : (s.setTap d x).pending = s.pending := rfl
@[simp] theorem setTap_free (s : State) (d : Fin 13) (x : Tap) : (s.setTap d x).free = s.free := rfl
@[simp] theorem setTap_cycle (s : State) (d : Fin 13) (x : Tap) : (s.setTap d x).cycle = s.cycle := rfl
@[simp] theorem setTap_regs (s : State) (d : Fin 13) (x : Tap) : (s.setTap d x).regs = s.regs := rfl
@[simp] theorem setTap_mem (s : State) (d : Fin 13) (x : Tap) : (s.setTap d x).mem = s.mem := rfl
@[simp] theorem setTap_lines (s : State) (d : Fin 13) (x : Tap) : (s.setTap d x).lines = s.lines := rfl
@[simp] theorem setTap_l2Lru (s : State) (d : Fin 13) (x : Tap) : (s.setTap d x).l2Lru = s.l2Lru := rfl
@[simp] theorem setTap_hresv (s : State) (d : Fin 13) (x : Tap) : (s.setTap d x).hresv = s.hresv := rfl
@[simp] theorem setTap_tlbOwed (s : State) (d : Fin 13) (x : Tap) : (s.setTap d x).tlbOwed = s.tlbOwed := rfl
@[simp] theorem setTap_cores (s : State) (d : Fin 13) (x : Tap) : (s.setTap d x).cores = s.cores := rfl
@[simp] theorem setTap_facets (s : State) (d : Fin 13) (x : Tap) : (s.setTap d x).facets = s.facets := rfl
@[simp] theorem setTap_marker (s : State) (d : Fin 13) (x : Tap) : (s.setTap d x).marker = s.marker := rfl
@[simp] theorem setTap_refBad (s : State) (d : Fin 13) (x : Tap) : (s.setTap d x).refBad = s.refBad := rfl
@[simp] theorem setTap_net (s : State) (d : Fin 13) (x : Tap) : (s.setTap d x).net = s.net := rfl
@[simp] theorem setTap_latch (s : State) (d : Fin 13) (x : Tap) : (s.setTap d x).latch = s.latch := rfl
@[simp] theorem setTap_chord (s : State) (d : Fin 13) (x : Tap) : (s.setTap d x).chord = s.chord := rfl
@[simp] theorem setTap_hbm (s : State) (d : Fin 13) (x : Tap) : (s.setTap d x).hbm = s.hbm := rfl
@[simp] theorem setTap_msgs (s : State) (d : Fin 13) (x : Tap) : (s.setTap d x).msgs = s.msgs := rfl
@[simp] theorem setTap_bbx (s : State) (d : Fin 13) (x : Tap) : (s.setTap d x).bbx = s.bbx := rfl
@[simp] theorem setTap_coal (s : State) (d : Fin 13) (x : Tap) : (s.setTap d x).coal = s.coal := rfl
@[simp] theorem setTap_ras (s : State) (d : Fin 13) (x : Tap) : (s.setTap d x).ras = s.ras := rfl
@[simp] theorem setTap_rasSeq (s : State) (d : Fin 13) (x : Tap) : (s.setTap d x).rasSeq = s.rasSeq := rfl
@[simp] theorem setTap_ipi (s : State) (d : Fin 13) (x : Tap) : (s.setTap d x).ipi = s.ipi := rfl
@[simp] theorem setTap_wakeO (s : State) (d : Fin 13) (x : Tap) : (s.setTap d x).wakeO = s.wakeO := rfl
@[simp] theorem setTap_wakeI (s : State) (d : Fin 13) (x : Tap) : (s.setTap d x).wakeI = s.wakeI := rfl
@[simp] theorem setTap_wakeAb (s : State) (d : Fin 13) (x : Tap) : (s.setTap d x).wakeAb = s.wakeAb := rfl
@[simp] theorem setTap_smplBuf (s : State) (d : Fin 13) (x : Tap) : (s.setTap d x).smplBuf = s.smplBuf := rfl
@[simp] theorem setTap_refused (s : State) (d : Fin 13) (x : Tap) : (s.setTap d x).refused = s.refused := rfl
@[simp] theorem setTap_fatal (s : State) (d : Fin 13) (x : Tap) : (s.setTap d x).fatal = s.fatal := rfl
@[simp] theorem setTap_psc (s : State) (d : Fin 13) (x : Tap) : (s.setTap d x).psc = s.psc := rfl
@[simp] theorem setTap_devs (s : State) (d : Fin 13) (x : Tap) : (s.setTap d x).devs = s.devs := rfl
@[simp] theorem setTap_devNext (s : State) (d : Fin 13) (x : Tap) : (s.setTap d x).devNext = s.devNext := rfl
@[simp] theorem setTap_ports (s : State) (d : Fin 13) (x : Tap) : (s.setTap d x).ports = s.ports := rfl
@[simp] theorem setTap_iots (s : State) (d : Fin 13) (x : Tap) : (s.setTap d x).iots = s.iots := rfl
@[simp] theorem setTap_saves (s : State) (d : Fin 13) (x : Tap) : (s.setTap d x).saves = s.saves := rfl
@[simp] theorem setTap_cluSaves (s : State) (d : Fin 13) (x : Tap) : (s.setTap d x).cluSaves = s.cluSaves := rfl
@[simp] theorem setTap_ibi (s : State) (d : Fin 13) (x : Tap) : (s.setTap d x).ibi = s.ibi := rfl
@[simp] theorem setTap_meter (s : State) (d : Fin 13) (x : Tap) : (s.setTap d x).meter = s.meter := rfl
@[simp] theorem setTap_pwr (s : State) (d : Fin 13) (x : Tap) : (s.setTap d x).pwr = s.pwr := rfl
@[simp] theorem setTap_ctrs (s : State) (d : Fin 13) (x : Tap) : (s.setTap d x).ctrs = s.ctrs := rfl
@[simp] theorem setTap_dumps (s : State) (d : Fin 13) (x : Tap) : (s.setTap d x).dumps = s.dumps := rfl
@[simp] theorem setTap_snaps (s : State) (d : Fin 13) (x : Tap) : (s.setTap d x).snaps = s.snaps := rfl
@[simp] theorem setTap_reply (s : State) (d : Fin 13) (x : Tap) : (s.setTap d x).reply = s.reply := rfl

/-! ## draw -/

@[simp] theorem draw_pending (s : State) : (s.draw.2).pending = s.pending := rfl
@[simp] theorem draw_cycle (s : State) : (s.draw.2).cycle = s.cycle := rfl
@[simp] theorem draw_regs (s : State) : (s.draw.2).regs = s.regs := rfl
@[simp] theorem draw_mem (s : State) : (s.draw.2).mem = s.mem := rfl
@[simp] theorem draw_lines (s : State) : (s.draw.2).lines = s.lines := rfl
@[simp] theorem draw_l2Lru (s : State) : (s.draw.2).l2Lru = s.l2Lru := rfl
@[simp] theorem draw_hresv (s : State) : (s.draw.2).hresv = s.hresv := rfl
@[simp] theorem draw_tlbOwed (s : State) : (s.draw.2).tlbOwed = s.tlbOwed := rfl
@[simp] theorem draw_cores (s : State) : (s.draw.2).cores = s.cores := rfl
@[simp] theorem draw_facets (s : State) : (s.draw.2).facets = s.facets := rfl
@[simp] theorem draw_marker (s : State) : (s.draw.2).marker = s.marker := rfl
@[simp] theorem draw_refBad (s : State) : (s.draw.2).refBad = s.refBad := rfl
@[simp] theorem draw_net (s : State) : (s.draw.2).net = s.net := rfl
@[simp] theorem draw_latch (s : State) : (s.draw.2).latch = s.latch := rfl
@[simp] theorem draw_chord (s : State) : (s.draw.2).chord = s.chord := rfl
@[simp] theorem draw_hbm (s : State) : (s.draw.2).hbm = s.hbm := rfl
@[simp] theorem draw_msgs (s : State) : (s.draw.2).msgs = s.msgs := rfl
@[simp] theorem draw_bbx (s : State) : (s.draw.2).bbx = s.bbx := rfl
@[simp] theorem draw_coal (s : State) : (s.draw.2).coal = s.coal := rfl
@[simp] theorem draw_ras (s : State) : (s.draw.2).ras = s.ras := rfl
@[simp] theorem draw_rasSeq (s : State) : (s.draw.2).rasSeq = s.rasSeq := rfl
@[simp] theorem draw_ipi (s : State) : (s.draw.2).ipi = s.ipi := rfl
@[simp] theorem draw_wakeO (s : State) : (s.draw.2).wakeO = s.wakeO := rfl
@[simp] theorem draw_wakeI (s : State) : (s.draw.2).wakeI = s.wakeI := rfl
@[simp] theorem draw_wakeAb (s : State) : (s.draw.2).wakeAb = s.wakeAb := rfl
@[simp] theorem draw_smplBuf (s : State) : (s.draw.2).smplBuf = s.smplBuf := rfl
@[simp] theorem draw_refused (s : State) : (s.draw.2).refused = s.refused := rfl
@[simp] theorem draw_fatal (s : State) : (s.draw.2).fatal = s.fatal := rfl
@[simp] theorem draw_psc (s : State) : (s.draw.2).psc = s.psc := rfl
@[simp] theorem draw_devs (s : State) : (s.draw.2).devs = s.devs := rfl
@[simp] theorem draw_devNext (s : State) : (s.draw.2).devNext = s.devNext := rfl
@[simp] theorem draw_ports (s : State) : (s.draw.2).ports = s.ports := rfl
@[simp] theorem draw_iots (s : State) : (s.draw.2).iots = s.iots := rfl
@[simp] theorem draw_saves (s : State) : (s.draw.2).saves = s.saves := rfl
@[simp] theorem draw_cluSaves (s : State) : (s.draw.2).cluSaves = s.cluSaves := rfl
@[simp] theorem draw_ibi (s : State) : (s.draw.2).ibi = s.ibi := rfl
@[simp] theorem draw_meter (s : State) : (s.draw.2).meter = s.meter := rfl
@[simp] theorem draw_pwr (s : State) : (s.draw.2).pwr = s.pwr := rfl
@[simp] theorem draw_taps (s : State) : (s.draw.2).taps = s.taps := rfl
@[simp] theorem draw_ctrs (s : State) : (s.draw.2).ctrs = s.ctrs := rfl
@[simp] theorem draw_dumps (s : State) : (s.draw.2).dumps = s.dumps := rfl
@[simp] theorem draw_snaps (s : State) : (s.draw.2).snaps = s.snaps := rfl
@[simp] theorem draw_reply (s : State) : (s.draw.2).reply = s.reply := rfl

/-! ## drawBool -/

@[simp] theorem drawBool_pending (s : State) : (s.drawBool.2).pending = s.pending := rfl
@[simp] theorem drawBool_cycle (s : State) : (s.drawBool.2).cycle = s.cycle := rfl
@[simp] theorem drawBool_regs (s : State) : (s.drawBool.2).regs = s.regs := rfl
@[simp] theorem drawBool_mem (s : State) : (s.drawBool.2).mem = s.mem := rfl
@[simp] theorem drawBool_lines (s : State) : (s.drawBool.2).lines = s.lines := rfl
@[simp] theorem drawBool_l2Lru (s : State) : (s.drawBool.2).l2Lru = s.l2Lru := rfl
@[simp] theorem drawBool_hresv (s : State) : (s.drawBool.2).hresv = s.hresv := rfl
@[simp] theorem drawBool_tlbOwed (s : State) : (s.drawBool.2).tlbOwed = s.tlbOwed := rfl
@[simp] theorem drawBool_cores (s : State) : (s.drawBool.2).cores = s.cores := rfl
@[simp] theorem drawBool_facets (s : State) : (s.drawBool.2).facets = s.facets := rfl
@[simp] theorem drawBool_marker (s : State) : (s.drawBool.2).marker = s.marker := rfl
@[simp] theorem drawBool_refBad (s : State) : (s.drawBool.2).refBad = s.refBad := rfl
@[simp] theorem drawBool_net (s : State) : (s.drawBool.2).net = s.net := rfl
@[simp] theorem drawBool_latch (s : State) : (s.drawBool.2).latch = s.latch := rfl
@[simp] theorem drawBool_chord (s : State) : (s.drawBool.2).chord = s.chord := rfl
@[simp] theorem drawBool_hbm (s : State) : (s.drawBool.2).hbm = s.hbm := rfl
@[simp] theorem drawBool_msgs (s : State) : (s.drawBool.2).msgs = s.msgs := rfl
@[simp] theorem drawBool_bbx (s : State) : (s.drawBool.2).bbx = s.bbx := rfl
@[simp] theorem drawBool_coal (s : State) : (s.drawBool.2).coal = s.coal := rfl
@[simp] theorem drawBool_ras (s : State) : (s.drawBool.2).ras = s.ras := rfl
@[simp] theorem drawBool_rasSeq (s : State) : (s.drawBool.2).rasSeq = s.rasSeq := rfl
@[simp] theorem drawBool_ipi (s : State) : (s.drawBool.2).ipi = s.ipi := rfl
@[simp] theorem drawBool_wakeO (s : State) : (s.drawBool.2).wakeO = s.wakeO := rfl
@[simp] theorem drawBool_wakeI (s : State) : (s.drawBool.2).wakeI = s.wakeI := rfl
@[simp] theorem drawBool_wakeAb (s : State) : (s.drawBool.2).wakeAb = s.wakeAb := rfl
@[simp] theorem drawBool_smplBuf (s : State) : (s.drawBool.2).smplBuf = s.smplBuf := rfl
@[simp] theorem drawBool_refused (s : State) : (s.drawBool.2).refused = s.refused := rfl
@[simp] theorem drawBool_fatal (s : State) : (s.drawBool.2).fatal = s.fatal := rfl
@[simp] theorem drawBool_psc (s : State) : (s.drawBool.2).psc = s.psc := rfl
@[simp] theorem drawBool_devs (s : State) : (s.drawBool.2).devs = s.devs := rfl
@[simp] theorem drawBool_devNext (s : State) : (s.drawBool.2).devNext = s.devNext := rfl
@[simp] theorem drawBool_ports (s : State) : (s.drawBool.2).ports = s.ports := rfl
@[simp] theorem drawBool_iots (s : State) : (s.drawBool.2).iots = s.iots := rfl
@[simp] theorem drawBool_saves (s : State) : (s.drawBool.2).saves = s.saves := rfl
@[simp] theorem drawBool_cluSaves (s : State) : (s.drawBool.2).cluSaves = s.cluSaves := rfl
@[simp] theorem drawBool_ibi (s : State) : (s.drawBool.2).ibi = s.ibi := rfl
@[simp] theorem drawBool_meter (s : State) : (s.drawBool.2).meter = s.meter := rfl
@[simp] theorem drawBool_pwr (s : State) : (s.drawBool.2).pwr = s.pwr := rfl
@[simp] theorem drawBool_taps (s : State) : (s.drawBool.2).taps = s.taps := rfl
@[simp] theorem drawBool_ctrs (s : State) : (s.drawBool.2).ctrs = s.ctrs := rfl
@[simp] theorem drawBool_dumps (s : State) : (s.drawBool.2).dumps = s.dumps := rfl
@[simp] theorem drawBool_snaps (s : State) : (s.drawBool.2).snaps = s.snaps := rfl
@[simp] theorem drawBool_reply (s : State) : (s.drawBool.2).reply = s.reply := rfl

/-! ## What is read after a write -/

@[simp] theorem rg_rgSet_same (s : State) (r : Reg) (v : Word) : (s.rgSet r v).rg r = v := Tbl.get_set_same ..
theorem rg_rgSet_other (s : State) (r q : Reg) (v : Word) (h : q.addr ≠ r.addr) : (s.rgSet r v).rg q = s.rg q :=
  Tbl.get_set_other _ _ _ _ _ _ h
theorem rg_rfSet_same (s : State) (r : Reg) (hi lo x : Nat) : (s.rfSet r hi lo x).rg r = setFld (s.rg r) hi lo x := rg_rgSet_same ..
theorem rg_rfSet_other (s : State) (r q : Reg) (hi lo x : Nat) (h : q.addr ≠ r.addr) : (s.rfSet r hi lo x).rg q = s.rg q := rg_rgSet_other _ _ _ _ h
@[simp] theorem rg_rgReset_same (s : State) (r : Reg) : (s.rgReset r).rg r = r.reset := rg_rgSet_same ..
@[simp] theorem core_setCore_same (s : State) (k : CoreId) (c : Core) : (s.setCore k c).core k = c := Tbl.get_set_same ..
theorem core_setCore_other (s : State) (k j : CoreId) (c : Core) (h : j ≠ k) : (s.setCore k c).core j = s.core j :=
  Tbl.get_set_other _ _ _ _ _ _ (fun e => h (Fin.ext e))
@[simp] theorem line_setLine_same (s : State) (ln : Nat) (l : LineSt) : (s.setLine ln l).line ln = l := Tbl.get_set_same ..
theorem line_setLine_other (s : State) (ln j : Nat) (l : LineSt) (h : j ≠ ln) : (s.setLine ln l).line j = s.line j := Tbl.get_set_other _ _ _ _ _ _ h
@[simp] theorem copy_setCopy_same (s : State) (ln : Nat) (g : ClusterId) (c : Option L2Copy) : (s.setCopy ln g c).copy ln g = c := by
  simp [State.copy, State.setCopy]
@[simp] theorem portSt_setPortSt_same (s : State) (p : PortId) (x : PortSt) : (s.setPortSt p x).portSt p = x := Tbl.get_set_same ..
theorem portSt_setPortSt_other (s : State) (p q : PortId) (x : PortSt) (h : q ≠ p) : (s.setPortSt p x).portSt q = s.portSt q :=
  Tbl.get_set_other _ _ _ _ _ _ (fun e => h (Fin.ext e))
@[simp] theorem facet_setFacet_same (s : State) (f : FacetId) (x : Facet) : (s.setFacet f x).facet f = x := Tbl.get_set_same ..
theorem facet_setFacet_other (s : State) (f g : FacetId) (x : Facet) (h : g ≠ f) : (s.setFacet f x).facet g = s.facet g :=
  Tbl.get_set_other _ _ _ _ _ _ (fun e => h (Fin.ext e))
@[simp] theorem iot_setIot_same (s : State) (p : Pid) (x : Iot) : (s.setIot p x).iot p = x := Tbl.get_set_same ..
@[simp] theorem tap_setTap_same (s : State) (d : Fin 13) (x : Tap) : (s.setTap d x).tap d = x := Tbl.get_set_same ..
theorem tap_setTap_other (s : State) (d e : Fin 13) (x : Tap) (h : e ≠ d) : (s.setTap d x).tap e = s.tap e :=
  Tbl.get_set_other _ _ _ _ _ _ (fun q => h (Fin.ext q))

/-! ## The registers of a core (R72, R74) -/

@[simp] theorem rd_zero (c : Core) : c.rd 0 = 0 := rfl
@[simp] theorem wd_zero (c : Core) (v : Word) : c.wd 0 v = c := rfl
theorem rd_wd_same (c : Core) (r : DReg) (v : Word) (h : r ≠ 0) : (c.wd r v).rd r = v := by
  have : r.val ≠ 0 := fun e => h (Fin.ext e)
  simp [Core.rd, Core.wd, this]
theorem rd_wd_other (c : Core) (r q : DReg) (v : Word) (h : q ≠ r) : (c.wd r v).rd q = c.rd q := by
  have hv : q.val ≠ r.val := fun e => h (Fin.ext e)
  unfold Core.wd
  split
  · rfl
  · unfold Core.rd; simp only [Tbl.get_set_other _ _ _ _ _ _ hv]
@[simp] theorem ra_wa_same (c : Core) (r : AReg) (v : Word) : (c.wa r v).ra' r = v := by
  unfold Core.wa Core.ra'
  split <;> simp
theorem ra_wa_other (c : Core) (r q : AReg) (v : Word) (h : q ≠ r) : (c.wa r v).ra' q = c.ra' q := by
  have hv : q.val ≠ r.val := fun e => h (Fin.ext e)
  unfold Core.wa Core.ra'
  split <;> split <;> simp_all [Tbl.get_set_other]
@[simp] theorem rq_wq_same (c : Core) (r : QReg) (v : Line) : (c.wq r v).rq r = v := Tbl.get_set_same ..
@[simp] theorem adv_pc (c : Core) (n : Nat) : (c.adv n).pc = c.pc + BitVec.ofNat 64 n := rfl
@[simp] theorem adv_rd (c : Core) (n : Nat) (r : DReg) : (c.adv n).rd r = c.rd r := rfl
@[simp] theorem adv_ra (c : Core) (n : Nat) (r : AReg) : (c.adv n).ra' r = c.ra' r := rfl
@[simp] theorem adv_rq (c : Core) (n : Nat) (r : QReg) : (c.adv n).rq r = c.rq r := rfl
@[simp] theorem wd_pc (c : Core) (r : DReg) (v : Word) : (c.wd r v).pc = c.pc := by unfold Core.wd; split <;> rfl
@[simp] theorem wd_ra (c : Core) (r : DReg) (v : Word) (q : AReg) : (c.wd r v).ra' q = c.ra' q := by unfold Core.wd; split <;> rfl
@[simp] theorem wd_rsys (c : Core) (r : DReg) (v : Word) (n : Nat) : (c.wd r v).rsys n = c.rsys n := by unfold Core.wd; split <;> rfl
@[simp] theorem wa_pc (c : Core) (r : AReg) (v : Word) : (c.wa r v).pc = c.pc := by unfold Core.wa; split <;> rfl
@[simp] theorem wa_rd (c : Core) (r : AReg) (v : Word) (q : DReg) : (c.wa r v).rd q = c.rd q := by unfold Core.wa; split <;> rfl
@[simp] theorem rsys_wsys_same (c : Core) (n : Nat) (v : Word) : (c.wsys n v).rsys n = v := Tbl.get_set_same ..
theorem rsys_wsys_other (c : Core) (n m : Nat) (v : Word) (h : m ≠ n) : (c.wsys n v).rsys m = c.rsys m := Tbl.get_set_other _ _ _ _ _ _ h
@[simp] theorem wsys_pc (c : Core) (n : Nat) (v : Word) : (c.wsys n v).pc = c.pc := rfl
@[simp] theorem wsys_rd (c : Core) (n : Nat) (v : Word) (r : DReg) : (c.wsys n v).rd r = c.rd r := rfl

end Sys2Proof.Machine
end

