-- ==== Sys2Proof/Laws/Ops.lean ====
section
/-! SUPPORT. Laws of the shared operations: what each one leaves alone, and what an instruction of a core, a descriptor of the owner ring and
the answer to deferred snoops come to. -/

namespace Sys2Proof.Machine

/-! ## Operations that leave memory, lines, cores and the queue alone -/

theorem Quiet.refl (s : State) : Quiet s s := ⟨rfl, rfl, rfl, rfl⟩
theorem Quiet.trans {a b c : State} (h : Quiet a b) (g : Quiet b c) : Quiet a c :=
  ⟨g.1.trans h.1, g.2.1.trans h.2.1, g.2.2.1.trans h.2.2.1, g.2.2.2.trans h.2.2.2⟩
theorem Quiet.ite {s a b : State} {c : Prop} [Decidable c] (ha : Quiet s a) (hb : Quiet s b) : Quiet s (if c then a else b) := by
  split
  · exact ha
  · exact hb
theorem Quiet.core {s t : State} (h : Quiet s t) (k : CoreId) : t.core k = s.core k := by unfold State.core; rw [h.2.2.1]
theorem Quiet.line {s t : State} (h : Quiet s t) (ln : Nat) : t.line ln = s.line ln := by unfold State.line; rw [h.2.1]
theorem Quiet.rdByte {s t : State} (h : Quiet s t) (da : Nat) : t.rdByte da = s.rdByte da := rdByte_of_mem_eq h.1 da
theorem Quiet.memOk {s t : State} (h : Quiet s t) (hs : s.memOk) : t.memOk := memOk_of_mem_eq h.1 hs

theorem quiet_rgSet (s : State) (r : Reg) (v : Word) : Quiet s (s.rgSet r v) := ⟨rfl, rfl, rfl, rfl⟩
theorem quiet_rfSet (s : State) (r : Reg) (hi lo x : Nat) : Quiet s (s.rfSet r hi lo x) := ⟨rfl, rfl, rfl, rfl⟩
theorem quiet_rfInc (s : State) (r : Reg) (hi lo n : Nat) : Quiet s (s.rfInc r hi lo n) := ⟨rfl, rfl, rfl, rfl⟩
theorem quiet_rgReset (s : State) (r : Reg) : Quiet s (s.rgReset r) := ⟨rfl, rfl, rfl, rfl⟩
theorem quiet_send (s : State) (kind : MsgKind) (m : Msg) : Quiet s (s.send kind m) := ⟨rfl, rfl, rfl, rfl⟩
theorem quiet_deliver (s : State) (p : Pid) (i : Nat) (g : Bool) (k : CoreId) : Quiet s (s.deliver p i g k) := ⟨rfl, rfl, rfl, rfl⟩
theorem quiet_bbCoal (s : State) (code : Nat) (p : Pid) (inst page : Nat) : Quiet s (s.bbCoal code p inst page) := ⟨rfl, rfl, rfl, rfl⟩
theorem quiet_setPortSt (s : State) (p : PortId) (x : PortSt) : Quiet s (s.setPortSt p x) := ⟨rfl, rfl, rfl, rfl⟩
theorem quiet_draw (s : State) : Quiet s s.draw.2 := ⟨rfl, rfl, rfl, rfl⟩

/-- A black-box record. -/
theorem quiet_bbPut (s : State) (c : BbCell) : Quiet s (s.bbPut c) := by
  unfold State.bbPut
  dsimp only
  repeat' split
  all_goals exact ⟨rfl, rfl, rfl, rfl⟩
theorem quiet_bbArrive (s : State) (c : BbCell) : Quiet s (s.bbArrive c) := by
  unfold State.bbArrive
  split
  · exact quiet_rfInc ..
  · split
    · exact ⟨rfl, rfl, rfl, rfl⟩
    · dsimp only
      split
      · exact Quiet.trans (b := { s with bbx := { s.bbx with left := s.bbx.left - 1 } }) ⟨rfl, rfl, rfl, rfl⟩ (quiet_bbPut ..)
      · exact quiet_bbPut ..
theorem quiet_bb (s : State) (code : Nat) (pid : Option Pid) (inst arg : Nat) : Quiet s (s.bb code pid inst arg) := quiet_bbArrive ..
theorem quiet_bbSev (s : State) (code sev : Nat) (pid : Option Pid) (inst arg : Nat) : Quiet s (s.bbSev code sev pid inst arg) := quiet_bbArrive ..

/-- A message to an INTID. -/
theorem quiet_raiseInt (s : State) (p : Pid) (i : Nat) : Quiet s (s.raiseInt p i) := by
  unfold State.raiseInt
  exact Quiet.ite (quiet_rfSet ..) (Quiet.ite (quiet_deliver ..) (quiet_bb ..))

/-- A RAS record. -/
theorem quiet_rasPush (s : State) (p : Pid) (code : Nat) (ucd : Bool) (addr unit : Nat) : Quiet s (s.rasPush p code ucd addr unit) := by
  have h1 (t : State) (q : Tbl (List RasRec)) (n : Tbl Nat) (r : Reg) (x : Nat) :
      Quiet t ({ t with ras := q, rasSeq := n }.rfSet r 22 16 x) := ⟨rfl, rfl, rfl, rfl⟩
  unfold State.rasPush
  extract_lets q page
  split
  · exact ⟨rfl, rfl, rfl, rfl⟩
  · split
    · exact quiet_rfSet ..
    · split
      · exact Quiet.trans (h1 ..) (quiet_raiseInt ..)
      · exact h1 ..

/-- A number of registers, one after the other. -/
theorem quiet_foldl {α : Type} (f : State → α → State) (h : ∀ s a, Quiet s (f s a)) : (l : List α) → (s : State) → Quiet s (l.foldl f s)
  | [], s => Quiet.refl s
  | a :: l, s => Quiet.trans (h s a) (quiet_foldl f h l (f s a))

theorem Quiet.set_meter {s t : State} (h : Quiet s t) (m : Meter) : Quiet s { t with meter := m } := ⟨h.1, h.2.1, h.2.2.1, h.2.2.2⟩
theorem Quiet.set_cycle {s t : State} (h : Quiet s t) (c : Nat) : Quiet s { t with cycle := c } := ⟨h.1, h.2.1, h.2.2.1, h.2.2.2⟩
theorem Quiet.rgSet {s t : State} (h : Quiet s t) (r : Reg) (v : Word) : Quiet s (t.rgSet r v) := h.trans (quiet_rgSet ..)
theorem Quiet.rfSet {s t : State} (h : Quiet s t) (r : Reg) (hi lo x : Nat) : Quiet s (t.rfSet r hi lo x) := h.trans (quiet_rfSet ..)
theorem Quiet.foldl {α : Type} {s t : State} (h : Quiet s t) (f : State → α → State) (g : ∀ s a, Quiet s (f s a)) (l : List α) : Quiet s (l.foldl f t) :=
  h.trans (quiet_foldl f g l t)

/-- The Meter's mirrors, and time within the tick. -/
theorem quiet_publish (s : State) : Quiet s s.publish := by
  unfold State.publish
  split
  · exact Quiet.refl s
  · refine Quiet.set_meter (Quiet.rgSet (Quiet.rgSet (Quiet.foldl ?_ _ (fun _ _ => quiet_rgSet ..) _) _ _) _ _) _
    exact Quiet.rgSet (Quiet.rfSet (Quiet.rgSet (Quiet.rgSet (quiet_rgSet ..) _ _) _ _) _ _ _ _) _ _
theorem quiet_passTo (s : State) (c : Nat) : Quiet s (s.passTo c) := by
  unfold State.passTo
  split
  · exact Quiet.refl s
  · exact Quiet.set_cycle (Quiet.ite (quiet_publish s) (Quiet.ite (quiet_rgSet ..) (Quiet.refl s))) c
theorem quiet_idle (s : State) : Quiet s s.idle := by unfold State.idle; exact Quiet.ite (quiet_passTo ..) (Quiet.refl s)

/-! ## Descriptors of the owner ring (R400, R417) -/

/-- A descriptor of the owner ring ends: what becomes of the ring, and nothing else. -/
theorem ends_owner (s : State) (f : Finish) (h : f.job.ring = .owner) :
    s.ends f = { s with
      psc := { s.psc with
        jobs := s.psc.jobs.filter fun x => x.id != f.job.id
        ownerOut := s.psc.ownerOut ++ [{ tick := s.tick, tag := f.job.tag, status := f.status, opcode := f.job.opcode, idx := 0, r0 := f.r0,
                                         r1 := f.r1, len := f.len, noirq := f.job.noirq, data := f.out }]
        ownerCnt := (s.psc.ownerCnt.1, s.psc.ownerCnt.2 + 1) }
      ibi := s.ibi + 1 } := by
  simp only [State.ends, State.mayFinish, State.finish, State.completeNow, h, if_true]
theorem quiet_ends_owner (s : State) (f : Finish) (h : f.job.ring = .owner) : Quiet s (s.ends f) := by
  rw [ends_owner s f h]; exact ⟨rfl, rfl, rfl, rfl⟩
theorem complete_owner (s : State) (j : Job) (st r0 r1 : Nat) (h : j.ring = .owner) :
    s.complete j st r0 r1 = { s with
      psc := { s.psc with
        jobs := s.psc.jobs.filter fun x => x.id != j.id
        ownerOut := s.psc.ownerOut ++ [{ tick := s.tick, tag := j.tag, status := st, opcode := j.opcode, idx := 0, r0 := r0, r1 := r1, len := 0,
                                         noirq := j.noirq, data := [] }]
        ownerCnt := (s.psc.ownerCnt.1, s.psc.ownerCnt.2 + 1) }
      ibi := s.ibi + 1 } := ends_owner s _ h
theorem quiet_complete_owner (s : State) (j : Job) (st r0 r1 : Nat) (h : j.ring = .owner) : Quiet s (s.complete j st r0 r1) :=
  quiet_ends_owner s _ h

/-- The owner ring's first descriptor that has not started is validated and started. -/
theorem ringCommand_owner (s : State) (o : RingOp) (j : Job) (hf : s.fatal = false)
    (hj : (s.ringJobs .owner).find? (fun x => x.phase == 0) = some j) (ho : j.opcode = o.op) (hn : o.fn j = true) (hw : j.fence = false) :
    s.ringCommand .owner o = s.startJob o j := by
  simp only [State.ringCommand, hf, hj, ho, hn, hw]
  simp

/-- Validation of a descriptor that passes every check. -/
theorem startJob_valid (s : State) (o : RingOp) (j : Job) (h : j.ring = .owner) (hr : j.reserved = none) (hl : j.lenBad = false)
    (hb : o.bad s j = none) : s.startJob o j = o.work s j := by
  simp [State.startJob, h, hr, hl, hb, State.bufBad]

/-! ## An instruction of a core (R156–R158, R220) -/

/-- Nothing to answer. -/
theorem settleSnoops_settled (s : State) (h : s.settled = true) : s.settleSnoops = s := by simp [State.settleSnoops, h]

/-- When no core defers a snoop, nothing is to be answered. -/
theorem settled_of_noneDeferred (s : State) (h : ∀ e ∈ s.cores, e.2.deferred = []) : s.settled = true := by
  unfold State.settled
  exact List.all_eq_true.mpr fun e he => by rw [h e he]; rfl

/-- An instruction of a core that executes normally: the effect completes and retires, raises its exception unless an asynchronous event goes
first, or does not proceed. -/
theorem run_ready (s : State) (k : CoreId) (len : Nat) (mode : RaMode) (body : State → Act) (h : s.ready k) :
    s.run k len mode body = State.settleSnoops (match body s with
      | .stay t => t
      | .exc e t => if s.asyncPending k then s else t.takeExc k e (len == 4)
      | .done t =>
        let u := (t.count k 0x02 1 (s.core k).pl (s.core k).inner).smplClose k (s.core k).pc 0
        if (s.core k).stepping then u.halt k else u) := by
  obtain ⟨h1, h2, h3, -⟩ := h
  simp only [State.run, State.runBody, h1, h2, h3]
  rfl

/-- An instruction that only computes. -/
theorem compute_ready (s : State) (k : CoreId) (len : Nat) (srcs dsts : List RegName) (f : Core → Core) (h : s.ready k) :
    s.compute k len srcs dsts f = State.settleSnoops
      (let t := s.setCore k ((f (s.core k)).adv len)
       let u := (t.count k 0x02 1 (s.core k).pl (s.core k).inner).smplClose k (s.core k).pc 0
       if (s.core k).stepping then u.halt k else u) := by
  rw [State.compute, run_ready _ _ _ _ _ h]

/-- A core that does not run executes nothing. -/
theorem runBody_not_running (s : State) (k : CoreId) (len : Nat) (mode : RaMode) (body : State → Act) (h : s.runs k = false) :
    s.runBody k len mode body = s := by
  simp [State.runBody, h]

/-- A hardware breakpoint stands before the instruction. -/
theorem runBody_breakpoint (s : State) (k : CoreId) (len i : Nat) (mode : RaMode) (body : State → Act) (h : s.runs k = true) (hr : (s.core k).ra = none)
    (hb : s.bpHit k = some i) (hh : s.rb (.coreDbgCtl k) 3 = true) : s.runBody k len mode body = s.halt k := by
  simp [State.runBody, h, hr, hb, State.bpAct, hh]

end Sys2Proof.Machine
end

