-- ==== Sys2Proof/Tests/Slice0.lean ====
section
/-! SUPPORT. Tests of the model on small states: that its checks refuse what is ill formed, and for each statement states and operands that
meet its hypotheses, clause by clause. A state is built from the state after reset by the registers and fields that matter. -/

set_option Elab.async false


namespace Sys2Proof.Tests
open Sys2Proof Sys2Proof.Machine

/-! ## States -/

/-- A state with registers of its own. -/
def with_ (s : State) (l : List (Reg × Word)) : State := { s with regs := l.foldl (fun t e => Tbl.put t e.1.addr e.2) s.regs }

/-- The core of a partition that runs, at level PL1 in the outer world. -/
def core0 : Core := { Core.reset with held := false, cs := 0 }

/-- The state after reset with a number for each fuse and for the parameter checksum, which the model leaves open. -/
def base : State := { State.reset with meter := { Meter.reset with st := 0, sum := 0 }, psc := { Psc.reset with svn := 0 } }

/-- Partition 0 runs on cluster 0, with the granule of PPA 0 at DA 2^30; core 0 is released and the boot is over. -/
def up : State :=
  ({ with_ base [(.cluOwner 0, 0x10), (.gmapEntryA 0, 0x40000001), (.pscPartStatus 0, 2), (.pscBootStatus, 8), (.fctTickStatus 0, 1)] with net := { Net.empty with routesOn := true } }).setCore 0 core0

/-- `up` with another core 0. -/
def upCore (c : Core) : State := up.setCore 0 c

/-- A table that holds a number at one system register. -/
def core0Sys (n : Nat) (v : Word) : Core := core0.wsys n v

/-! ## Well-formed commands: an ill-formed term for each check -/

def badMsg : Msg := { Msg.zero with ln := 2 ^ 46 }
def badFeed : Feed := { kind := 2, ok := true, counts := [List.replicate 17 0], main := true }
def upReq0 : UpReq := { rid := 0, pasid := none, priv := false, addr := 0, size := 8, kind := .read false, translated := false, ro := false,
                        ep := false, data := [] }

theorem test_wf_access : Instr.wf (.registerWrite .psc 8 3 0) = false ∧ Instr.wf (.registerWrite .psc (2 ^ 28) 4 0) = false ∧
    Instr.wf (.prsAccess 0 16 true 0) = false ∧ Instr.wf (.registerWrite .psc 8 8 0) = true := by decide
theorem test_wf_message : Instr.wf (.rdo badMsg) = false ∧ Instr.wf (.rds badMsg .none) = false ∧ Instr.wf (.sni badMsg) = false ∧
    Instr.wf (.dh badMsg none) = false ∧ Instr.wf (.wbd badMsg) = false ∧ Instr.wf (.drd badMsg) = false ∧ Instr.wf (.rdo Msg.zero) = true := by decide
theorem test_wf_feed : Instr.wf (.feedMessage badFeed) = false ∧ Instr.wf (.feedMessage { badFeed with kind := 0, counts := [[1]] }) = false ∧
    Instr.wf (.feedMessage { badFeed with kind := 4 }) = false ∧ Instr.wf (.feedMessage { badFeed with kind := 1 }) = true := by decide
theorem test_wf_upstream : Instr.wf (.upstreamMemoryRequest 0 { upReq0 with size := 4097 }) = false ∧
    Instr.wf (.upstreamMemoryRequest 0 { upReq0 with addr := 2 ^ 64 }) = false ∧ Instr.wf (.upstreamMemoryRequest 0 { upReq0 with kind := .write }) = false ∧
    Instr.wf (.upstreamMemoryRequest 0 upReq0) = true := by decide
theorem test_wf_ranges : Instr.wf (.meterLedgerClose [1] 25) = false ∧ Instr.wf (.msiWrite 0 0 5000 0 false) = false ∧
    Instr.wf (.hbmReadData 0 (2 ^ 46) 0) = false ∧ Instr.wf (.mergeBufferDrain (2 ^ 46)) = false ∧ Instr.wf (.homeTrackerTimeout (2 ^ 46)) = false ∧
    Instr.wf (.l1Fill 0 (2 ^ 46) false false ⟨none, .none⟩) = false ∧ Instr.wf (.bootChordTraining [72]) = false ∧ Instr.wf (.bootHbmTraining [128] true) = false ∧
    Instr.wf (.bootMemoryWipe [(32, 1)]) = false ∧ Instr.wf (.ownerMessage 0 1 (List.replicate 9 0) [] true) = false ∧ Instr.wf (.gap (2 ^ 16) 0) = false ∧
    Instr.wf (.event (2 ^ 16) 0) = false ∧ Instr.wf (.paramlog (2 ^ 16) 0) = false ∧ Instr.wf (.sensorCheck 21 0 0 0) = false ∧
    Instr.wf (.blackboxRecord ⟨2 ^ 48, 0, none, 0, 0, 0⟩) = false := by decide

/-! ## The step and the registers -/

theorem wit_StepRunsFrontCommand : ({ up with pending := [.barC 0, .barS 0] }).pending = .barC 0 :: [.barS 0] ∧ up.pending = [] := by decide +kernel
theorem test_d0_discards : (core0.wd 0 7).rd 0 = 0 ∧ (core0.wd 5 7).rd 5 = 7 ∧ (core0.wa 15 9).sp.get 0 1 = 9 ∧ (core0.wa 15 9).sp.get 0 2 = 0 := by
  decide

/-! ## Kosal: the core as it computes -/

/-- The hypothesis of the statements about an instruction that only computes: the core is ready. -/
theorem wit_ready : up.ready 0 := by unfold State.ready; decide +kernel
theorem wit_calm : up.calm 0 := by unfold State.calm State.ready; decide +kernel
theorem wit_noneDeferred : up.noneDeferred := by unfold State.noneDeferred; decide +kernel

theorem wit_IntegerAndAddressResults : up.ready 0 ∧ (5 : Fin 8).val < 6 ∧ ¬ ((1 : SDReg) = 0 ∧ (0 : SDReg) = 0) ∧ ((1 : SDReg) ≠ 0 ∨ (3 : BitVec 7) = 0) ∧
    holdsCc 2 (-1) 0 ∧ ¬ holdsCc 4 (-1) 0 := by
  refine ⟨wit_ready, by decide, by decide, by decide, ?_, ?_⟩ <;> · unfold holdsCc; decide
theorem wit_MultiplyDivideAndBitResults : up.ready 0 := wit_ready
theorem wit_FloatRoundedResults : up.ready 0 ∧ (up.core 0).fpRm 4 = some .rmm ∧ (up.core 0).fpRm 7 = some .rne ∧ (up.core 0).fpRm 5 = none := by
  refine ⟨wit_ready, ?_⟩; decide +kernel
theorem wit_FloatUnroundedResults : up.ready 0 ∧ fpCmp (fp64.decode 0) (fp64.decode 0x3FF0000000000000) < 0 ∧
    (fp32.decode 0x7FC00000).isNan = true ∧ fp32.decode 0x7F800001 = .nan true := by
  refine ⟨wit_ready, ?_⟩; decide +kernel
theorem wit_FloatSpecialValues : (FpVal.nan false).isNan = true ∧ (fp64.decode (fpArg true 0x3FF0000000000000)).isNan = false := by decide +kernel

/-! ## Kosal: control flow -/

/-- A core whose register a1 holds an odd address. -/
def oddTarget : State := upCore (core0.wa 1 0x1001)
theorem wit_BranchAndJumpResults : up.ready 0 ∧ ((up.core 0).ra' 1).getLsbD 0 = false ∧ oddTarget.calm 0 ∧ ((oddTarget.core 0).ra' 1).getLsbD 0 = true := by
  refine ⟨wit_ready, by decide +kernel, ?_, by decide +kernel⟩; unfold State.calm State.ready; decide +kernel

def at_ (pl : Level) (inner : Bool) : State := upCore { core0 with pl := pl, inner := inner }
theorem wit_GateAndBreakpointEntries : (at_ 0 false).calm 0 ∧ ((at_ 0 false).core 0).pl = 0 ∧ (at_ 1 false).calm 0 ∧ (at_ 1 true).calm 0 ∧
    (at_ 2 false).calm 0 ∧ (at_ 3 true).calm 0 ∧ ((at_ 3 true).core 0).inner = true ∧ up.invasive (up.pidOf 0) (up.core 0).inner = false := by
  unfold State.calm State.ready; decide +kernel
theorem wit_ExceptionEntryEffect : (1 : Level) ≠ 0 := by decide

/-- ERET from a level, with the status of that level and SYS_WCTL as given. -/
def eretAt (pl : Level) (st wctl : Word) : State := upCore (({ core0 with pl := pl, inner := decide (pl = 3) }.wsys (0x400 * pl.val) st).wsys 0xC08 wctl)
def eretHyp (s : State) (ppl : Level) : Prop := s.ready 0 ∧ (s.core 0).pl ≠ 0 ∧ (s.core 0).deferred = [] ∧
  BitVec.ofNat 2 ppl.val = ((s.core 0).rsys (0x400 * (s.core 0).pl.val)).extractLsb' 4 2
theorem wit_EretResults : eretHyp (eretAt 1 0x00 0) 0 ∧ eretHyp (eretAt 2 0x20 0) 2 ∧ eretHyp (eretAt 3 0x10 0) 1 ∧ eretHyp (eretAt 3 0x430 0) 3 := by
  unfold eretHyp State.ready; decide +kernel
theorem wit_EretResults_switch : eretHyp (eretAt 3 0x20 1) 2 ∧ eretHyp (eretAt 3 0x10 5) 1 ∧ eretHyp (eretAt 3 0x410 9) 1 ∧
    ((eretAt 3 0x20 1).core 0).rsys 0xC08 = 1 ∧ (((eretAt 3 0x410 9).core 0).rsys 0xC08).extractLsb' 2 2 = 2 := by
  unfold eretHyp State.ready; decide +kernel
theorem wit_EretResults_forbidden : (eretAt 1 0x20 0).calm 0 ∧ eretHyp (eretAt 1 0x20 0) 2 ∧ (eretAt 3 0x30 0).calm 0 ∧ eretHyp (eretAt 3 0x30 0) 3 := by
  unfold eretHyp State.calm State.ready; decide +kernel
theorem wit_EretResults_forbidden_switch : (eretAt 3 0x30 1).calm 0 ∧ eretHyp (eretAt 3 0x30 1) 3 ∧ (eretAt 3 0 0xD).calm 0 ∧ (eretAt 3 0 9).calm 0 := by
  unfold eretHyp State.calm State.ready; decide +kernel
theorem wit_EretResults_forbidden_world : (eretAt 3 0x420 0).calm 0 ∧ eretHyp (eretAt 3 0x420 0) 2 := by
  unfold eretHyp State.calm State.ready; decide +kernel
theorem wit_EntryThenReturnRestores : core0.pl ≤ 1 ∧ (1 : Level) ≠ 0 ∧ (core0.inner = true → core0.pl ≠ 2) ∧ bit (core0.rsys 0xC08) 0 = false ∧
    (0x1000 : Word).getLsbD 0 = false := by decide
theorem wit_TrapConditions : (at_ 0 false).calm 0 ∧ ((at_ 0 false).core 0).pl = 0 ∧ (at_ 1 false).calm 0 ∧ ((at_ 1 false).core 0).pl.val < 2 ∧
    (up.core 0).fpRm 5 = none ∧ srnListed (0x009 : BitVec 12).toNat = false ∧ srnListed (0x410 : BitVec 12).toNat = true ∧
    srnListed (0x200 : BitVec 12).toNat = true ∧ ((oddTarget.core 0).ra' 1).toNat % 4 ≠ 0 ∧ oddTarget.calm 0 := by
  unfold State.calm State.ready; decide +kernel

/-! ## Kosal: memory -/

def Res.isOk {α : Type} [DecidableEq α] (r : Res α) (v : α) (s : State) : Bool := match r with | .ok a t => decide (a = v) && decide (t = s) | _ => false
theorem eq_of_isOk {α : Type} [DecidableEq α] (r : Res α) (v : α) (s : State) (h : Res.isOk r v s = true) : r = .ok v s := by
  cases r <;> simp_all [Res.isOk]

/-- The line of VA 0x40 in partition 0, and a copy of it in cluster 0. -/
def ln0 : Nat := 2 ^ 24 + 1
def cpM : L2Copy :=
  { st := .m, prior := none, inner := false, data := 0x1122334455667788, poison := false, err := .none, way := some 0, core := 0, armed := 0 }
def l1e : L1Line := { ln := ln0, way := 0, inner := false, stream := false, dirty := false }
/-- `up` with that copy, and a core that has the line in its L1 data cache and 0x40 in register a1. -/
def cached (c : Core) (cp : L2Copy) : State := (up.setCore 0 ({ c with l1d := [l1e] }.wa 1 0x40)).setCopy ln0 0 (some cp)
def hot : State := cached core0 cpM
def part8 : Part := { va := 0x40, ppa := 0x40, n := 8, dev := false, cacheable := true }
def part64 : Part := { part8 with n := 64 }
def part4 : Part := { part8 with n := 4 }

/-- The rest of `State.hits` once the translation is found. -/
def hitsB (s : State) (n : Nat) (p : Part) (da : Nat) (cp : L2Copy) : Bool :=
  decide (p.n = n ∧ p.dev = false ∧ p.cacheable = true ∧ (s.core 0).sq = [] ∧ s.firewall 0 p.ppa (s.core 0).inner false = .inl da ∧
  da % 64 + n ≤ 64 ∧ (s.pidOf 0).val ∉ s.refused ∧ s.l2State (clusterOf 0) ≠ 2 ∧ s.copy (da / 64) (clusterOf 0) = some cp ∧ cp.st.stable = true ∧
  cp.err = .none ∧ cp.poison = false ∧
  ((s.core 0).hasBytes (da / 64) (da % 64) n (s.core 0).inner = true ∨ s.l2State (clusterOf 0) = 1) ∧ (s.core 0).stale = [])
theorem hits_of (s : State) (kind : Kind) (tc : TypeCheck) (va : Word) (n : Nat) (p : Part) (da : Nat) (cp : L2Copy)
    (h1 : Res.isOk (xlate 0 kind false tc va n s) [p] s = true) (h2 : hitsB s n p da cp = true) (h3 : ∀ r w, s.wpHit 0 va n r w = none) :
    s.hits 0 kind tc va n p da cp := by
  obtain ⟨a1, a2, a3, a4, a5, a6, a7, a8, a9, a10, a11, a12, a13, a14⟩ := of_decide_eq_true h2
  exact ⟨eq_of_isOk _ _ _ h1, a1, a2, a3, a4, a5, a6, a7, a8, a9, a10, a11, a12, a13, a14, h3⟩

theorem wit_LoadResults : hot.ready 0 ∧ Res.isOk (xlate 0 .read false (tcDevAligned 0x40 8 .read) 0x40 8 hot) [part8] hot = true ∧
    hot.wpHit 0 0x40 8 true false = none ∧ ((hot.core 0).ra' 1).toNat % 64 = 0 ∧
    (match loadNormal 0 { n := 8, sign := false, dst := .d 3, fwd := true, stream := false, base := 1, upd := none, len := 4 } [part8] hot with
      | .ok _ t => t.settled | _ => false) = true := by unfold State.ready; decide +kernel
/-- A device access: with translation off, an address of the MMIO window. -/
def devCore : Core := core0.wa 1 0xFFF100000000
def devPart : Part := { va := 0xFFF100000000, ppa := 0xFFF100000000, n := 4, dev := true, cacheable := true }
theorem wit_LoadResults_device : (upCore devCore).ready 0 ∧
    Res.isOk (xlate 0 .read false (tcDevAligned 0xFFF100000000 4 .read) 0xFFF100000000 4 (upCore devCore)) [devPart] (upCore devCore) = true ∧
    devPart.dev = true ∧ ((upCore devCore).core 0).dq = [] ∧ (upCore devCore).settled = true ∧
    (upCore devCore).wpHit 0 0xFFF100000000 4 true false = none := by unfold State.ready; decide +kernel
theorem wit_LoadValues_hit : hot.hits 0 .read (tcDevAligned 0x40 8 .read) 0x40 8 part8 (64 * ln0) cpM :=
  hits_of _ _ _ _ _ _ _ _ (by decide +kernel) (by decide +kernel) (by decide +kernel)
def sq8 : SqEnt := { ppa := 0x40, size := 8, data := 0xAB, cacheable := true, zero := false, inner := false }
def queued : State := cached { core0 with sq := [sq8] } cpM
/-- Forwarding from the youngest overlapping store, and its wait where the store holds some of the bytes only. -/
theorem wit_LoadValues_forward : (queued.core 0).sq = [] ++ sq8 :: [] ∧ sq8.ppa < part4.ppa + part4.n ∧ part4.ppa < sq8.ppa + sq8.size ∧
    sq8.ppa ≤ part4.ppa ∧ part4.ppa + part4.n ≤ sq8.ppa + sq8.size ∧ ¬ (part64.ppa + part64.n ≤ sq8.ppa + sq8.size) := by decide +kernel
theorem wit_LoadValues_uncached : (up.core 0).sq = [] ∧ (up.core 0).stale = [] ∧ up.reqHold (clusterOf 0) = false ∧
    ({ part8 with cacheable := false } : Part).cacheable = false ∧ 64 * ln0 % 64 + 8 ≤ 64 ∧ up.firewall 0 0x40 false false = .inl (64 * ln0) ∧ up.lineQuiet ln0 = true ∧
    (up.newest ln0 (up.pidOf 0)).2 = false ∧ (up.pidOf 0).val ∉ up.refused := by decide +kernel
/-- No copy of a line that nobody holds has a stored error. -/
theorem sound_of (s : State) (ln : Nat) (h : (s.line ln).mb = none ∧ (s.line ln).l2 = [] ∧ (s.line ln).l3 = none) : s.sound ln := by
  obtain ⟨h1, h2, h3⟩ := h
  refine ⟨h1, ?_, ?_⟩
  · intro g c hc; simp [State.copy, h2, Tbl.get] at hc
  · intro c hc; simp [h3] at hc
theorem wit_sound : up.sound ln0 := sound_of _ _ (by decide +kernel)
theorem wit_StoreResults : hot.ready 0 ∧ Res.isOk (xlate 0 .write false (tcDevAligned 0x40 8 .write) 0x40 8 hot) [part8] hot = true ∧
    hot.wpHit 0 0x40 8 false true = none ∧ sqUsed (hot.core 0).sq + sqUsed (sqEntries false [part8] 7) ≤ 128 ∧ hot.settled = true := by unfold State.ready; decide +kernel
theorem wit_StoreResults_device : Res.isOk (xlate 0 .write false (tcDevAligned 0xFFF100000000 4 .write) 0xFFF100000000 4 (upCore devCore)) [devPart] (upCore devCore) = true ∧
    (upCore devCore).wpHit 0 0xFFF100000000 4 false true = none ∧ ((upCore devCore).core 0).dq.length < 16 ∧ (upCore devCore).settled = true := by decide +kernel
theorem wit_AccumulateResults : hot.ready 0 ∧ hot.hits 0 .read (tcNoDev 0x40 .read) 0x40 64 part64 (64 * ln0) cpM :=
  ⟨by unfold State.ready; decide +kernel, hits_of _ _ _ _ _ _ _ _ (by decide +kernel) (by decide +kernel) (by decide +kernel)⟩
def crcCore : Core := core0.wsys 0x004 0x82F63B78
theorem wit_ReductionResults : (upCore crcCore).ready 0 ∧ ((upCore crcCore).core 0).rsys 0x004 ≠ 0 ∧ (up.core 0).rsys 0x004 = 0 ∧ up.calm 0 := by
  unfold State.calm State.ready; decide +kernel
theorem wit_AtomicResults_near : hot.noneDeferred ∧ hot.hits 0 .rw (tcNoDev 0x40 .rw) 0x40 8 part8 (64 * ln0) cpM ∧ cpM.st = .m :=
  ⟨by unfold State.noneDeferred; decide +kernel, hits_of _ _ _ _ _ _ _ _ (by decide +kernel) (by decide +kernel) (by decide +kernel), rfl⟩
/-- No cache holds the line. -/
def cold : State := upCore (core0.wa 1 0x40)
theorem wit_AtomicResults_far : cold.ready 0 ∧ Res.isOk (xlate 0 .rw false (tcNoDev 0x40 .rw) 0x40 4 cold) [part4] cold = true ∧ (cold.core 0).sq = [] ∧
    cold.firewall 0 0x40 false false = .inl (64 * ln0) ∧ (cold.line ln0).tr = none ∧ (cold.line ln0).queue = [] ∧ (cold.line ln0).l2 = [] ∧
    cold.reqHold (clusterOf 0) = false := by unfold State.ready; decide +kernel
theorem wit_AtomicResults_far_home : (∀ r w, cold.wpHit 0 0x40 4 r w = none) ∧ (cold.line ln0).dir = none ∧ (cold.line ln0).l3 = none ∧ cold.l3Peers ln0 = [] ∧
    cold.cxlLost ln0 = false ∧ (cold.newest ln0 (cold.pidOf 0)).2 = false := by decide +kernel
theorem wit_AtomicResults_sound : cold.sound ln0 := sound_of _ _ (by decide +kernel)
def l3c : L3Copy := { data := 7, dirty := false, poison := false, err := .none, pid := 0, way := 0, ref := false }
theorem wit_AtomicResults_l3 : part4.cacheable = true ∧ ((cold.setLine ln0 { LineSt.empty with l3 := some l3c }).line ln0).l3 = some l3c ∧
    l3c.pid = (cold.setLine ln0 { LineSt.empty with l3 := some l3c }).pidOf 0 := by decide +kernel
def reserved : State := cached { core0 with resv := some { ln := ln0, atHome := false, defer := true, since := 5 } } cpM
theorem wit_ReservationResults : hot.hits 0 .read (tcCacheable 0x40 .read) 0x40 8 part8 (64 * ln0) cpM ∧
    reserved.hits 0 .write (tcCacheable 0x40 .write) 0x40 8 part8 (64 * ln0) cpM ∧ hot.hits 0 .write (tcCacheable 0x40 .write) 0x40 8 part8 (64 * ln0) cpM :=
  ⟨hits_of _ _ _ _ _ _ _ _ (by decide +kernel) (by decide +kernel) (by decide +kernel),
   hits_of _ _ _ _ _ _ _ _ (by decide +kernel) (by decide +kernel) (by decide +kernel),
   hits_of _ _ _ _ _ _ _ _ (by decide +kernel) (by decide +kernel) (by decide +kernel)⟩
theorem wit_ReservationResults_state : reserved.ready 0 ∧ reserved.noneDeferred ∧ (reserved.core 0).resv = some { ln := ln0, atHome := false, defer := true, since := 5 } ∧
    (hot.core 0).resv = none ∧ (hot.core 0).holds ln0 (hot.core 0).inner = true := by unfold State.ready State.noneDeferred; decide +kernel

/-! ## Kosal: barriers, system registers, maintenance -/

theorem wit_BarrierResults : (up.core 0).sq = [] ∧ (up.core 0).dq = [] ∧ (up.core 0).tlbOut = [] ∧ (up.core 0).maintOut = [] ∧ (queued.core 0).sq ≠ [] ∧ queued.ready 0 ∧
    (upCore { core0 with pendO := [16] }).wakeEvent 0 = true ∧ (upCore { core0 with pendO := [16] }).ready 0 ∧ core0.pl ≠ 0 ∧
    (upCore { core0 with maintOut := [(7, 0)] }).ready 0 ∧ ((upCore { core0 with maintOut := [(7, 0)] }).core 0).maintOut ≠ [] := by
  unfold State.ready; decide +kernel
theorem wit_SystemRegisterResults : srnListed 0x002 = true ∧ 0x002 / 1024 ≤ (up.core 0).pl.val ∧ srnListed 0x410 = true ∧ 0x410 / 1024 ≤ (up.core 0).pl.val ∧
    srnListed 0xC07 = true ∧ 0xC07 / 1024 ≤ ((at_ 3 true).core 0).pl.val := by decide +kernel
theorem wit_TlbInvalidateResults : (up.core 0).freeTag = some 0 ∧ (up.core 0).pl ≠ 0 ∧ (at_ 2 false).ready 0 ∧ ((at_ 2 false).core 0).freeTag = some 0 := by
  unfold State.ready; decide +kernel
theorem wit_CacheMaintenanceResults : Res.isOk (xlate 0 .read false (fun _ => none) 0x40 64 hot) [part64] hot = true ∧ (∀ e ∈ (hot.core 0).sq, e.ppa / 64 ≠ 1) ∧
    (hot.core 0).ra' 1 &&& ~~~ 63 = 0x40 ∧ hot.reqHold (clusterOf 0) = false ∧ hot.noneDeferred ∧ (hot.pidOf 0).val ∉ hot.refused ∧
    hot.firewall 0 0x40 false false = .inl (64 * ln0) ∧ hot.lineQuiet ln0 = true ∧ (hot.copy ln0 0).isSome = true := by
  unfold State.noneDeferred; decide +kernel
theorem wit_CacheMaintenanceResults_write : Res.isOk (xlate 0 .write false (tcNoDev 0x40 .write) 0x40 64 hot) [part64] hot = true ∧ (hot.core 0).pl ≠ 0 ∧
    (∀ r w, hot.wpHit 0 (0x40 &&& ~~~ 63) 64 r w = none) ∧ sqUsed (hot.core 0).sq ≤ 120 := by decide +kernel

/-! ## The events of a core -/

/-- A load at the pc that waits for the lower half of line 5, and the miss buffer that it waits for. -/
def blk0 : Block := { pc := 0, ln := 5, low := true, high := false, dst := .d 3, len := 4 }
def miss0 (got : Nat) : MissBuf :=
  { ln := 5, upper := false, got := got, write := false, instr := false, stream := false, ra := false, inner := false, armed := 0 }
def raRec (n : Nat) : RunAhead :=
  { pc := 8, d := [], a := [], sp := [], q := [], fpcsr := 0, resv := none, hist := [], ras := [], vpred := [], block := blk0, invD := [3], invA := [],
    invQ := [], count := n, stop := false, sb := [] }
def ahead (n : Nat) : State := upCore { core0 with ra := some (raRec n) }
def missing : State := upCore { core0 with block := some blk0, miss := [miss0 0] }
theorem wit_RunAheadEpisode : missing.ready 0 ∧ missing.rb (.coreExecCtl 0) 0 = true ∧ (missing.core 0).stepping = false ∧ missing.asyncPending 0 = false ∧
    (missing.core 0).block = some blk0 ∧ blk0.pc = (missing.core 0).pc ∧ (missing.core 0).blocked blk0 = true := by unfold State.ready; decide +kernel
theorem wit_RunAheadEpisode_ends : ((ahead 2048).core 0).ra = some (raRec 2048) ∧ 2048 ≤ (raRec 2048).count ∧ (2 : Word).getLsbD 0 = false ∧
    ((ahead 2048).core 0).blocked blk0 = false := by decide +kernel
def aheadOn : State := upCore { core0 with ra := some (raRec 5), miss := [miss0 0] }
theorem wit_RunAheadEpisode_on : (aheadOn.core 0).ra = some (raRec 5) ∧ (aheadOn.core 0).blocked (raRec 5).block = true ∧
    aheadOn.rb (.coreExecCtl 0) 0 = true ∧ aheadOn.asyncPending 0 = false := by decide +kernel
theorem wit_RunAheadComputes : (ahead 2047).runs 0 = true ∧ ((ahead 2047).core 0).ra = some (raRec 2047) ∧ (raRec 2047).stop = false ∧
    (ahead 2047).settled = true ∧ (ahead 2047).asyncPending 0 = false ∧ (raRec 2047).isInv (.d 3) = true ∧ (raRec 2047).isInv (.d 4) = false := by decide +kernel

def irqO : State := upCore { core0.wsys 0x400 0 with pendO := [16] }
def irqI : State := upCore { core0.wsys 0xC00 0 with pendO := [16], pendI := [17] }
def abort0 : Abort := { status := 4, write := true, ppa := 0x12345 }
def aborted : State := upCore { core0.wsys 0x400 0 with abort := some abort0 }
theorem wit_AsynchronousEventEntries : irqO.runs 0 = true ∧ irqO.haltTakeable 0 = false ∧ (irqO.core 0).deferred = [] ∧ irqO.settled = true ∧
    (irqO.core 0).abortTakeable = false ∧ (irqO.core 0).intChoice = some false ∧ (irqI.core 0).intChoice = some true := by decide +kernel
theorem wit_AsynchronousEventEntries_abort : (aborted.core 0).abort = some abort0 ∧ (aborted.core 0).abortTakeable = true ∧ aborted.runs 0 = true ∧
    (up.core 0).held = false ∧ (up.core 0).cs = 0 ∧ (up.core 0).abort = none ∧ up.wakeAb.get none 0 = none := by decide +kernel
theorem wit_InterruptAcknowledge : (irqO.core 0).pendO = 16 :: [] ∧ (irqI.core 0).pendI = 17 :: [] ∧ (up.core 0).pendO = [] ∧ (up.core 0).pendI = [] := by
  decide +kernel

/-- Invasive debug is enabled for the outer world; the core is halted, or has a halt request. -/
def dbg (c : Core) (w : Word) : State := with_ (upCore c) [(.pscDbgCtl 0, 5), (.coreBpCtl 0 1, w)]
theorem wit_DebugResults : ((dbg core0 0).core 0).halted = false ∧ (dbg { core0 with haltReq := true } 0).runs 0 = true ∧
    (dbg { core0 with haltReq := true } 0).haltTakeable 0 = true ∧ ((dbg { core0 with halted := true } 0).core 0).halted = true ∧
    (dbg { core0 with halted := true } 0).invasive 0 false = true ∧ (dbg { core0 with halted := true, inner := true } 0).invasive 0 true = false := by decide +kernel
theorem wit_DebugResults_rest : (dbg core0 0).rb (.coreBpCtl 0 1) 8 = false ∧ (dbg core0 0x100).rb (.coreBpCtl 0 1) 8 = true ∧ (dbg core0 0).lifeCycle ≠ 4 ∧
    (with_ up [(.pscDbgCtl 0, 0xA)]).nonInvasive 0 false = true ∧ (up.core 0).wait = none := by decide +kernel
def resv0 : Resv := { ln := ln0, atHome := false, defer := true, since := 0 }
def holding : State := upCore { core0 with resv := some resv0 }
def excOf (r : Res Unit) : Bool := match r with | .exc e _ => e.skip == 0 | _ => false
def okOf {α : Type} (r : Res α) : Bool := match r with | .ok _ _ => true | _ => false
/-- A pc without a granule faults on its first halfword; a pc at the end of the last one on its second. -/
theorem wit_DeferralAndFetchFaults : (holding.core 0).resv = some resv0 ∧ holding.settled = true ∧ (holding.core 0).deferred = [] ∧
    (holding.now - resv0.since) * holding.coreFreq 0 < 256 * 20 ∧
    256 * 20 ≤ ((with_ holding [(.locTickNum, 5), (.pwrPerf 216, 0x200000)]).now - resv0.since) * (with_ holding [(.locTickNum, 5), (.pwrPerf 216, 0x200000)]).coreFreq 0 ∧
    (upCore { core0 with pc := 0x40000000 }).calm 0 ∧
    excOf ({ upCore { core0 with pc := 0x40000000 } with free := 1 }.fetchHalf 0 0x40000000) = true := by unfold State.calm State.ready; decide +kernel
theorem wit_DeferralAndFetchFaults_second : okOf ({ upCore { core0 with pc := 0x3FFFFFFE } with free := 1 }.fetchHalf 0 0x3FFFFFFE) = true ∧
    excOf ({ upCore { core0 with pc := 0x3FFFFFFE } with free := 1 }.fetchHalf 0 0x40000000) = true := by decide +kernel

theorem wit_StoreDrains : (queued.core 0).sq = sq8 :: [] ∧ queued.noneDeferred ∧ (queued.core 0).held = false ∧ queued.fatal = false ∧ (queued.core 0).wfi = false ∧
    64 * ln0 % 64 + sq8.size ≤ 64 ∧ sq8.cacheable = true ∧ cpM.err = .none ∧ (queued.core 0).holds ln0 sq8.inner = true ∧ queued.firewall 0 sq8.ppa false false = .inl (64 * ln0) ∧
    queued.lineQuiet ln0 = true ∧ queued.copy ln0 0 = some cpM ∧ queued.l2State 0 = 0 ∧ (queued.pidOf 0).val ∉ queued.refused := by
  unfold State.noneDeferred; decide +kernel
def strayQ : State := upCore { core0 with sq := [{ sq8 with ppa := 0x40000000 }] }
theorem wit_StoreDrains_refused : (strayQ.core 0).cs = 0 ∧ (match strayQ.firewall 0 0x40000000 false false with
    | .inr (st, t) => st == 1 && decide (t.wakeAb = strayQ.wakeAb) && decide (t.cores = strayQ.cores) | _ => false) = true ∧
    (strayQ.core 0).abort = none ∧ strayQ.wakeAb.get none 0 = none := by decide +kernel
/-- The L2 has the line; a miss buffer of core 0 waits for it with none or one of its data units. -/
def filled (got : Nat) (instr : Bool) : State :=
  (upCore { core0 with miss := [{ miss0 got with ln := ln0, instr := instr }] }).setCopy ln0 0 (some cpM)
def fillHyp (s : State) (instr : Bool) (b : MissBuf) : Prop :=
  (s.core 0).held = false ∧ (s.core 0).cs = 0 ∧ s.fatal = false ∧ s.settled = true ∧ (s.core 0).deferred = [] ∧ (s.core 0).ra = none ∧ (s.core 0).block = none ∧
  s.l2State (clusterOf 0) = 0 ∧ s.fillBuf 0 ln0 false instr = some b ∧ b.ln = ln0 ∧ b.instr = instr ∧ b.write = false ∧ s.copy ln0 (clusterOf 0) = some cpM ∧
  cpM.st.stable = true ∧ cpM.way.isSome = true ∧ (s.core 0).holds ln0 true = false
theorem wit_MissUnitArrives : fillHyp (filled 0 false) false { miss0 0 with ln := ln0 } ∧ fillHyp (filled 1 false) false { miss0 1 with ln := ln0 } ∧
    fillHyp (filled 1 true) true { miss0 1 with ln := ln0, instr := true } := by unfold fillHyp; decide +kernel
theorem test_LineEntersL1 : (core0.l1Enter l1e).l1d.length = 1 ∧ (core0.l1Enter l1e).holds ln0 true = true := by decide +kernel

/-! ### Device accesses -/

def dq4 : DqEnt := { ppa := 0xFFF100000000, size := 4, data := 7, issued := false, inner := false }
/-- Region 3 of partition 0 covers the window of the root ports from 0xFFF100000000; port 0 is its own, in LINK_UP, with a window there. -/
def devS (lo : Word) : State :=
  { with_ (upCore { core0 with dq := [dq4] }) [(.drtRegionLo 0 3, lo), (.drtRegionHi 0 3, 0x0000001000000000), (.pciPortOwnerA 0 0, 0x10),
      (.pciPortStatus 0 0, 2)] with
    ports := [(0, { PortSt.idle with cfg := [(4, 2), (0x22, 0xF0), (0x23, 0xFF), (0x20, 0), (0x21, 0)] })] }
def devLo : Word := 0xFFF100000001
def devMsg : Msg := { Msg.zero with dst := 0x2C, ln := 0xFFF100000000 / 64, arg := 0x20 }
theorem wit_DeviceAccessPath_issue : ((devS devLo).core 0).dq = [] ++ dq4 :: [] ∧ dq4.issued = false ∧ ((devS devLo).core 0).held = false ∧ (devS devLo).fatal = false := by
  decide +kernel
theorem wit_DeviceAccessPath_region : devMsg.dst = 0x2C ∧ inMmio (reqPpa devMsg) = true ∧ (devS (devLo + 2)).comes .drd devMsg ∧ (devS (devLo + 2)).comes .dwr devMsg ∧
    (devS (devLo + 2)).drtFind 0 (reqPpa devMsg) = some 3 ∧
    ((devS (devLo + 2)).rg (.drtRegionLo 0 3)).getLsbD 1 = true ∧ devMsg.inner = false ∧ (devS (devLo + 8)).drtFind 0 (reqPpa devMsg) = some 3 ∧
    ((devS (devLo + 8)).rg (.drtRegionLo 0 3)).getLsbD 3 = true ∧ (devS (devLo + 8)).comes .drd devMsg ∧ ((devS (devLo + 8)).rg (.drtRegionLo 0 3)).getLsbD 1 = false := by
  unfold State.comes; decide +kernel
theorem wit_DeviceAccessPath_port : 0xFFF100000000 ≤ reqPpa devMsg ∧ (devS devLo).drtFind 0 (reqPpa devMsg) = some 3 ∧
    ((devS devLo).portsOf devMsg.pid).find? (fun port => ((devS devLo).portSt port).window (reqPpa devMsg - 0xFFF080000000)) = some 0 ∧
    (devS devLo).portState 0 = 2 ∧ ((devS devLo).rg (.drtRegionLo 0 3)).getLsbD 1 = false ∧ ((devS devLo).rg (.drtRegionLo 0 3)).getLsbD 3 = false ∧
    (devS devLo).comes .drd devMsg ∧ (devS devLo).comes .dwr devMsg := by unfold State.comes; decide +kernel
def dcmpMsg : Msg := { Msg.zero with ln := 0xFFF100000000 / 64 }
def issuedS : State := { upCore { core0 with dq := [{ dq4 with issued := true }] } with msgs := [(.dcmp, dcmpMsg)] }
theorem wit_DeviceAccessPath_ack : (MsgKind.dcmp, dcmpMsg) ∈ issuedS.msgs ∧ issuedS.comes .dcmp dcmpMsg ∧ (issuedS.core (msgCore dcmpMsg)).wfi = false ∧
    issuedS.tlbOwed = [] ∧ issuedS.dqAnswered (msgCore dcmpMsg) dcmpMsg.ln = some { dq4 with issued := true } ∧
    (issuedS.core (msgCore dcmpMsg)).dq = [] ++ { dq4 with issued := true } :: [] := by unfold State.comes; decide +kernel
/-- An access in flight at a root port. -/
def flight (wr early : Bool) : DevAcc :=
  { id := 9, core := 0, ppa := 0xFFF100000000, size := 4, write := wr, port := some 0, region := some 3, early := early, orphan := false, armed := 0, timeout := 10 }
theorem wit_DeviceAccessPath_ack_target : (MsgKind.dcmp, dcmpMsg) ∉ ({ issuedS with msgs := [], devs := [flight true false] }).msgs ∧
    ({ issuedS with msgs := [], devs := [flight true false] }).devOf dcmpMsg (·.write) = some (flight true false) := by decide +kernel
def wait0 : DevWait := { va := 0xFFF100000000, ppa := 0xFFF100000000, size := 4, sign := true, dst := .d 3, upd := none, len := 4 }
theorem wit_DeviceAccessPath_data : (upCore { core0 with wait := some wait0 }).settled = true ∧
    ((upCore { core0 with wait := some wait0 }).core (msgCore dcmpMsg)).wait = some wait0 ∧ wait0.ppa / 64 = dcmpMsg.ln ∧ dcmpMsg.poison = false ∧
    ({ upCore { core0 with wait := some wait0 } with msgs := [(.drr, dcmpMsg)] }).comes .drr dcmpMsg ∧
    ({ upCore { core0 with wait := some wait0 } with devs := [flight false false] }).devOf dcmpMsg (fun y => !y.write) = some (flight false false) := by
  unfold State.comes; decide +kernel
def acc0 : DevAcc := flight true true
def lateDev : State := { with_ (devS devLo) [(.locTickNum, 11)] with devs := [acc0] }
theorem wit_DeviceAccessPath_timeout : lateDev.devs.find? (fun x => x.id == acc0.id) = some acc0 ∧ acc0.armed + acc0.timeout < lateDev.tick ∧ acc0.early = true ∧ acc0.orphan = false ∧
    (lateDev.core 0).held = false ∧ (lateDev.core 0).cs = 0 ∧ (lateDev.core 0).wfi = false ∧ acc0.region = some (3 : Fin 64).val ∧ (lateDev.core 0).abort = none ∧ lateDev.wakeAb.get none 0 = none ∧
    lateDev.rb (.drtRegionLo (lateDev.pidOf acc0.core) 3) 3 = false := by decide +kernel

/-! ## Coherence: the home -/

def slice0 : BitVec 8 := sliceAgent (homeOf ln0)
/-- A request of cluster 2 for the line, to its home. -/
def req0 : Msg := { Msg.zero with src := 2, dst := slice0, ln := ln0 }
def line (l : LineSt) : State := up.setLine ln0 l
def dirOf (st : DirSt) (owner : Nat) (pres : BitVec 36) : DirEnt := { st := st, owner := owner, pres := pres, pid := 0, ref := false }
def dirE (st : DirSt) (owner : Nat) (pres : BitVec 36) : LineSt := { LineSt.empty with dir := some (dirOf st owner pres) }

/-- `HomeTakes` but for the absence of stored errors, which `sound_of` gives. -/
theorem homeTakes_of (s : State) (kd : MsgKind) (m : Msg) (hs : s.sound m.ln)
    (h : s.comes kd m ∧ m.dst = sliceAgent (homeOf m.ln) ∧ SliceIdle s (homeOf m.ln) ∧ (m.pid.val ∉ s.refused ∨ m.priv = true) ∧
      ((kd = .wri ∧ m.priv = true) ∨ (kd ≠ .wri ∧ s.homeAllows m = true)) ∧ (s.line m.ln).tr = none ∧ (s.line m.ln).queue = [] ∧
      (∀ e ∈ s.l3Peers m.ln, e.2.err = .none) ∧ s.trackerFree (homeOf m.ln) m = true) : HomeTakes s kd m := by
  obtain ⟨a, b, c, d, e, f, g, i, j⟩ := h
  exact ⟨a, b, c, d, e, f, g, hs, i, j⟩

theorem wit_HomeTakes : HomeTakes up .rdu req0 ∧ HomeTakes up .wri { req0 with priv := true } :=
  ⟨homeTakes_of _ _ _ (sound_of _ _ (by decide +kernel)) (by unfold State.comes SliceIdle State.noneDeferred; decide +kernel),
   homeTakes_of _ _ _ (sound_of _ _ (by decide +kernel)) (by unfold State.comes SliceIdle State.noneDeferred; decide +kernel)⟩
theorem wit_HomeAnswersUncachedLine : (up.line ln0).dir = none ∧ (up.dirPeers ln0).length < 27 ∧ (up.line ln0).l3 = none ∧ (up.mbEntries (homeOf ln0)).length < 16 ∧
    up.cxlLost ln0 = false ∧ ({ req0 with arg := 1 } : Msg).arg.getLsbD 0 = true ∧ (16 : BitVec 64).getLsbD 4 = true ∧ (16 : BitVec 64).toNat % 16 = 0 ∧
    (up.homeData ln0 0).2 = false ∧ up.hresv.get none (6 * 2 + req0.score.val) ≠ some ln0 ∧
    ({ up with hresv := [(12, some ln0)] }).hresv.get none (6 * 2 + req0.score.val) = some ln0 := by decide +kernel
/-- Owned by cluster 0, and by cluster 0 with copies in 1 and 3, and shared without an owner: each request has some snoop to send. -/
theorem wit_HomeSnoopsByDirectory : HomeTakes (line (dirE .de 0 0)) .rds req0 ∧ HomeTakes (line (dirE .dx 0 10)) .rdu req0 ∧
    HomeTakes (line (dirE .ds 0 10)) .upg { req0 with arg := 1 } :=
  ⟨homeTakes_of _ _ _ (sound_of _ _ (by decide +kernel)) (by unfold State.comes SliceIdle State.noneDeferred; decide +kernel),
   homeTakes_of _ _ _ (sound_of _ _ (by decide +kernel)) (by unfold State.comes SliceIdle State.noneDeferred; decide +kernel),
   homeTakes_of _ _ _ (sound_of _ _ (by decide +kernel)) (by unfold State.comes SliceIdle State.noneDeferred; decide +kernel)⟩
theorem wit_HomeSnoopsByDirectory_entry : ((line (dirE .dx 0 10)).line ln0).dir = some (dirOf .dx 0 10) ∧
    DirSt.dx ≠ .ds ∧ (10 : BitVec 36).getLsbD 1 = true ∧ (1 : Nat) ≠ req0.src.toNat := by decide +kernel
def tracker0 : Tracker :=
  { num := 0, kind := .rdu, req := req0, snoops := [1], wbif := [], evs := [], got := none, wasM := false, fwd := false, res := 0, sent := false,
    cack := true, armed := 0 }
theorem wit_HomeRefusals : up.comes .rds req0 ∧ req0.pid.val ∈ ({ up with refused := [0] }).refused ∧
    up.homeAllows { req0 with pid := 3 } = false ∧ up.comes .rds { req0 with pid := 3 } ∧ up.homeAllows req0 = true ∧ up.comes .wri req0 := by
  unfold State.comes; decide +kernel
/-- The transaction of the line is open, and a tracker is free. -/
theorem wit_HomeRefusals_waits : SliceIdle (line { LineSt.empty with tr := some tracker0 }) (homeOf ln0) ∧
    (line { LineSt.empty with tr := some tracker0 }).comes .rds { req0 with src := 3 } ∧
    (line { LineSt.empty with tr := some tracker0 }).trackerFree (homeOf ln0) { req0 with src := 3 } = true ∧
    ((line { LineSt.empty with tr := some tracker0 }).line ln0).tr = some tracker0 ∧ tracker0.sent = false ∧ tracker0.ready = false := by
  unfold SliceIdle State.comes State.noneDeferred; decide +kernel
/-- Every tracker of the slice is taken: 250 requests of partition 0 stand behind the open transaction of the line. -/
def full : State := line { LineSt.empty with tr := some tracker0, queue := List.replicate 250 (.rds, req0) }
theorem wit_HomeRefusals_full : full.trackerFree (homeOf ln0) { req0 with src := 3 } = false ∧ SliceIdle full (homeOf ln0) ∧
    full.comes .rds { req0 with src := 3 } ∧ full.homeAllows { req0 with src := 3 } = true := by unfold SliceIdle State.comes State.noneDeferred; decide +kernel

/-- The L3 holds the line, which no cluster has. -/
def inL3 : State := line { LineSt.empty with l3 := some l3c }
theorem inL3_line : inL3.line req0.ln = { LineSt.empty with l3 := some l3c } := by decide +kernel
theorem inL3_sound : inL3.sound req0.ln := by
  refine ⟨by rw [inL3_line]; rfl, fun g c h => ?_, fun c h => ?_⟩
  · simp [State.copy, inL3_line, LineSt.empty, Tbl.get] at h
  · rw [inL3_line] at h; simp only [Option.some.injEq] at h; subst h; rfl
def nextOf (o : Host.Outcome State Fault Refusal) : State := match o with | .next t => t | _ => up
theorem wit_StoredErrorsAreMet : HomeTakes inL3 .rds req0 ∧ (inL3.line ln0).dir = none ∧ (inL3.dirPeers ln0).length < 27 ∧ (inL3.line ln0).l3 = some l3c ∧
    l3c.pid = req0.pid :=
  ⟨homeTakes_of _ _ _ inL3_sound (by unfold State.comes SliceIdle State.noneDeferred; decide +kernel), by decide +kernel⟩
theorem test_rds_poison : ((nextOf (exec (.rds req0 .double) inL3)).line ln0).l3 = some { l3c with poison := true, ref := true } ∧
    (((nextOf (exec (.rds req0 .double) inL3)).ras.get [] 0 : List RasRec).map (·.code)) = [0x6031] := by decide +kernel
theorem test_rds_corrected : ((nextOf (exec (.rds req0 .single) inL3)).line ln0).l3 = some { l3c with ref := true } ∧
    ((nextOf (exec (.rds req0 .single) inL3)).msgs.map fun x => (x.1, x.2.data, x.2.poison)) = [(.dh, 7, false)] := by decide +kernel

/-- A transaction of cluster 2 that waits for cluster 1, the owner in DE, or in DO with a sharer. -/
def open0 (t : Tracker) (st : DirSt) : State := line { dirE st 1 0 with tr := some t }
def rsp0 : Msg := { Msg.zero with src := 1, dst := slice0, ln := ln0 }
theorem wit_HomeTransactionProgress : SliceIdle (open0 tracker0 .de) (homeOf ln0) ∧ (open0 tracker0 .de).comes .srsp rsp0 ∧
    ((open0 tracker0 .de).line ln0).tr = some tracker0 ∧ ((open0 tracker0 .de).line ln0).queue = [] ∧ tracker0.snoops = [rsp0.src.toNat] ∧
    (∀ e ∈ (open0 tracker0 .de).l3Peers ln0, e.2.err = .none) ∧ ((open0 tracker0 .de).line ln0).dir = some (dirOf .de 1 0) ∧
    tracker0.req.ln = rsp0.ln ∧ tracker0.sent = false ∧ tracker0.fwd = false ∧ tracker0.got = none ∧ tracker0.wbif = [] ∧ tracker0.evs = [] := by
  unfold SliceIdle State.comes State.noneDeferred; decide +kernel
theorem wit_HomeTransactionProgress_sound : (open0 tracker0 .de).sound rsp0.ln := sound_of _ _ (by decide +kernel)
/-- The line's L3 set has way 0 for partition 0. -/
def ways0 (s : State) : State := with_ s [(.l3sWaymaskA (homeOf ln0) 0, 1)]
theorem wit_HomeTransactionProgress_data : (ways0 (open0 tracker0 .de)).wayMask (homeOf ln0) 0 % 2 = 1 ∧ ((ways0 (open0 tracker0 .de)).line ln0).l3 = none ∧
    (ways0 (open0 tracker0 .de)).l3Peers ln0 = [] ∧ SliceIdle (ways0 (open0 tracker0 .de)) (homeOf ln0) ∧ (ways0 (open0 tracker0 .de)).comes .sdh rsp0 := by
  unfold SliceIdle State.comes State.noneDeferred; decide +kernel
theorem wit_HomeTransactionProgress_data_sound : (ways0 (open0 tracker0 .de)).sound rsp0.ln := sound_of _ _ (by decide +kernel)
def closing : State := open0 { tracker0 with sent := true, snoops := [], cack := true } .de
theorem wit_HomeTransactionProgress_close : closing.comes .cack { rsp0 with src := 2 } ∧ SliceIdle closing (homeOf ln0) ∧
    (closing.line ln0).tr = some { tracker0 with sent := true, snoops := [], cack := true } ∧ (closing.line ln0).queue = [] ∧
    tracker0.req.src = ({ rsp0 with src := 2 } : Msg).src := by unfold SliceIdle State.comes State.noneDeferred; decide +kernel
theorem wit_HomeTransactionProgress_evict : ((ways0 (line (dirE .de 1 0))).line ln0).tr = none ∧ (ways0 (line (dirE .de 1 0))).l3Peers ln0 = [] ∧
    ((ways0 (line (dirE .de 1 0))).line ln0).dir = some (dirOf .de rsp0.src.toNat 0) ∧ (ways0 (line (dirE .de 1 0))).comes .evc rsp0 ∧
    (ways0 (line (dirE .de 1 0))).comes .wbd rsp0 ∧ (ways0 (line (dirE .de 1 0))).wayMask (homeOf ln0) 0 % 2 = 1 := by
  unfold State.comes; decide +kernel
theorem wit_CrossingEvictionServesRequest : SliceIdle (open0 tracker0 .de) (homeOf ln0) ∧ ((open0 tracker0 .de).line ln0).tr = some tracker0 ∧
    ((open0 tracker0 .de).line ln0).queue = [] ∧ ((open0 tracker0 .de).line ln0).dir = some (dirOf .de 1 0) ∧ (open0 tracker0 .de).comes .wbd rsp0 ∧
    (open0 tracker0 .de).comes .srsp { rsp0 with arg := 32 } ∧
    tracker0.kind = .rdu ∧ tracker0.cack = true ∧ tracker0.wasM = false ∧ ({ rsp0 with arg := 32 } : Msg).arg = 32 := by
  unfold SliceIdle State.comes State.noneDeferred; decide +kernel

/-! ## Coherence: the caches -/

/-- A snoop for cluster 0. -/
def snp0 : Msg := { Msg.zero with src := slice0, dst := 0, ln := ln0 }
/-- Cluster 0 holds the line in a state while a transaction of cluster 2 is open on it. -/
def snooped (st : L2St) : State := (line { dirE .de 0 0 with tr := some { tracker0 with snoops := [0] } }).setCopy ln0 0 (some { cpM with st := st })
theorem wit_SnoopAnswers : snp0.dst = BitVec.ofNat 8 (0 : ClusterId).val ∧ (0 : ClusterId).val / 3 ∉ up.chord.lost ∧ up.copy ln0 0 = none ∧
    up.deferrer ln0 0 = none ∧ up.comes .sns snp0 ∧ (snooped .m).comes .sni snp0 ∧ (snooped .m).copy ln0 0 = some cpM ∧ (snooped .m).deferrer ln0 0 = none ∧
    ((snooped .m).line ln0).tr = some { tracker0 with snoops := [0] } := by unfold State.comes; decide +kernel
theorem wit_SnoopAnswers_states : [L2St.s, .e, .m, .o, .evp].all (fun st => (snooped st).copy ln0 0 == some { cpM with st := st }) = true := by
  decide +kernel
theorem wit_StoredErrorsAreMet_l2 : ((snooped .m).upsetL2 ln0 0 .double).copy ln0 0 = some { cpM with err := .double } ∧
    ((snooped .m).line ln0).dir = some (dirOf .de 0 0) ∧ ((snooped .m).upsetL2 ln0 0 .double).comes .snc snp0 := by unfold State.comes; decide +kernel
theorem test_snc_poison : ((nextOf (exec (.snc snp0) ((snooped .m).upsetL2 ln0 0 .double))).copy ln0 0) = some { cpM with st := .e, poison := true } ∧
    (((nextOf (exec (.snc snp0) ((snooped .m).upsetL2 ln0 0 .double))).ras.get [] 0 : List RasRec).map (·.code)) = [0x7051] := by decide +kernel
def deferring : State := (snooped .m).setCore 0 { core0 with resv := some resv0 }
theorem wit_SnoopAnswers_defer : deferring.deferrer ln0 0 = some 0 ∧ deferring.copy ln0 0 = some cpM ∧ cpM.st.stable = true ∧ deferring.comes .sni snp0 := by
  unfold State.comes; decide +kernel

/-- Cluster 0 waits for the line, with a way or without one; line 2^16 of its set lies in way 3. -/
def filling (st : L2St) (way : Option (Fin 16)) : State :=
  (up.setCopy ln0 0 (some { cpM with st := st, data := 0, way := way })).setCopy (ln0 + 2 ^ 16) 0 (some { cpM with way := some 3 })
def dat0 (n : Nat) : Msg := { snp0 with arg := BitVec.ofNat 64 n, data := 0xCAFE }
theorem wit_AgentReceipts : (filling .isd (some 0)).settled = true ∧ (filling .isd (some 0)).copy ln0 0 = some { cpM with st := .isd, data := 0 } ∧
    (filling .isd (some 0)).comes .dh (dat0 1) ∧ (filling .isd none).comes .df (dat0 2) ∧ (filling .isd none).noneDeferred ∧
    (0 : Nat) ∈ (filling .isd none).fillWays 0 0 ∧ (filling .isd none).evpCount 0 < 16 ∧
    ∀ e ∈ (filling .isd none).l2Peers ln0 0, e.2.way ≠ some (Fin.ofNat 16 0) := by
  unfold State.noneDeferred State.comes; decide +kernel
/-- Every way that core 0 may fill but way 0 is locked for other cores, and way 0 holds another line of the set. -/
def crowded : State := with_ (filling .isd none) [(.cluL2Lock 0, 0x9999999999999990)]
def crowded0 : State := crowded.setCopy (ln0 + 2 ^ 16) 0 (some cpM)
theorem wit_AgentReceipts_victim : crowded0.fillWays 0 0 ≠ [] ∧ (∀ w ∈ crowded0.fillWays 0 0, ∃ e ∈ crowded0.l2Peers ln0 0, e.2.way = some (Fin.ofNat 16 w)) ∧
    crowded0.evpCount 0 < 16 ∧ crowded0.noneDeferred ∧ crowded0.comes .dh (dat0 3) ∧
    ∀ e ∈ crowded0.l2Peers ln0 0, e.1 ≠ ln0 ∧ crowded0.copy e.1 0 = some e.2 ∧ e.2.st.stable = true ∧ e.2.err = .none := by
  unfold State.noneDeferred State.comes; decide +kernel
theorem wit_AgentReceipts_rest : (filling .evp (some 0)).copy ln0 0 = some { cpM with st := .evp, data := 0 } ∧ (filling .evp (some 0)).comes .eva snp0 ∧
    (filling .upa (some 0)).copy ln0 0 = some { cpM with st := .upa, data := 0 } ∧ (filling .upa (some 0)).comes .cmp snp0 ∧
    inMmio (64 * ln0) = false ∧ ((filling .isd none).core (msgCore snp0)).ra = none ∧ ((filling .isd none).core (msgCore snp0)).held = false ∧
    ((filling .isd none).core (msgCore snp0)).cs = 0 ∧ ((filling .isd none).core (msgCore snp0)).abort = none ∧
    (filling .isd none).wakeAb.get none 0 = none ∧ (filling .isd none).comes .err { snp0 with arg := 3 } := by unfold State.comes; decide +kernel
/-- The way of an evicted line goes to a filled one that waits for it. -/
def freed : State := ((filling .evp (some 0)).setCopy (ln0 + 2 ^ 16) 0 (some { cpM with way := none })).arrived .eva snp0 |>.setCopy ln0 0 none
theorem wit_AgentReceipts_freed : freed.copy (ln0 + 2 ^ 16) 0 = some { cpM with way := none } ∧ l2Set (ln0 + 2 ^ 16) = l2Set ln0 ∧ (0 : Nat) ∈ freed.fillWays 0 0 ∧
    (∀ e ∈ freed.l2Peers (ln0 + 2 ^ 16) 0, e.2.way ≠ some (Fin.ofNat 16 0)) := by decide +kernel
def maintaining : State := (hot.setCore 0 { core0 with maintOut := [(ln0, 4)] })
theorem wit_AgentReceipts_maint : maintaining.copy ln0 0 = some cpM ∧ maintaining.comes .cmp snp0 ∧ (maintaining.core (msgCore snp0)).maintOut = [] ++ (ln0, 4) :: [] := by
  unfold State.comes; decide +kernel
/-- A line that root port 0 reads. -/
def rcRead : State := { up with ports := [(0, { PortSt.idle with reads := [[{ ln := ln0, off := 8, len := 8, got := none }]] })] }
theorem wit_AgentReceipts_port : rcRead.rcPort { snp0 with dst := 0x24 } PortSt.readLines = some 0 ∧
    (rcRead.portSt 0).reads = [[{ ln := ln0, off := 8, len := 8, got := none }]] ∧ rcRead.comes .dro { snp0 with dst := 0x24 } ∧
    (∀ p : PortId, portRc p = portRc 0 → (rcRead.portSt p).held = []) ∧ up.rcPort { snp0 with dst := 0x2C } PortSt.readLines = none ∧
    up.comes .atr { snp0 with dst := 0x2C } := by unfold State.comes; decide +kernel

theorem wit_ControlMessages : up.comes .tlbd snp0 ∧ up.tlbOwed = [] ∧ up.owner 0 = some snp0.pid ∧ (upCore { core0 with sq := [sq8] }).comes .tlbd snp0 ∧
    ((upCore { core0 with sq := [sq8] }).core 0).sq ≠ [] ∧ up.owner 0 ≠ some ({ snp0 with pid := 3 } : Msg).pid ∧ up.comes .tlbd { snp0 with pid := 3 } ∧
    up.comes .tlba snp0 ∧ (Fin.ofNat 216 (6 * snp0.dst.toNat + snp0.score.val % 6) : CoreId) = 0 := by unfold State.comes; decide +kernel
theorem wit_ControlMessages_rest : ({ snp0 with arg := BitVec.ofNat 64 (16 + 0 * 2 ^ 15) } : Msg).dst ≠ 0x2F ∧ up.comes .intd { snp0 with arg := 16 } ∧
    up.comes .intd { snp0 with arg := 16, dst := 0x2F } ∧ (up.core 0).cs.val < 2 ∧ (up.core 0).held = false ∧ up.comes .lcr { snp0 with dst := 2 } ∧
    Reg.ofAddr (Reg.addr (.coreDbgCtl 0)) = some (.coreDbgCtl 0) ∧
    Reg.addr (.coreDbgCtl 0) % (Reg.width (.coreDbgCtl 0) / 8) = 0 ∧ Reg.width (.coreDbgCtl 0) = 32 ∧
    up.comes .mrd { snp0 with ln := Reg.addr (.coreDbgCtl 0) } ∧ up.comes .mwr { snp0 with ln := Reg.addr (.coreDbgCtl 0) } ∧ up.comes .mcmp snp0 := by
  unfold State.comes; decide +kernel

def mb0 : MergeEnt := { data := 5, mask := 1, base := none, born := 0, last := 0, poison := false, pid := 0 }
/-- The line has an entry that has been idle for more than 256 Net cycles. -/
def merging : State := with_ (ways0 (line { LineSt.empty with mb := some mb0 })) [(.locTickNum, 1)]
theorem wit_CacheControlResults : up.l2State 0 = 0 ∧ up.noneDeferred ∧ up.settled = true ∧ (merging.line ln0).mb = some mb0 ∧ mb0.last + 256 ≤ merging.now ∧
    (merging.line ln0).l3 = none ∧ merging.l3Peers ln0 = [] ∧ merging.wayMask (homeOf ln0) 0 % 2 = 1 ∧ (up.line 7).mb = none ∧
    ((line { LineSt.empty with mb := some mb0 }).line ln0).mb = some mb0 ∧ (line { LineSt.empty with mb := some mb0 }).now < mb0.last + 256 := by
  unfold State.noneDeferred; decide +kernel
theorem wit_CacheControlResults_locks : ((List.range 16).filter fun w => (8 : Word).getLsbD (4 * w + 3)).length ≤ 12 ∧ 6 ≤ fld 6 2 0 ∧ fld 8 2 0 < 6 := by decide
theorem wit_CacheControlResults_l2 : (with_ up [(.cluL2Ctl 0, 0x102)]).l2State 0 = 1 ∧ (with_ up [(.cluL2Ctl 0, 0x104)]).l2State 0 = 2 ∧ up.l2Lines 0 = [] := by
  decide +kernel
/-- A tracker that was armed in tick 0, in tick 4,097. -/
def stale : State := with_ (open0 tracker0 .de) [(.locTickNum, 4097)]
theorem wit_CacheControlResults_watchdog : tracker0.armed + 4096 < stale.tick ∧ stale.fatal = false ∧ stale.partState 0 ≠ 5 ∧ (stale.line ln0).tr = some tracker0 := by
  decide +kernel
def asked : State := with_ (upCore { core0 with maintOut := [(ln0, 0)] }) [(.locTickNum, 4097)]
theorem wit_CacheControlResults_request : asked.requestOf 0 ln0 = true ∧ asked.fatal = false ∧ asked.partState (asked.pidOf 0) ≠ 5 := by decide +kernel
theorem wit_CacheControlResults_ways : up.bankLocked 2 true = false ∧ (∀ q : Pid, q ≠ 0 → up.rf (.l3sWaymaskB 0 q) 15 0 &&& fld 3 15 0 = 0) ∧
    (with_ up [(.l3sWaymaskB 0 5, 2)]).rf (.l3sWaymaskB 0 5) 15 0 &&& fld 3 15 0 ≠ 0 := by decide +kernel
theorem wit_CacheControlResults_down : (0 : Pid).val ∈ ({ up with refused := [0] }).refused ∧ (with_ { up with refused := [0] } [(.pscPartStatus 0, 5)]).partState 0 = 5 := by
  decide +kernel

/-! ## The Net -/

/-- Router 30 of plane 0, and its neighbour to the east. -/
def rt0 : RouterId := { plane := 0, node := 30 }
def rtE : RouterId := { plane := 0, node := 31 }
/-- The header of an RDO of partition 0 on a virtual network, one link to the east from the router where it is, with `du` data units. -/
def hdrOf (vn du : Nat) : BitVec 256 := hSeal (BitVec.ofNat 256 (vn + 3 * 8 + du * 2 ^ 16 + 2 ^ 18 + 2 ^ 32))
def hdrVn (vn : Nat) : BitVec 256 := hdrOf vn 0
/-- A unit on the link from the west; that of a guaranteed packet crosses at its Net time. -/
def wuOf (h : BitVec 256) (demo : Bool) : WUnit := { vn := hVn h, head := true, data := h, poison := false, demo := demo, due := none }
def wireS (w : WUnit) : State := up.setRouter rt0 { Router.empty with wire := [(3, [w])] }
def arrives (s : State) (flip : BitVec 256) (w : WUnit) (d : BitVec 256) : Bool := decide (s.onWire rt0 3 .none flip = some (w, d))
def pkt0 : NetPkt := { inp := 3, hdr := hdrVn 0, data := [], demo := false, due := none }
theorem wit_LinkArrivalResults : arrives (wireS (wuOf (hdrVn 0) false)) 1 (wuOf (hdrVn 0) false) (hdrVn 0 ^^^ 1) = true ∧ hchkOk (hdrVn 0 ^^^ 1) = false ∧
    ((wireS (wuOf (hdrVn 0) false)).router rt0).link 3 ≠ [] ∧ (up.router rt0).link 3 = [] ∧
    hchkOk (hdrVn 0) = true ∧ outOf pkt0 = some 1 ∧ up.rb (.netRtrCtl 0 30) 3 = true ∧ up.rb (.netRtrCtl 0 30) 1 = true ∧ neighbour rt0 1 = some rtE := by
  decide +kernel
theorem wit_LinkArrivalResults_reserved : hchkOk (hdrVn 7) = true ∧ 6 ≤ hVn (hdrVn 7) ∧ arrives (wireS (wuOf (hdrVn 7) false)) 0 (wuOf (hdrVn 7) false) (hdrVn 7) = true ∧
    outOf { pkt0 with hdr := hSeal (BitVec.ofNat 256 (3 * 8 + 2 * 2 ^ 18 + 3 * 2 ^ 34 + 2 ^ 23)) } = none := by decide +kernel
theorem wit_LinkArrivalResults_off : ¬ ((with_ (wireS (wuOf (hdrVn 0) false)) [(.netRtrCtl 0 30, 0x77)]).rb (.netRtrCtl 0 30) 3 = true ∧
    (with_ (wireS (wuOf (hdrVn 0) false)) [(.netRtrCtl 0 30, 0x77)]).rb (.netRtrCtl 0 30) 1 = true) := by decide +kernel
/-- Slot 1 of output E of the router names the input from the west and partition 0. -/
def slotted : State := with_ (wireS { wuOf (hdrVn 4) false with due := some 0 }) [(.netSlotA 0 30 1 0, 0x700)]
theorem wit_LinkArrivalResults_gtd : arrives slotted 0 { wuOf (hdrVn 4) false with due := some 0 } (hdrVn 4) = true ∧ hVn (hdrVn 4) = 4 ∧ hchkOk (hdrVn 4) = true ∧
    slotNames (slotted.slotEntry rt0 false 1 (16 / 16 % 125)) 3 (hPid (hdrVn 4)) = true ∧ slotted.now ≤ 16 ∧
    slotNames (up.slotEntry rt0 false 1 1) 3 0 = false ∧ neighbour rt0 3 = some { rt0 with node := 29 } := by decide +kernel
/-- A router at the edge ejects a guaranteed packet to Facet 0. -/
def rtF : RouterId := { plane := 0, node := 0 }
def hdrF (vn : Nat) : BitVec 256 := hSeal (BitVec.ofNat 256 (vn + 3 * 8))
def edgeS : State := with_ (up.setRouter rtF { Router.empty with wire := [(1, [{ wuOf (hdrF 4) false with due := some 0 }])] }) [(.netSlotA 0 0 4 0, 0x300)]
theorem wit_LinkArrivalResults_edge : edgeFacet rtF 4 = some 0 ∧ edgeS.onWire rtF 1 .none 0 = some ({ wuOf (hdrF 4) false with due := some 0 }, hdrF 4) ∧
    outOf { pkt0 with inp := 1, hdr := hdrF 4 } = some 4 ∧ hchkOk (hdrF 4) = true ∧ hDu (hdrF 4) = 0 ∧
    slotNames (edgeS.slotEntry rtF false 4 1) 1 (hPid (hdrF 4)) = true := by decide +kernel
theorem wit_LinkArrivalResults_grant : ((wireS (wuOf (hdrVn 0) false)).router rt0).queue = [] ∧ ((wireS (wuOf (hdrVn 0) false)).router rt0).grants.get none 1 = none ∧
    (wireS (wuOf (hdrVn 0) false)).mayGo rt0 1 pkt0 = true ∧ up.rb (.netArbCfg 0 30) 8 = false ∧ hVn (hdrVn 0) ≠ 4 ∧
    (with_ (wireS (wuOf (hdrVn 0) false)) [(.netArbCfg 0 30, 0x100)]).rb (.netArbCfg 0 30) 8 = true := by decide +kernel
theorem wit_LinkArrivalResults_demo : arrives (wireS (wuOf (hdrOf 0 3) true)) 0 (wuOf (hdrOf 0 3) true) (hdrOf 0 3) = true ∧ hchkOk (hdrOf 0 3) = true ∧
    3 < ({ pkt0 with hdr := hdrOf 0 3, demo := true }).units ∧ ({ pkt0 with demo := true }).units ≤ 3 ∧ up.partState (hPid (hdrOf 0 3)) ≠ 5 := by decide +kernel
/-- The header of a packet of one data unit has passed, and its unit is on the link. -/
def open1 : Grant := { pkt := { pkt0 with hdr := hdrOf 0 1 }, sent := 1, since := 0 }
def dataU : WUnit := { vn := 0, head := false, data := 9, poison := true, demo := false, due := none }
def bodyS : State := up.setRouter rt0 { Router.empty with wire := [(3, [dataU])], grants := [(1, some open1)] }
theorem wit_LinkArrivalResults_data : arrives bodyS 0 dataU 9 = true ∧ dataU.vn ≠ 4 ∧ (bodyS.router rt0).queue = [] ∧ (bodyS.router rt0).grants = [(1, some open1)] ∧
    open1.pkt.inp = 3 ∧ open1.pkt.demo = dataU.demo ∧ hVn open1.pkt.hdr = dataU.vn ∧ open1.pkt.data.length < hDu open1.pkt.hdr ∧
    open1.sent = 1 + open1.pkt.data.length := by decide +kernel

/-- Cluster 0 sends a request for the line; its home answers one of cluster 2. -/
def reqM : Msg := { req0 with src := 0 }
def ansM : Msg := { Msg.zero with src := slice0, dst := 2, ln := ln0 }
def sending (kd : MsgKind) (m : Msg) : State := { up with msgs := [(kd, m)] }
theorem wit_InjectionResults : up.injReady (.rdo, reqM) false = false ∧ (sending .rdo reqM).injReady (.rdo, reqM) false = true ∧
    (sending .rdo reqM).routed (planeOf .rdo reqM) 0 reqM.dst.toNat = true ∧ (sending .rdo reqM).rb (.fctArbCfg 0) 8 = false ∧
    (with_ (sending .rdo reqM) [(.fctArbCfg 0, 0x100)]).rb (.fctArbCfg 0) 8 = true ∧
    ({ sending .dro ansM with net := Net.empty }).injReady (.dro, ansM) false = true ∧
    ({ sending .dro ansM with net := Net.empty }).routed (planeOf .dro ansM) ansM.src.toNat 2 = false := by decide +kernel
def planeA : Nat := planeOf .dro ansM
def rtA : RouterId := { plane := Fin.ofNat 12 planeA, node := Fin.ofNat 144 (injNode planeA ansM.src.toNat).1 }
def pktA : NetPkt :=
  { inp := Fin.ofNat 7 (4 + (injNode planeA ansM.src.toNat).2), hdr := (sending .dro ansM).header planeA .dro ansM false, data := msgUnits .dro ansM, demo := false, due := none }
def outA : OutPort := (outOf pktA).getD 0
def frozenA : State := with_ (sending .dro ansM) [(.netArbCfg rtA.plane rtA.node, 0x100)]
theorem wit_InjectionResults_agent : frozenA.injReady (.dro, ansM) false = true ∧ frozenA.routed planeA ansM.src.toNat 2 = true ∧ 36 ≤ ansM.src.toNat ∧
    rtA.plane.val = planeA ∧ rtA.node.val = (injNode planeA ansM.src.toNat).1 ∧ outOf pktA = some outA ∧ frozenA.rb (.netRtrCtl rtA.plane rtA.node) pktA.inp.val = true ∧
    frozenA.rb (.netRtrCtl rtA.plane rtA.node) outA.val = true ∧ hVn pktA.hdr < 4 ∧ (frozenA.router rtA).queue = [] ∧
    (frozenA.router rtA).grants.get none outA.val = none ∧ frozenA.rb (.netArbCfg rtA.plane rtA.node) 8 = true := by decide +kernel
/-- A packet of Facet 0 waits at its Centroid endpoint for router 0 of plane 0. -/
def pktF : NetPkt := { inp := 4, hdr := hdrVn 0, data := [], demo := false, due := none }
def chordS : State := with_ { up with chord := { Chord.empty with rx := [(0, [pktF])] } } [(.netArbCfg 0 0, 0x100)]
theorem wit_InjectionResults_chord : edgeFacet rtF 4 = some 0 ∧ (chordS.chord.rx.get [] ((12 * 0 + 0) * 2)).find? (fun y => hVn y.hdr == vnNum .req) = some pktF ∧
    chordS.fatal = false ∧ hchkOk pktF.hdr = true ∧ outOf pktF = some 1 ∧ chordS.rb (.netRtrCtl 0 0) 4 = true ∧ chordS.rb (.netRtrCtl 0 0) 1 = true ∧
    (chordS.router rtF).queue = [] ∧ chordS.rb (.netArbCfg 0 0) 8 = true ∧ (chordS.router rtF).local_.get 0 32 + pktF.units ≤ netBuf 0 ∧
    netBuf 0 < (({ Router.empty with local_ := [(32, netBuf 0)] } : Router).local_.get 0 32) + pktF.units := by decide +kernel
theorem wit_InjectionResults_held : (bodyS.router rt0).grants.get none 1 = some open1 ∧ (bodyS.router rt0).queue = [] ∧ open1.pkt.data.length < open1.sent ∧
    ({ open1 with pkt := { open1.pkt with data := [(9, false)] } } : Grant).sent ≤ ({ open1 with pkt := { open1.pkt with data := [(9, false)] } } : Grant).pkt.data.length := by
  decide +kernel
def granted (since : Nat) : State := with_ (up.setRouter rt0 { Router.empty with grants := [(1, some { open1 with since := since })] }) [(.locTickNum, 300)]
theorem wit_LinkServiceResults : ((granted 0).router rt0).grants.get none 1 = some open1 ∧ ((granted 0).router rt0).queue = [] ∧
    open1.since + 256 < (granted 0).tick ∧ (granted 0).rf (.netArbCfg 0 30) 31 16 = 256 ∧ (granted 0).partState (hPid open1.pkt.hdr) ≠ 5 ∧
    (up.router rt0).fails.get 0 1 + 1 < 16 ∧ 16 ≤ ({ Router.empty with fails := [(1, 15)] } : Router).fails.get 0 1 + 1 := by decide +kernel
def frozenS : State := with_ { up with net := { Net.empty with frozen := [(arbKey (.net rt0), some 0)] } } [(arbCfg (.net rt0), 0x100), (.locTickNum, 17)]
theorem wit_FabricControlResults : frozenS.net.frozen.get none (arbKey (.net rt0)) = some 0 ∧ frozenS.rb (arbCfg (.net rt0)) 8 = true ∧ 0 + 16 < frozenS.tick ∧
    ({ up with net := { Net.empty with slotHold := true } }).net.slotHold = true ∧ up.rf (.netInflight 0 30) 31 16 = 0 ∧
    (with_ up [(.netInflight 0 30, 0x20000)]).rf (.netInflight 0 30) 31 16 ≠ 0 := by decide +kernel
/-- A Facet's SEL register names route entry 0x2C of plane 2 in bank B, or slot entry 5. -/
def selS (w : Word) : State := with_ up [(.fctRteSel 1, w), (.fctTickStatus 1, 1)]
theorem wit_FabricControlResults_route : (selS 0x122C).injSel (.facet 1) = (.fctRteSel 1, 2, 145, 0, false) ∧ (selS 0x122C).rb (.fctRteSel 1) 13 = false ∧
    (selS 0x122C).injBank (.facet 1) 1 ≠ (selS 0x122C).rb (.fctRteSel 1) 12 ∧ (selS 0x122C).rb .locSwapReq 1 = false ∧
    routeOk 2 145 0x2C (xyEntry 2 145 0x2C) = true ∧ routeOk 2 145 0x2C (xyEntry 2 145 0x2C ^^^ 2) = false := by decide +kernel
theorem wit_FabricControlResults_slot : (selS 0x3205).rb (.fctRteSel 1) 13 = true ∧ (selS 0x3205).injBank (.facet 1) 0 ≠ (selS 0x3205).rb (.fctRteSel 1) 12 ∧
    (selS 0x3205).net.slotHold = false ∧ (selS 0x0205).injBank (.facet 1) 1 = (selS 0x0205).rb (.fctRteSel 1) 12 ∧ (selS 0x0205).net.slotStop.get none 2 = none := by
  decide +kernel
def linkS (hold bad : List Nat) (away : Nat) : State := (up.setRouter rt0 { Router.empty with hold := hold, bad := bad, away := [(8, away)] }).latchNow
/-- One unit is on the wire that no credit accounts for. -/
def extra : State := (up.setRouter rtE { Router.empty with wire := [(3, [wuOf (hdrVn 0) false])] }).latchNow
def sumOf (s : State) : Nat :=
  let q := s.latched
  netBuf 0 - (q.router rt0).away.get 0 8 + ((q.linkUnits rt0 1 0).1 + (q.linkUnits rt0 1 0).2.1 + (q.linkUnits rt0 1 0).2.2.1)
theorem wit_FabricAuditResults : up.auditing 1 = true ∧ up.auditing 6 = true ∧ ({ up with cycle := 384 }).auditing 1 = false ∧
    (8 * (1 : OutPort).val + vnNum .req) ∈ ((linkS [8] [8] 3).router rt0).hold ∧ (linkS [8] [8] 3).latched.linkUnits rt0 1 0 = (0, 0, 0, 0) ∧
    sumOf (linkS [] [] 0) = netBuf (vnNum .req) ∧ sumOf (linkS [] [] 3) < netBuf (vnNum .req) ∧ netBuf (vnNum .req) < sumOf extra ∧ Vn.req ≠ .gtd := by decide +kernel
def landS (hold : List Nat) (away : Nat) (q : List LandReq) : State :=
  ({ up with net := { Net.empty with landing := [(landKey 1 2 3, away)], landHold := hold, landQ := q } }).latchNow
def land0 : LandReq := { plane := 1, units := 1, landed := true, kind := .rdo, msg := { req0 with src := 2, dst := 3 } }
theorem wit_FabricAuditResults_landing : landKey 1 2 3 ∈ (landS [landKey 1 2 3] 2 []).net.landHold ∧ landKey 1 2 3 ∉ (landS [] 2 []).net.landHold ∧
    (landS [] 2 []).landUnits 1 2 3 = (0, 0) ∧ 4 - (landS [] 0 []).latch.landing.get 0 (landKey 1 2 3) + 0 + 0 = 4 ∧
    4 - (landS [] 2 []).latch.landing.get 0 (landKey 1 2 3) + 0 + 0 < 4 ∧
    4 < 4 - (landS [] 0 [land0]).latch.landing.get 0 (landKey 1 2 3) + ((landS [] 0 [land0]).landUnits 1 2 3).1 + 0 := by decide +kernel
theorem wit_FabricAuditResults_slots : (∀ x ∈ up.latchNow.latched.ownedSlots 0, up.latchNow.latched.slotPreceded (up.bank 0) x.1 x.2.2.1 x.2.2.2 = true) ∧
    up.latchNow.latched.slotCounts 0 = true ∧ slotted.latchNow.latched.slotCounts 0 = false := by decide +kernel

/-! ## The Chord -/

/-- Strand 0 of F0 in a state (7 is UP), with direction fc as given; strand 1 is UP too where `two`. The Facet runs. -/
def chord (n : Nat) (d : ChDir) (two : Bool) : State :=
  with_ { up with chord := { Chord.empty with strands := [(0, { Strand.empty with fc := d })] }, facets := [(0, { Facet.empty with inReset := false, runs := true })] }
    ([(.chdStrandStatus 0 0, BitVec.ofNat 64 n)] ++ if two then [(.chdStrandStatus 0 1, 7)] else [])
/-- The sender has one unit left to send again, which carries the sequence number, return, POISON bit and epoch given. -/
def again (data : BitVec 256) (seq ret : Nat) (poison : Bool) (epoch : Nat) : ChDir :=
  { ChDir.empty with unacked := [{ seq := seq, plane := 0, data := data, trailer := chTrailer data seq ret poison epoch }] }
def sends (d : ChDir) : State := chord 7 d false
def unit0 (s : State) : TUnit := (s.chSend 0 0 .fc).1
def after0 (s : State) : State := (s.chSend 0 0 .fc).2
theorem wit_ChordSenderResults : (sends (again 9 5 0 false 0)).planeList 0 0 = List.range 12 ∧ (again 9 5 0 false 0).unacked[0]?.map (·.plane) = some 0 ∧
    ({ again 9 5 0 false 0 with pos := 1 }).pos % 12 = 1 ∧ ChDir.empty.unacked[0]? = none ∧
    (({ sends ChDir.empty with chord := { (sends ChDir.empty).chord with cur := [(0, (0, [(9, true)]))] } }).chord.cur.get (0, []) (openKey 0 0 .fc)) = (0, (9, true) :: []) ∧
    ({ sends ChDir.empty with chord := { (sends ChDir.empty).chord with tx := [(0, [pkt0])] } }).mayBegin 0 0 .fc 0 = some pkt0 ∧
    (sends ChDir.empty).mayBegin 0 0 .fc 0 = none ∧ (sends ChDir.empty).credDue 0 0 .cf = none := by decide +kernel
theorem wit_ChordTransferResults : (sends ChDir.empty).stState 0 0 = 7 ∧ (chord 0 ChDir.empty false).stState 0 0 ≠ 7 ∧ ((sends ChDir.empty).strand 0 0).closing = none ∧
    tuCrcOk (tuFlip (unit0 (sends ChDir.empty)) 1) = false ∧ tuCrcOk (unit0 (sends (again 9 0 0 false 1))) = true ∧ tuEpoch (unit0 (sends (again 9 0 0 false 1))) = 1 ∧
    (after0 (sends (again 9 0 0 false 1))).rf (.chdStrandStatus 0 0) 15 8 % 4 = 0 ∧ tuRet (unit0 (sends ChDir.empty)) = 31 ∧
    tuSeq (unit0 (sends ChDir.empty)) = ChDir.empty.exp ∧ tuSeq (unit0 (sends { ChDir.empty with exp := 1 })) ≠ 1 := by decide +kernel
/-- How far behind the expected unit the unit is that arrives. -/
def behind (seq : Nat) : Nat := (ChDir.empty.exp + 256 - tuSeq (unit0 (sends (again 9 seq 0 false 0)))) % 256
theorem wit_ChordTransferResults_seq : behind 255 = 1 ∧ behind 64 = 192 ∧ behind 63 = 193 ∧ behind 1 = 255 := by decide +kernel
def linkRet (ret : Nat) : Bool :=
  let u := unit0 (sends (again 6 0 ret false 0))
  decide (tuCrcOk u = true ∧ tuEpoch u = 0 ∧ tuSeq u = 0 ∧ tuRet u = ret ∧ hVn u.data = 6 ∧ (after0 (sends (again 6 0 ret false 0))).openPkt 0 0 .fc = none)
theorem wit_ChordTransferResults_ret : linkRet 0 = true ∧ linkRet 1 = true ∧ linkRet 7 = true ∧ linkRet 8 = true ∧ linkRet 0x17 = true ∧ linkRet 0x18 = true ∧
    linkRet 0x19 = true ∧ linkRet 0x1A = true := by decide +kernel
theorem wit_ChordTransferResults_waits : ({ again (hdrVn 0) 0 0 false 0 with await := true }).await = true ∧ (0 : Nat) / 2 = (0 : StrandId).val ∧
    tuSeq (unit0 (sends { again (hdrVn 0) 0 0 false 0 with await := true })) = 0 := by decide +kernel
def unitOk (s : State) : Bool := decide (tuCrcOk (unit0 s) = true ∧ tuEpoch (unit0 s) = 0 ∧ tuSeq (unit0 s) = 0 ∧ tuRet (unit0 s) = 0)
theorem wit_ChordTransferResults_header : unitOk (sends (again (hdrVn 0) 0 0 false 0)) = true ∧ hVn (hdrVn 0) < 4 ∧ hDu (hdrVn 0) = 0 ∧
    unitOk (sends (again (hdrOf 3 1) 0 0 false 0)) = true ∧ hVn (hdrOf 3 1) = 3 ∧ hDu (hdrOf 3 1) ≠ 0 := by decide +kernel
/-- A unit from the Centroid to the Facet. -/
def cfS : State := (sends ChDir.empty).setStrand 0 0 { Strand.empty with cf := again (hdrVn 0) 0 0 false 0 }
theorem wit_ChordTransferResults_cf : (cfS.chSend 0 0 .cf).1.data = hdrVn 0 ∧ tuSeq (cfS.chSend 0 0 .cf).1 = 0 ∧ tuCrcOk (cfS.chSend 0 0 .cf).1 = true ∧
    ((cfS.chSend 0 0 .cf).2.openPkt 0 0 .cf) = none := by decide +kernel
/-- The header of a packet of `du` data units has been taken on plane 0. -/
def opened (du : Nat) : State :=
  with_ ((chord 7 (again 9 0 0 true 0) true).setOpen 0 0 .fc (some { hdr := hdrOf 3 du, data := [], last := 0 })) [(.locTickNum, 17)]
theorem wit_ChordTransferResults_data : unitOk (opened 2) = true ∧ (after0 (opened 2)).openPkt 0 0 .fc = some { hdr := hdrOf 3 2, data := [], last := 0 } ∧
    ([] : List (BitVec 256 × Bool)).length + 1 < hDu (hdrOf 3 2) ∧ ¬ ([] : List (BitVec 256 × Bool)).length + 1 < hDu (hdrOf 3 1) ∧
    unitOk (opened 1) = true ∧ (unit0 (opened 1)).trailer.getLsbD 29 = true := by decide +kernel

def nakS (d : ChDir) (n : Nat) : State := { sends d with cycle := n }
def sent0 : ChUnit := { seq := 5, plane := 0, data := 9, trailer := 0 }
theorem wit_ChordLinkResults : ({ ChDir.empty with nakIn := 1, fails := 14 }).fails + 1 < 16 ∧ 16 ≤ ({ ChDir.empty with nakIn := 1, fails := 15 }).fails + 1 ∧
    0 < ({ ChDir.empty with nakIn := 1 }).nakIn ∧ ChDir.empty.nakIn = 0 ∧ (nakS { ChDir.empty with skip := true } 512).now = 512 ∧
    (nakS { ChDir.empty with skip := true } 511).now < 0 + 512 ∧ ChDir.empty.skip = false := by decide +kernel
theorem wit_ChordLinkResults_close : (chord 0 { ChDir.empty with unacked := [sent0] } true).stState 0 0 ≠ 7 ∧
    (chord 0 { ChDir.empty with unacked := [sent0] } true).upStrands 0 ≠ [] ∧ sent0.seq ≠ 4 % 256 ∧ sent0.seq = 5 % 256 := by decide +kernel
/-- The credits of an audit: what stands now, and what the cut latched. -/
def credS (c q : ChCred) : State :=
  let s := (sends ChDir.empty).setCred 0 0 0 .fc c
  { s with chord := { s.chord with cut := s.chord.cut.set none (credKey 0 0 0 .fc) (some q) } }
theorem wit_ChordLinkResults_audit : (0 : FacetId).val ∉ (credS ChCred.empty ChCred.empty).chord.lost ∧ (credS ChCred.empty ChCred.empty).auditing 3 = true ∧
    ({ credS ChCred.empty ChCred.empty with cycle := 384 }).auditing 3 = false ∧ (sends ChDir.empty).chord.cut.get none (credKey 0 0 0 .fc) = none ∧
    (credS ChCred.empty ChCred.empty).chord.cut.get none (credKey 0 0 0 .fc) = some ChCred.empty ∧
    ((credS { ChCred.empty with hold := true } ChCred.empty).cred 0 0 0 .fc).hold = true ∧ ChCred.empty.occ + ChCred.empty.pend = 0 ∧
    ((credS ChCred.empty ChCred.empty).cred 0 0 0 .fc).hold = false := by decide +kernel
theorem wit_ChordLinkResults_sum : cutDiff 0 ChCred.empty = 0 ∧ cutDiff 0 { ChCred.empty with away := 1 } = 255 ∧ cutDiff 5 { ChCred.empty with occ := 1 } = 1 ∧
    cutDiff 3 { ChCred.empty with demo := 4 } = 0 ∧ ((credS { ChCred.empty with bad := true } { ChCred.empty with away := 1 }).cred 0 0 0 .fc).bad = true := by decide +kernel

theorem wit_StrandTrainingResults : ((List.range 9).all fun n => (chord n ChDir.empty false).stState 0 0 == n) = true ∧ ((chord 0 ChDir.empty false).facet 0).inReset = false ∧
    (({ chord 0 ChDir.empty false with facets := [(0, { Facet.empty with inReset := true })] }).facet 0).inReset = true := by decide +kernel
/-- Strand 0 in state 3 with the lanes that its ends have graded good. -/
def graded (n : Nat) (v : BitVec 25) : State :=
  with_ { up with chord := { Chord.empty with strands := [(0, { Strand.empty with goodF := v, goodC := v })] } } [(.chdStrandStatus 0 0, BitVec.ofNat 64 n), (.locTickNum, 101)]
theorem wit_StrandTrainingResults_width : laneWidth (laneCount (((graded 3 0xFFF).rg (laneReg 0 0)).extractLsb' 0 25 &&& ((graded 3 0xFFF).strand 0 0).goodF)) = 1 ∧
    laneWidth (laneCount (((graded 3 0x7FF).rg (laneReg 0 0)).extractLsb' 0 25 &&& ((graded 3 0x7FF).strand 0 0).goodF)) = 0 ∧
    ((graded 1 0).strand 0 0).since + trainLimit 1 < (graded 1 0).tick := by decide +kernel
theorem wit_StrandLossResults : ((sends ChDir.empty).upStrands 0).erase 0 = [] ∧ (0 : FacetId).val ∉ (sends ChDir.empty).chord.lost ∧
    ((chord 7 ChDir.empty true).upStrands 0).erase 0 = [1] ∧ (with_ (sends ChDir.empty) [(.cluOwner 0, 0)]).facetIdle 0 = true ∧
    (with_ (sends ChDir.empty) [(.cluOwner 0, 0), (.cluOwner 1, 0), (.cluOwner 2, 0)]).facetIdle 0 = true ∧
    (sends ChDir.empty).strandDrained 0 0 = true ∧ (sends (again 9 5 0 false 0)).strandDrained 0 0 = false := by decide +kernel
theorem wit_StrandLossResults_stall : ((opened 1).openPkt 0 0 .fc).map (·.last) = some 0 ∧ 0 + 16 < (opened 1).tick ∧ 0 ∈ (opened 1).planeList 0 0 ∧
    ((opened 1).strand 0 0).mark + 2 < (opened 1).tick ∧ ((opened 1).strand 0 0).echo + 2 < (opened 1).tick ∧ (opened 1).upStrands 0 ≠ [] ∧
    (∀ i ∈ (opened 1).upStrands 0, ((opened 1).strand 0 (Fin.ofNat 6 i)).echo + 2 < (opened 1).tick) := by decide +kernel
theorem wit_StrandLossResults_margin : ({ Strand.empty with low := [(3, 4)] } : Strand).marginLow .fc = true ∧ ({ Strand.empty with low := [(3, 3)] } : Strand).marginLow .fc = false ∧
    ({ Strand.empty with low := [(25, 4)] } : Strand).marginLow .cf = true ∧ ({ Strand.empty with low := [(24, 4)] } : Strand).marginLow .cf = false := by decide +kernel
def marker0 : Marker := { tick := 5, swap := 4, adj := -1 }
/-- A marker and an ECHO are on their way on strand 0; the Facet is as given. -/
def marked (y : Facet) (d : ChDir) : State :=
  { (sends ChDir.empty).setStrand 0 0 { Strand.empty with fc := d, cf := d, markTx := some marker0, echoTx := true } with facets := [(0, y)] }
def ran : Facet := { Facet.empty with inReset := false, runs := true }
theorem wit_StrandLossResults_mark : (marked ran ChDir.empty).stState 0 0 = 7 ∧ ((marked ran ChDir.empty).strand 0 0).markTx = some marker0 ∧
    ((marked ran ChDir.empty).strand 0 0).cf.caught = true ∧ ((marked ran ChDir.empty).strand 0 0).fc.caught = true ∧ ((marked ran ChDir.empty).strand 0 0).echoTx = true ∧
    ((marked ran ChDir.empty).facet 0).inReset = false ∧ ((marked ran ChDir.empty).facet 0).runs = true ∧
    ((marked ran ChDir.empty).facet 0).seen ≠ some marker0.tick ∧ ((marked ran ChDir.empty).facet 0).late = false ∧
    ({ ChDir.empty with next := 1 }).caught = false ∧ (marked ran ChDir.empty).inResync 0 = false ∧ ({ ran with good := 1 } : Facet).good ≥ 1 ∧
    ({ ran with late := true, tick := 5 } : Facet).tick = marker0.tick := by decide +kernel

/-! ## HBM3 -/

/-- The PSC's request at a controller comes by the service port, which is enabled at reset; that of a partition by the ports it owns. -/
def memM (dst : Nat) (priv : Bool) : Msg := { Msg.zero with src := 0x2F, dst := BitVec.ofNat 8 dst, priv := priv }
def memS (kd : MsgKind) (m : Msg) (x : PcSt) : State := { up.setPc (Fin.ofNat 256 (up.place (hbmAddr 0)).1) x with msgs := [(kd, m)] }
def pcM : PcId := pcOf (hbmAddr 0).m (up.place (hbmAddr 0)).1
def req1 : HbmReq := { kind := .rdo, ln := 0, port := 64, at_ := 0, level := 0, full := false, msg := memM 0x80 true }
def full1 : HbmReq := { req1 with kind := .wri, full := true }
def opens (kd : MsgKind) (m : Msg) (x : PcSt) : Bool :=
  let s := memS kd m x
  s.rb (.hbmPort (pcStack pcM) (pcCtl pcM) (Fin.ofNat 65 (s.hbmPortOf pcM kd m))) 12
theorem wit_MemoryArrivalResults_comes : (memS .rdo (memM 0x80 true) PcSt.empty).comes .rdo (memM 0x80 true) ∧ (memS .wrh (memM 0x80 true) PcSt.empty).comes .wrh (memM 0x80 true) ∧
    (memS .wri (memM 0x80 true) PcSt.empty).comes .wri (memM 0x80 true) ∧ (memS .atf (memM 0x80 true) PcSt.empty).comes .atf (memM 0x80 true) ∧
    (memS .rdo (memM 0x80 false) PcSt.empty).comes .rdo (memM 0x80 false) := by unfold State.comes; decide +kernel
theorem wit_MemoryArrivalResults : opens .rdo (memM 0x80 true) PcSt.empty = true ∧ opens .rdo (memM 0x80 false) PcSt.empty = false ∧
    (memS .rdo (memM 0x80 true) { PcSt.empty with wq := [full1] }).pcSt pcM = { PcSt.empty with wq := [full1] } ∧ full1.ln = (memM 0x80 true).ln ∧ full1.full = true ∧
    64 ≤ (List.replicate 64 req1).length ∧ (List.replicate 63 req1).length < 64 ∧ (∃ r ∈ ({ PcSt.empty with rq := [req1] } : PcSt).rq, r.ln = 0) ∧
    (memS .wri (memM 0x80 true) PcSt.empty).cxlLost 0 = false := by decide +kernel
/-- Port 1 of the CXL ports serves a request of the home. -/
def cxlS (v : Word) (kd : MsgKind) : State := with_ (memS kd (memM 0x25 false) PcSt.empty) [(.pciArbCfg 1, v)]
theorem wit_MemoryArrivalResults_cxl : (cxlS 0 .rdo).comes .rdo (memM 0x25 false) ∧ (cxlS 0 .atf).comes .atf (memM 0x25 false) ∧ (cxlS 0 .wri).comes .wri (memM 0x25 false) ∧
    (cxlS 0 .rdo).rb (.pciArbCfg (Fin.ofNat 8 (0x25 - 0x24))) 8 = false ∧ (cxlS 0x100 .rdo).rb (.pciArbCfg (Fin.ofNat 8 (0x25 - 0x24))) 8 = true ∧
    (({ cxlS 0 .atf with lines := [(0, { (cxlS 0 .atf).line 0 with mpois := true })] }).memCopy 0).2 = true ∧ (cxlS 0 .wri).cxlLost 0 = false := by
  unfold State.comes; decide +kernel
def pcS (x : PcSt) : State := (with_ up [(.locTickNum, 1)]).setPc 0 x
theorem wit_HbmScheduleResults : ({ PcSt.empty with rq := [req1] }).rq[0]? = some req1 ∧ req1.level < (pcS { PcSt.empty with rq := [req1] }).urgency 0 req1 ∧
    (pcS { PcSt.empty with rq := [req1] }).urgency 0 req1 ≤ ({ req1 with level := 3 } : HbmReq).level ∧
    (∀ e : Nat, e < 16 → (pcS PcSt.empty).rf (pcRemap 0 e) 22 21 ≠ 1) ∧ (pcS PcSt.empty).chHeld 0 = false ∧
    (pcS { PcSt.empty with rq := [req1] }).hbmMode 0 { PcSt.empty with rq := [req1] } = false ∧
    (pcS { PcSt.empty with wq := [{ req1 with level := 2 }] }).hbmMode 0 { PcSt.empty with wq := [{ req1 with level := 2 }] } = true ∧
    (with_ (pcS PcSt.empty) [(.locTickNum, 128000)]).chHeld 0 = true ∧
    ((pcS PcSt.empty).setStack 0 { StackSt.empty with train := [(0, some 0)] }).chHeld 0 = true := by decide +kernel
def rdS (kd : MsgKind) : State := pcS { PcSt.empty with issued := [{ req1 with kind := kd, msg := { memM 0x80 true with arg := 1 } }] }
theorem wit_HbmReadResults : (0 : Nat) < 186 * 2 ^ 24 ∧ ((pcS { PcSt.empty with issued := [req1] }).pcSt 0).issued = [req1] ∧ req1.ln = 0 ∧ req1.kind = .rdo ∧
    (pcS { PcSt.empty with issued := [req1] }).fatal = false ∧ ((rdS .atf).setPc 0 PcSt.empty).fatal = false ∧
    ((((rdS .atf).setPc 0 PcSt.empty).atfRun { memM 0x80 true with arg := 0x30 }).2.isSome) = true ∧
    ((((rdS .atf).setPc 0 PcSt.empty).atfRun { memM 0x80 true with arg := 0x30 }).1.fatal) = false := by decide +kernel
theorem wit_HbmReadResults_word : decodeWord (encodeLine 0xABCD true 0) 0 = .good 0xABCD true false := by decide +kernel
theorem wit_HbmReadResults_corrected : decodeWord (encodeLine 0xABCD false 0 ^^^ 0x3300) 0 = .good 0xABCD false true := by decide +kernel
theorem wit_HbmReadResults_uncorrectable : decodeWord (encodeLine 0xABCD false 0 ^^^ 0x330011) 0 = .ue 0x33ABDC := by decide +kernel
theorem wit_HbmUpkeepResults : (with_ up [(.locTickNum, 129000)]).rb (.hbmRasCfg 0 0) 0 = true ∧
    0 + max 1 ((with_ up [(.locTickNum, 129000)]).rf (.hbmRasCfg 0 0) 31 8) ≤ (with_ up [(.locTickNum, 129000)]).tick ∧
    up.tick < 0 + max 1 (up.rf (.hbmRasCfg 0 0) 31 8) ∧ up.unitAt 0 0 0 = some (0, 0) ∧ ((unitLines 0 0 0).getD 0 0) = 0 ∧
    (with_ up [(.hbmRasCfg 0 0, 0)]).rb (.hbmRasCfg 0 0) 0 = false := by decide +kernel
theorem wit_HbmUpkeepResults_phy : (with_ up [(.locTickNum, 129000)]).tick % 128000 = 1000 * (1 : ChId).val ∧ up.cycle < 1600 ∧
    (with_ up [(.locTickNum, 129000)]).recentres 1 = true ∧ (with_ up [(.locTickNum, 129001)]).recentres 1 = false ∧
    (1 : ChId).val ∈ ((up.setStack 0 { StackSt.empty with low := [1] }).stack 0).low ∧ (up.stack 0).train.get none 1 = none ∧
    ((up.setStack 0 { StackSt.empty with train := [(1, some 4)] }).stack 0).train.get none 1 ≠ none ∧ (1 : ChId).val ∉ (up.stack 0).low := by decide +kernel
def tempS (t : Nat) : State := (with_ up [(.locTickNum, BitVec.ofNat 64 t)]).setStack 0 { StackSt.empty with temp := some 40, readAt := some 5 }
theorem wit_HbmUpkeepResults_temp : ((tempS 1005).stack 0).temp = some 40 ∧ 4 ≤ ((44 : Int) - 40).natAbs ∧ ((43 : Int) - 40).natAbs < 4 ∧ (tempS 1004).tick < 5 + 1000 ∧
    (∀ u, ((tempS 1005).stack (0 : StackId).val).readAt = some u → u + 1000 ≤ (tempS 1005).tick) ∧ (up.stack 0).readAt = none ∧ (up.stack 0).temp = none :=
  ⟨by decide +kernel, by decide, by decide, by decide +kernel, fun u h => by
    have e : ((tempS 1005).stack (0 : StackId).val).readAt = some 5 := by decide +kernel
    rw [e] at h; cases h; decide +kernel, by decide +kernel, by decide +kernel⟩

def retS (l : List (Reg × Word)) : State := (with_ up l).setStack 0 { StackSt.empty with retire := [4] }
theorem wit_HbmRetirementResults : ((retS []).stack 0).retire = 4 :: [] ∧ 4 < 31 ∧ ((retS []).stack 0).staged = none ∧ (retS []).rb (.hbmMig 0) 27 = false ∧
    ((retS []).stack 0).filling = 0 ∧ (retS []).gmapFree = true ∧ (retS []).spareFree 0 = true ∧ (retS []).hasRescue 0 = false ∧ (up.stack 0).retire = [] := by decide +kernel
theorem wit_HbmRetirementResults_rescue : (retS [(lpcReg false 0 9, 0x49)]).hasRescue 0 = true ∧ (retS [(lpcReg false 0 31, 0x3F)]).spareFree 0 = false ∧
    (retS [(lpcReg false 0 31, 0x3F)]).hasRescue 0 = false ∧ (retS []).loading = false := by decide +kernel
/-- The migration of pseudo-channel 4 of stack 0 to unit `q`; or to a mode. -/
def migS (q mode : Nat) : State := (with_ up [(.hbmMig 0, BitVec.ofNat 64 (q + 4 * 2 ^ 22 + 2 ^ 27)), (lpcReg false 0 4, BitVec.ofNat 64 (4 + mode * 32)), (.gmapEntryA 1, 1)])
theorem wit_HbmRetirementResults_unit : (migS 0 1).rb (.hbmMig 0) 27 = true ∧ (migS 0 1).migPtr 0 < 3145728 ∧
    (∀ ln ∈ unitLines 0 4 0, (migS 0 1).lineQuiet ln = true ∧ ((migS 0 1).line ln).mb = none) ∧
    128 + 16 ∈ unitLines 0 4 0 ∧ (∃ y ∈ ((migS 0 1).setCopy 144 0 (some cpM)).lines, y.1 = 144) ∧ ((migS 0 1).setCopy 144 0 (some cpM)).lineQuiet 144 = true ∧
    (migS 0 1).gmapDa false 0 = some 1 := by decide +kernel
theorem wit_HbmRetirementResults_complete : 3145728 ≤ (migS 3145728 1).migPtr 0 ∧ ((migS 3145728 1).stack 0).staged = none ∧ (migS 3145728 1).gmapFree = true ∧
    (migS 3145728 1).lpcMode 0 4 = 1 ∧ (migS 3145728 2).lpcMode 0 4 = 2 ∧ (migS 3145728 1).rf (.hbmMig 0) 26 22 = 4 := by decide +kernel
theorem wit_HbmRetirementResults_remap : (with_ up [(pcRemap 0 2, 0x200001)]).rb (pcRemap 0 (2 : Fin 16).val) 0 = true ∧
    (with_ up [(pcRemap 0 2, 0x200001)]).rf (pcRemap 0 (2 : Fin 16).val) 22 21 = 1 := by decide +kernel

/-! ## The package tick -/

theorem wit_ReferenceAndMarkerResults : up.rb .locTickStatus 1 = false ∧ (with_ up [(.locTickStatus, 2)]).rb .locTickStatus 1 = true ∧
    16 ≤ ({ up with refBad := 16 }).refBad ∧ up.loading = false ∧ (with_ { up with facets := [(0, { Facet.empty with loaded := true })] } [(.fctTickStatus 0, 2)]).loading = true ∧
    up.cycle < 1792 ∧ up.psc.layWait = 0 := by decide +kernel
def captured : State := { up with psc := { up.psc with captured := some (4, some (-5, none)), slew := 0 }, cycle := 1792 }
theorem wit_ReferenceAndMarkerResults_marker : captured.psc.captured = some (4, some (-5, none)) ∧ up.psc.captured = none ∧ 1792 ≤ captured.cycle := by decide +kernel
theorem wit_TickBoundaryEffect : captured.psc.resets = [] ∧ captured.psc.resizes = [] ∧ captured.psc.captured = some (4, some (-5, none)) := by decide +kernel
def facetS (x : Facet) (st : Word) (tick : Word) : State := with_ { up with facets := [(3, x)], cycle := 1991 } [(.fctTickStatus 3, st), (.locTickNum, tick)]
def inStep : Facet := { Facet.empty with inReset := false, runs := true, held := some marker0 }
theorem wit_FacetTimingResults : ((facetS inStep 1 9).facet 3).inReset = false ∧ ((facetS inStep 1 9).facet 3).runs = true ∧ ((facetS inStep 1 9).facet 3).held = some marker0 ∧
    (facetS inStep 1 9).boundaryEarly 3 = false ∧ (facetS inStep 1 0).boundaryEarly 3 = true ∧ ({ facetS inStep 1 0 with cycle := 1992 }).boundaryEarly 3 = false ∧
    ((facetS { inStep with held := none } 1 0).facet 3).held = none ∧ Facet.empty.inReset = true ∧ (facetS Facet.empty 2 0).inResync 3 = true ∧
    (facetS inStep 1 0).inResync 3 = false := by decide +kernel
theorem wit_FacetTimingResults_limits : ((facetS { inStep with startAt := some 1 } 2 22).facet 3).startAt = some 1 ∧ 1 + 20 < (facetS inStep 2 22).tick ∧ (facetS inStep 2 21).tick ≤ 1 + 20 ∧ inStep.trainAt = none ∧
    ((facetS { inStep with trainAt := some 1 } 2 66).facet 3).trainAt = some 1 ∧ 1 + 64 < (facetS inStep 2 66).tick ∧ (facetS inStep 2 65).tick ≤ 1 + 64 ∧ (facetS inStep 2 65).rb (.fctTickStatus 3) 0 = false ∧
    (facetS inStep 3 65).rb (.fctTickStatus 3) 0 = true ∧ (facetS inStep 3 65).inResync 3 = true := by decide +kernel

/-! ## The package register space -/

theorem wit_RegisterAddressRoundTrip : Reg.ofAddr (Reg.addr .pscBootStatus) = some .pscBootStatus ∧
    regAt (Reg.addr .pscBootStatus) 4 = some .pscBootStatus := by decide
theorem wit_RegisterAccessResults : up.prsOpen = true ∧ up.reach 0 (Reg.addr (.coreDbgCtl 0)) = .own ∧ up.reach 0 (Reg.addr (.coreDbgCtl 6)) ≠ .own ∧
    up.reach 0 0x8 = .own ∧ regAt 0x8 3 = none ∧ up.reach 0 0x0B000000 = .foreign ∧ up.reach 0 (Reg.addr .pscBootStatus) = .readOnly ∧
    regAt (Reg.addr .pscBootStatus) 4 ≠ none := by decide +kernel
def lc (n : Nat) : State := with_ up [(.pscBootStatus, BitVec.ofNat 64 (8 + 32 * n))]
theorem wit_RegisterAccessResults_closed : (lc 4).prsOpen = false ∧ (lc 2).prsOpen = false := by decide +kernel
theorem wit_GuardedWriteResults : up.bankLocked 2 false = true ∧ up.bankLocked 2 true = false ∧ up.gmapBad true 1 0x80000001 = false ∧
    (with_ up [(.gmapEntryB 0, 0x80000001)]).gmapBad true 1 0x80000001 = true := by decide +kernel
theorem wit_GuardedWriteResults_region : (with_ up [(.drtRegionLo 0 3, 3)]).rb (.drtRegionLo 0 3) 1 = true ∧ drtFits 0xFFF000000001 0x0000000100000000 = true ∧
    drtFits 0xFFE000000001 0x0000000100000000 = false ∧ drtFits 0xFFFFFFFFF001 0x0000000100000000 = true ∧ drtFits 0xFFFFFFFFF001 0x0000000200000000 = false := by
  decide +kernel

/-! ## Partitions -/

/-- A descriptor of the owner ring, with its ARG words and inline data. -/
def ownerJob (op : Nat) (args : List Word) (data : List Byte) : Job :=
  { id := 5, ring := .owner, words := [BitVec.ofNat 64 (op + 0x77 * 2 ^ 16), 0, BitVec.ofNat 64 data.length] ++ args, idx := 0, data := data, armed := 0, phase := 0, aux := [] }
def withJob (s : State) (j : Job) : State := { s with psc := { s.psc with jobs := [j], nextId := 6 } }
/-- A record that describes P0 and leaves it without anything; one with a bad version. -/
def layRec0 (v : Byte) : List Byte := [v, 0, 1, 0] ++ List.replicate 60 0
def lay0 : PartLayout := { PartLayout.empty with clusters := 1, runs := [(0, 1, 1)], ways := 1 }
def laid (rst : List Rst) (rz : List Resize) : State := { up with psc := { up.psc with layouts := [(0, lay0)], resets := rst, resizes := rz } }
def rst0 : Rst := { kind := 1, id := 0, hold := false, stage := 1, since := 0 }
def parsed0 : LayRec := { pids := [0], lays := [], bifur := [], cxl := [], ents := [] }
theorem restZero_of (j : Job) (n : Nat) (h : ((List.range 5).all fun i => decide (i < n) || j.arg i == 0) = true) : j.restZero n := by
  intro i h1 h2
  have := List.all_eq_true.mp h i (List.mem_range.mpr h2)
  simpa [Nat.not_lt.mpr h1] using this
/-- The owner ring's next descriptor asks for an opcode, and its words from the `n`-th on are zero. -/
def ownerHyp (s : State) (j : Job) (op n : Nat) : Bool :=
  !s.fatal && ((withJob s j).ringJobs .owner).find? (fun x => x.phase == 0) == some j && j.opcode == op && !j.fence && j.reserved == none && !j.lenBad &&
  (List.range 5).all fun i => decide (i < n) || j.arg i == 0
theorem ownerHyp_turn (s : State) (j : Job) (op n : Nat) (h : ownerHyp s j op n = true) : OwnerTurn (withJob s j) j op ∧ j.restZero n := by
  simp only [ownerHyp, Bool.and_eq_true] at h
  obtain ⟨⟨⟨⟨⟨⟨a, b⟩, c⟩, d⟩, e⟩, f⟩, g⟩ := h
  exact ⟨⟨show s.fatal = false by simpa using a, by simpa using b, by simpa using c, by simpa using d, by simpa using e, by simpa using f⟩, restZero_of j n g⟩
theorem wit_ResizeAcceptance : ownerHyp up (ownerJob 0x06 [0] (layRec0 1)) 0x06 1 = true ∧ layParse (layRec0 2) = .inl 0 := by decide +kernel
theorem wit_ResizeAcceptance_parse : (match layParse (layRec0 1) with | .inr r => decide (r.pids = [0] ∧ r.ents = []) | _ => false) = true := by decide +kernel
theorem wit_ResizeAcceptance_accepted : (laid [rst0] []).resizeRefuse parsed0 [] = none ∧ (laid [rst0] []).getResize 5 = none ∧
    ((laid [rst0] []).changed parsed0).any (fun p => (laid [rst0] []).resetting p) = true ∧
    (with_ (laid [] []) [(.pwrCtl (clusterDom 0), 0x10)]).resizeRefuse parsed0 [] = some (scClaimed, 0) := by decide +kernel
def wipeJob : Job := ownerJob 0x07 [0, 0x100000001] []
def rz (phase : Nat) (grans : List (Nat × Nat × Nat)) : Resize :=
  { id := 5, wipe := false, pids := [(0, 2)], layouts := [(0, PartLayout.empty)], bifur := [], cxl := [], persist := true, clusters := [0], grans := grans, ports := [], phase := phase }
theorem wit_ResizeAcceptance_wipe : OwnerTurn (withJob (laid [rst0] []) wipeJob) wipeJob 0x07 ∧ (laid [rst0] []).wipeBad wipeJob = none ∧
    (laid [rst0] []).resizing 0 = false ∧ (laid [rst0] []).resetting 0 = true ∧ (laid [] [rz 0 []]).resizing 0 = true := by unfold OwnerTurn; decide +kernel
def lateJob : State := with_ (withJob (laid [] [rz 0 []]) { ownerJob 0x06 [0] [] with phase := 1 }) [(.locTickNum, 1000001)]
theorem wit_ResizeSequenceResults : lateJob.getResize 5 = some (rz 0 []) ∧ (ownerJob 0x06 [0] []).armed + (ownerJob 0x06 [0] []).wait 1000000 < lateJob.tick ∧
    lateJob.psc.jobs.find? (fun x => x.id == 5) = some { ownerJob 0x06 [0] [] with phase := 1 } := by decide +kernel
theorem wit_ResizeSequenceResults_walk : (laid [] [rz 3 [(0, 0, 1)]]).getResize 5 = some (rz 3 [(0, 0, 1)]) ∧ (laid [] [rz 4 [(0, 0, 1)]]).getResize 5 = some (rz 4 [(0, 0, 1)]) ∧
    (laid [] [rz 4 [(0, 0, 1)]]).noneDeferred ∧ ((rz 5 [(0, 0, 1)]).grans.any (fun g => g.2.2 == (2 ^ 30 + 5) / 2 ^ 30)) = true := by unfold State.noneDeferred; decide +kernel
theorem wit_ResizeSequenceResults_wipe : (with_ (laid [] [rz 5 [(0, 0, 1)]]) [(.locSwapReq, 4)]).gmapFree = false ∧
    (with_ (laid [] [rz 5 [(0, 0, 1)]]) [(.locSwapReq, 4)]).getResize 5 = some (rz 5 [(0, 0, 1)]) := by decide +kernel
/-- A partition that is being built, with its boot image. -/
def building : State := with_ { up with psc := { up.psc with layouts := [(0, { lay0 with boot := some (2, 0x1000) })] } } [(.pscPartStatus 0, 1)]
theorem wit_ResizeSequenceResults_boot : building.partState 0 = 1 ∧ building.resizing 0 = false ∧ building.resetting 0 = false ∧ 0 ∉ building.psc.onHold ∧
    building.existsPart 0 = true ∧ (building.layout 0).boot = some (2, 0x1000) := by decide +kernel

/-! ## Input and output -/

def ctx0 : IotEnt := { port := 0, kind := 0, inner := false, rid := 0, pasid := 0, s2id := none, ipa := 0, w0 := 1, w1 := 0, xl := none }
/-- Port 0 is up and belongs to P0; the IOT holds a context without stages for RID 0. -/
def ioUp (x : PortSt) : State := { with_ up [(.pciPortStatus 0 0, 2), (.pciPortOwnerA 0 0, 0x10), (iotRoot 0 false, 1), (.irdRoute 0 100, 0x200)] with
  iots := [(0, { Iot.empty with cache := [ctx0] })], ports := [(0, x)] }
def upRead : UpReq := { upReq0 with addr := 0x80 }
def upWrite : UpReq := { upReq0 with addr := 0x80, kind := .write, data := [1, 2, 3, 4, 5, 6, 7, 8] }
/-- The state in which the root complex resolves the request. -/
def served (s : State) (q : UpReq) : State := s.portServes 0 0 (.inl q)
def resolved (s : State) (q : UpReq) (da : Nat) : Bool := match iotResolve 0 0 q (served s q) with
  | .ok (.inr (inner, _, l)) t => !(inMmio l.ppa) && t.pscDa 0 inner l.ppa == .inl da && !t.fatal
  | _ => false
def faulted (s : State) (q : UpReq) : Bool := match iotResolve 0 0 q (served s q) with | .ok (.inl _) t => decide ((t.iot 0).faults.length < 16) | _ => false
def waits (s : State) (q : UpReq) : Bool := match iotResolve 0 0 q (served s q) with | .wait t => decide ((t.portSt 0).held = [.inl q]) | _ => false
theorem wit_UpstreamRequestResults : (ioUp PortSt.idle).portTakes 0 = true ∧ (ioUp PortSt.idle).portOwner 0 = some 0 ∧ resolved (ioUp PortSt.idle) upRead (2 ^ 30 + 0x80) = true ∧
    resolved (ioUp PortSt.idle) upWrite (2 ^ 30 + 0x80) = true ∧ upUnsupported upWrite = false ∧ upUnsupported { upRead with kind := .atomic 3 0 0, size := 3 } = true ∧
    (2 ^ 30 + 0x80) % 64 + 8 ≤ 64 ∧ inMsiPage 0x80 = false ∧ (ioUp PortSt.idle).rcFlying 0 true < 512 ∧ (ioUp PortSt.idle).rcFlying 0 false < 512 ∧
    ((List.range 4).all fun i => ((ioUp PortSt.idle).portSt (Fin.ofNat 32 (4 * 0 + i))).held.isEmpty) = true ∧ (ioUp PortSt.idle).rb (.pciArbCfg 0) 8 = false ∧
    (with_ (ioUp PortSt.idle) [(.pciArbCfg 0, 0x100)]).rb (.pciArbCfg 0) 8 = true := by decide +kernel
/-- Without ATS in its context a translated request faults; without the context cached the request waits for the table's line while that is busy. -/
theorem wit_UpstreamRequestResults_fault : faulted (ioUp PortSt.idle) { upRead with translated := true } = true ∧
    waits { ioUp PortSt.idle with iots := [(0, Iot.empty)], lines := [(2 ^ 24, { LineSt.empty with tr := some tracker0 })] } upRead = true := by decide +kernel
theorem wit_UpstreamRequestResults_msi : inMsiPage 0x7FF00000 = true ∧ (ioUp PortSt.idle).rb (.irdRoute 0 100) 9 = true ∧ (ioUp PortSt.idle).partState 0 ≠ 5 ∧
    (ioUp PortSt.idle).ownsCore 0 0 = true ∧ (ioUp PortSt.idle).rb (.irdRoute 0 101) 9 = false ∧
    ((ioUp { PortSt.idle with posted := [[5]] }).portSt 0).posted ≠ [] ∧ ((ioUp { PortSt.idle with posted := [[5]] }).portSt 0).held = [] := by decide +kernel
def iotS (x : Iot) (st : Word) (tick : Word) : State := with_ { ioUp PortSt.idle with iots := [(0, x)] } [(.iotInvStatus 0, st), (.locTickNum, tick)]
def inv0 (ats : Bool) (waits : List (Nat × Nat)) : IotInv := { cmd := 0, armed := 0, ats := ats, waits := waits }
theorem wit_TranslationUnitResults : (iotS Iot.empty 0 0).rb (.iotInvStatus 0) 0 = false ∧ (iotS Iot.empty 1 0).rb (.iotInvStatus 0) 0 = true ∧
    fld 0x703 2 0 = 3 ∧ bit 0x13 4 = true ∧ ctx0 ∈ ((iotS { Iot.empty with cache := [ctx0] } 0 0).iot 0).cache ∧ ctx0.rid = fld 0x1 23 8 := by decide +kernel
theorem wit_TranslationUnitResults_ends : ((iotS { Iot.empty with inv := some (inv0 true [(0, 9)]) } 1 1000001).iot 0).inv = some (inv0 true [(0, 9)]) ∧
    (∀ y ∈ (inv0 true [(0, 9)]).waits, y ∉ (iotS Iot.empty 1 0).upFlying 0) ∧ (0, 9) ∈ ({ iotS Iot.empty 1 0 with ports := [(0, { PortSt.idle with reads := [[{ ln := 9, off := 0, len := 8, got := none }]] })] }).upFlying 0 ∧
    (inv0 true []).armed + 1000000 < (iotS Iot.empty 1 1000001).tick ∧ ((iotS { Iot.empty with faults := [(3, 4), (5, 6)] } 0 0).iot 0).faults = [(3, 4), (5, 6)] := by
  decide +kernel
def portS (st : Word) (x : PortSt) (tick : Word) : State := with_ (ioUp x) [(.pciPortStatus 0 0, st), (.locTickNum, tick)]
theorem wit_RootPortResults : (portS 2 PortSt.idle 0).hasPort 0 = true ∧ (portS 2 PortSt.idle 0).portState 0 = 2 ∧ (portS 0 PortSt.idle 0).portState 0 = 0 ∧
    (portS 4 PortSt.idle 0).portState 0 = 4 ∧ (portS 4 PortSt.idle 0).portOwner 0 ≠ none ∧ (portS 1 PortSt.idle 0).portState 0 = 1 ∧ up.hasPort 1 = false := by decide +kernel
def dev0 : DevAcc := { id := 1, core := 0, ppa := 0, size := 4, write := false, port := some 0, region := none, early := false, orphan := false, armed := 0, timeout := 0 }
theorem wit_RootPortResults_quiesce : ((portS 3 { PortSt.idle with step := 1 } 0).portSt 0).step = 1 ∧ (∀ y ∈ up.devs, y.port ≠ some (0 : PortId).val) ∧
    (∃ y ∈ ({ portS 3 { PortSt.idle with step := 1 } 1000 with devs := [dev0] }).devs, y.port = some (0 : PortId).val ∧ y.nonPosted = true) ∧
    (∀ y ∈ ([{ dev0 with write := true, ppa := 0xFFF080000000 }] : List DevAcc), y.port = some (0 : PortId).val → y.nonPosted = false) ∧
    ((portS 3 { PortSt.idle with step := 2 } 100).portSt 0).since + 100 ≤ (portS 3 { PortSt.idle with step := 2 } 100).tick ∧
    (portS 3 { PortSt.idle with step := 2 } 99).tick < 0 + 100 := by decide +kernel
/-- Root complex 0's port 0 carries CXL memory, of which P0 has a granule. -/
def cxlUp : State := with_ up [(.pciPortOwnerA 0 0, 0x20), (.pciPortStatus 0 0, 2), (.gmapEntryA 5, BitVec.ofNat 64 (1 + 2 ^ 51))]
theorem wit_RootPortResults_lost : cxlUp.portMode 0 = 2 ∧ cxlUp.hasPort 0 = true ∧ cxlUp.portState 0 ≠ 6 ∧ 0 ∈ cxlUp.cxlOwners 0 ∧
    (cxlUp.ras.get [] 0 : List RasRec).length < 64 := by decide +kernel
def ird (v : Word) (pst : Word) : State := with_ up [(.irdRoute 0 100, v), (.irdRoute 0 2, v), (.pscPartStatus 0, pst)]
theorem wit_InterruptRouteResults : (ird 0x500 2).ownsCore 0 0 = true ∧ (ird 0x500 2).ownsCore 0 6 = false ∧ bit (0x500 : Word) 8 = true ∧ bit (0x400 : Word) 10 = true ∧
    bit (0x200 : Word) 9 = true ∧ fld (0x200 : Word) 7 0 < 216 ∧ (ird 0x400 2).partState 0 ≠ 5 := by decide +kernel
theorem wit_InterruptRouteResults_ipi : (ird 0 2).rb (.irdRoute 0 2) 9 = false ∧ (ird 0x200 2).rb (.irdRoute 0 2) 9 = true ∧ (ird 0x200 5).partState 0 = 5 ∧
    fld (0x200 : Word) 11 8 = 2 := by decide +kernel

/-! ## The service rings -/

/-- Rings of P0 in STATE `st` with 16 entries each, the submission ring at PPA 0 and the completion ring at PPA 0x1000. -/
def ringUp (st : Nat) (l : List (Reg × Word)) : State :=
  with_ up ([(.pscRingCtl 0, BitVec.ofNat 64 (0x841 + 2 * st)), (.pscCqBase 0, 0x1000), (.pscRingStatus 0, 0x200000), (.pscSqTail 0, 1),
    (.irdRoute 0 100, 0x200)] ++ l)
theorem wit_RingRegisterResults : (ringUp 1 []).ringState 0 = 1 ∧ (ringUp 0 []).ringState 0 = 0 ∧ up.ringCtlBad 0 0x841 = false ∧ (ringUp 1 []).ringCtlBad 0 0x851 = true ∧
    up.ringInner 0 = false ∧ up.rb (.pscRingCtl 0) 0 = false ∧ (ringUp 1 []).ringCtlBad 0 0x840 = false := by decide +kernel
theorem wit_RingRegisterResults_bells : fld (7 : Word) 15 0 < (ringUp 1 []).sqLen 0 ∧ (ringUp 1 []).cqLen 0 ≤ fld (16 : Word) 15 0 ∧
    1792 ≤ ({ ringUp 1 [] with cycle := 1792 }).cycle ∧ (with_ up [(.pscRingCtl 0, 0x84B)]).ringInner 0 = true := by decide +kernel
def dueIrq (v : Word) : State := let s := ringUp 1 [(.pscRingCtl 0, v)]; { s with psc := { s.psc with irqDue := [0] } }
theorem wit_RingRegisterResults_irq : (0 : Pid).val ∈ (dueIrq 0x644843).psc.irqDue ∧ (dueIrq 0x644843).rb (.pscRingCtl 0) 14 = true ∧
    (dueIrq 0x644843).rb (.irdRoute 0 (Fin.ofNat 2048 ((dueIrq 0x644843).rf (.pscRingCtl 0) 26 16))) 9 = true ∧ (dueIrq 0x644843).partState 0 ≠ 5 ∧
    (dueIrq 0x654843).rb (.irdRoute 0 (Fin.ofNat 2048 ((dueIrq 0x654843).rf (.pscRingCtl 0) 26 16))) 9 = false ∧ (0 : Pid).val ∉ up.psc.irqDue := by decide +kernel
def level (s : State) : Bool := decide ((fld (s.rg (.pscRingCnt 0)) 31 0 + 2 ^ 32 - fld (s.rg (.pscRingCnt 0)) 63 32) % 2 ^ 32 = s.outstanding 0 ∧ s.outstanding 0 ≤ s.cqFree 0)
theorem wit_RingRegisterResults_duties : (dueIrq 0x644843).dutiesDone = false ∧ ({ dueIrq 0x644843 with cycle := 1792 }).dutiesDone = true ∧
    (with_ (dueIrq 0x644843) [(.pscSqTail 0, 0)]).dutiesDone = true ∧ (dueIrq 0x644843).psc.irqAt.get 0 (0 : Pid).val ≠ (dueIrq 0x644843).tick + 1 ∧
    (ringUp 1 []).auditing 6 = true ∧ ({ ringUp 1 [] with cycle := 384 }).auditing 6 = false := by decide +kernel
theorem wit_RingRegisterResults_audit : level (ringUp 1 []) = true ∧ level (ringUp 1 [(.pscRingCnt 0, 1)]) = false := by decide +kernel
/-- P0's rings with one descriptor in memory at SQ_HEAD. -/
def ringDesc (cells : List Host.Cell) : State := { ringUp 1 [] with mem := cells }
def ringJob (ws : List Word) (data : List Byte) : Job :=
  { id := 1, ring := .part 0, words := ws ++ List.replicate (8 - ws.length) 0, idx := 0, data := data, armed := 0, phase := 0, aux := [] }
def partHyp (s : State) (j : Job) (op : Nat) : Bool :=
  let r := s.headRead 0
  let q := s.partRead 0 j
  !s.fatal && s.headReady 0 && r.headReady 0 && r.headDesc 0 == some j.words && !(r.linesBusy 0 (r.ringInner 0) j.buf j.inLines) && j.opcode == op &&
  !j.fence && j.reserved == none && !j.lenBad && j.rowless == none &&
  decide (j = { id := q.psc.nextId, ring := .part 0, words := j.words, idx := q.rf (.pscRingPos 0) 15 0, data := q.bufData 0 j, armed := q.tick, phase := 0, aux := [] })
theorem partHyp_turn (s : State) (j : Job) (op : Nat) (h : partHyp s j op = true) : PartTurn s 0 j op := by
  simp only [partHyp, Bool.and_eq_true] at h
  obtain ⟨⟨⟨⟨⟨⟨⟨⟨⟨⟨a, b⟩, c⟩, d⟩, e⟩, f⟩, g⟩, i⟩, k⟩, l⟩, m⟩ := h
  exact ⟨by simpa using a, b, c, by simpa using d, by simpa using e, by simpa using f, by simpa using g, by simpa using i, by simpa using k, by simpa using l,
    of_decide_eq_true m⟩
def syncJob : Job := ringJob [0x770009] []
def syncUp : State := ringDesc [(2 ^ 30, 0x09), (2 ^ 30 + 2, 0x77)]
theorem wit_PartitionRingFlow_turn : PartTurn syncUp 0 syncJob 0x09 ∧ syncJob.arg 0 = 0 ∧ syncJob.restZero 2 :=
  ⟨partHyp_turn _ _ _ (by decide +kernel), by decide +kernel, restZero_of _ _ (by decide +kernel)⟩
def syncAfter : State := syncUp.partRead 0 syncJob
theorem wit_PartitionRingFlow : syncAfter.pscDa 0 (syncAfter.ringInner 0) (syncAfter.cqPpa 0) = .inl (2 ^ 30 + 0x1000) ∧
    syncAfter.cxlLost ((2 ^ 30 + 0x1000) / 64) = false ∧ syncAfter.lineQuiet ((2 ^ 30 + 0x1000) / 64) = true ∧ (∀ f ∈ syncAfter.psc.finishing, f.job.ring ≠ .part 0) ∧
    (0 : Pid).val ∉ syncAfter.psc.cqLost ∧ syncAfter.noneDeferred ∧ syncAfter.rf (.pscRingPos 0) 31 16 % 2 = 0 := by unfold State.noneDeferred; decide +kernel
def oddTail : State := let s := ringUp 1 [(.pscRingPos 0, 0x10000)]; { s with psc := { s.psc with lastEven := [(0, [1, 2, 3, 4])] } }
theorem wit_PartitionRingFlow_odd : oddTail.rf (.pscRingPos 0) 31 16 % 2 = 1 ∧ (oddTail.psc.lastEven.get [] 0 : List Word).length = 4 := by decide +kernel
/-- The line of the descriptor is in a transaction at its home; or the package has stopped. -/
theorem wit_PartitionRingWaits : ({ syncUp with lines := [(2 ^ 24, { LineSt.empty with tr := some tracker0 })] }).headReady 0 = false ∧ syncUp.headReady 0 = true ∧
    ({ syncUp with fatal := true }).fatal = true := by decide +kernel
/-- DRT_UPDATE, CTR_DUMP_CFG, PARK and UNPARK of P0. -/
def drtJob : Job := ringJob [0x77000C] []
def drtUp : State := ringDesc [(2 ^ 30, 0x0C), (2 ^ 30 + 2, 0x77)]
def took (s : State) (j : Job) : State := ((s.partRead 0 j).consume 0 j.words j.data).2
theorem wit_PartitionOnlyCommands : PartTurn drtUp 0 drtJob 0x0C ∧ (took drtUp drtJob).drtUpdateBad drtJob = none :=
  ⟨partHyp_turn _ _ _ (by decide +kernel), by decide +kernel⟩
def dumpJob : Job := ringJob [0x770003, 0, 0, 0, 4] []
def dumpUp : State := ringDesc [(2 ^ 30, 0x03), (2 ^ 30 + 2, 0x77), (2 ^ 30 + 32, 4)]
theorem wit_PartitionOnlyCommands_dump : PartTurn dumpUp 0 dumpJob 0x03 ∧ (took dumpUp dumpJob).dumpBad dumpJob = none :=
  ⟨partHyp_turn _ _ _ (by decide +kernel), by decide +kernel⟩
def parkJob : Job := ringJob [0x77000E, 0x2000, 64, 1, 10] (List.replicate 64 0)
def parkUp : State := ringDesc [(2 ^ 30, 0x0E), (2 ^ 30 + 2, 0x77), (2 ^ 30 + 9, 0x20), (2 ^ 30 + 16, 64), (2 ^ 30 + 24, 1), (2 ^ 30 + 32, 10)]
theorem wit_PartitionOnlyCommands_park : PartTurn parkUp 0 parkJob 0x0E ∧ parkJob.restZero 2 ∧ parkJob.arg 0 = 1 ∧ (parkJob.arg 1).toNat = 10 :=
  ⟨partHyp_turn _ _ _ (by decide +kernel), restZero_of _ _ (by decide +kernel), by decide +kernel⟩
theorem wit_PartitionOnlyCommands_list : (took parkUp parkJob).bufBad parkJob = false ∧ (took parkUp parkJob).wakeList 0 parkJob.data 16 0 = .inr [] ∧
    ((took parkUp parkJob).domsOf 0).all (fun d => !((took parkUp parkJob).rb (.pwrCtl d) 4)) = true ∧ (took parkUp parkJob).parking 0 = false := by decide +kernel
def park0 : Park := { srcs := [], since := 0, parked := none, ms := 10, next := 1, hit := none, job := none, ports := [] }
def unparkJob : Job := ringJob [0x77000E] []
def parking (k : Park) (s : State) : State := { s with psc := { s.psc with parks := [(0, some k)] } }
def unparkUp : State := parking park0 (ringDesc [(2 ^ 30, 0x0E), (2 ^ 30 + 2, 0x77)])
theorem wit_PartitionOnlyCommands_unpark : PartTurn unparkUp 0 unparkJob 0x0E ∧ unparkJob.restZero 2 ∧ ((took unparkUp unparkJob).psc.parks.get none 0 : Option Park) = some park0 :=
  ⟨partHyp_turn _ _ _ (by decide +kernel), restZero_of _ _ (by decide +kernel), by decide +kernel⟩
theorem wit_PartitionOnlyCommands_owner : (ownerHyp up (ownerJob 0x0C [] []) 0x0C 5 && ownerHyp up (ownerJob 0x03 [] []) 0x03 5 &&
    ownerHyp up (ownerJob 0x0E [1] []) 0x0E 1 && ownerHyp up (ownerJob 0x0E [] []) 0x0E 2) = true := by decide +kernel
/-- The owner ring. -/
def ownWords (op : Nat) : List Word := [BitVec.ofNat 64 (op + 0x77 * 2 ^ 16), 0, 0, 0, 0, 0, 0, 0]
def compl0 : Compl := { tick := 1, tag := 7, status := 0, opcode := 9, idx := 0, r0 := 1, r1 := 2, len := 0, noirq := false, data := [] }
def pscS (x : Psc) : State := { up with psc := x }
theorem wit_OwnerBusResults : (ownWords 9).length = 8 ∧ up.ownerOutstanding < 64 ∧ up.fatal = false ∧ opcodeOk 0x09 = true ∧ opcodeOk 0x77 = false ∧
    64 ≤ (pscS { up.psc with ownerOut := List.replicate 64 compl0 }).ownerOutstanding ∧ up.psc.ownerAsm = [] ∧ (ownerJob 0x09 [0, 0, 0, 0, 0] []).rowless = none ∧
    (ownerJob 0x09 [0, 0, 0, 0, 0] []).bufLen = 0 := by decide +kernel
theorem wit_OwnerBusResults_out : (pscS { up.psc with ownerOut := [compl0] }).psc.ownerOut = compl0 :: [] ∧ (pscS { up.psc with ownerAsm := [(3, 0)] }).psc.ownerAsm = [(3, 0)] ∧
    0 + 10000 < (with_ up [(.locTickNum, 10001)]).tick ∧ up.psc.ownerOut = [] := by decide +kernel
theorem wit_OwnerServiceCommands : (ownerHyp up (ownerJob 0x09 [] []) 0x09 2 && ownerHyp up (ownerJob 0x09 [1, 5] []) 0x09 2 &&
    ownerHyp up (ownerJob 0x0A [0x10000] []) 0x0A 1 && ownerHyp up (ownerJob 0x04 [] []) 0x04 1 && ownerHyp up (ownerJob 0x0B [0, 1] []) 0x0B 2) = true ∧
    (0x10000 : Word) &&& ~~~ 0x9FFF0FFF#64 = 0 ∧ fld (0x10000 : Word) 28 16 = 1 ∧ (BitVec.ofInt 64 (-2000001)).toInt < -2000000 := by decide +kernel
def slotUp (toks : List Token) : State := { laid [] [] with net := { Net.empty with routesOn := true, tokens := toks }, psc := { up.psc with layouts := [(0, { lay0 with ceil := 1 })] } }
def slotJob (fn n : Nat) : Job := ownerJob 0x0D [BitVec.ofNat 64 (0x100 + fn * 2 ^ 20 + n * 2 ^ 24), 0xFF05] []
def tok0 : Token := { pid := 0, plane := 0, src := 0, dst := 1, slot := 5 }
theorem wit_OwnerServiceCommands_slots : (slotUp []).bankLocked 0 (!((slotUp []).bank 0)) = false ∧ (slotUp []).psc.swapWait % 2 = 0 ∧ (slotUp []).psc.layWait % 2 = 0 ∧ (slotUp []).slotBad (slotJob 0 1) = none ∧
    (slotJob 0 1).candidates = [5] ∧ (slotUp []).slotPid (slotJob 0 1) = some 0 ∧ cellsFree [] tok0 = true ∧ cellsFree [tok0] tok0 = false := by decide +kernel
theorem wit_OwnerServiceCommands_turns : (ownerHyp (slotUp []) (slotJob 0 1) 0x0D 5 && ownerHyp (slotUp [tok0]) (slotJob 1 1) 0x0D 5) = true ∧
    (slotUp [tok0]).tokensNext = [tok0] ∧ ((slotUp []).layout 0).ceil = 1 ∧ fld ((slotJob 1 1).arg 0) 21 20 = 1 := by decide +kernel
def ctlJob (op act : Nat) : Job := ownerJob op [BitVec.ofNat 64 (act * 2 ^ 8)] []
theorem wit_PortServiceCommands : ((List.range 3).all fun act => ownerHyp (portS 2 PortSt.idle 0) (ctlJob 0x08 act) 0x08 1 && (portS 2 PortSt.idle 0).portNamed (ctlJob 0x08 act) 0) = true ∧
    ((portS 2 PortSt.idle 0).portSt 0).job = none ∧ (portS 3 PortSt.idle 0).portState 0 = 3 ∧ (portS 5 PortSt.idle 0).portState 0 = 5 := by decide +kernel
def cxlJob (fn : Nat) : Job := ownerJob 0x0F [BitVec.ofNat 64 fn] []
theorem wit_PortServiceCommands_cxl : ((List.range 4).all fun fn => ownerHyp cxlUp (cxlJob fn) 0x0F 1 && cxlUp.cxlNamed (cxlJob fn) 0) = true ∧ cxlUp.cxlOwners 0 ≠ [] ∧
    (with_ up [(.pciPortOwnerA 0 0, 0x20), (.pciPortStatus 0 0, 5)]).cxlOwners 0 = [] := by decide +kernel
def lateOwner (j : Job) (tick : Word) (x : PortSt) : State := { withJob (portS 1 x tick) j with ibi := 0 }
theorem wit_PortServiceCommands_late :
    (lateOwner { ownerJob 0x01 [] [] with phase := 1 } 1001 PortSt.idle).psc.jobs.find? (fun x => x.id == 5) = some { ownerJob 0x01 [] [] with phase := 1 } ∧
    (ownerJob 0x01 [] []).armed + (ownerJob 0x01 [] []).wait 1000 < 1001 ∧ (ctlJob 0x08 0).armed + (ctlJob 0x08 0).wait 100000 < 100001 ∧
    ((lateOwner { ctlJob 0x08 0 with phase := 1 } 100001 { PortSt.idle with job := some 5 }).portSt (portOfArg ((ctlJob 0x08 0).arg 0) 5 0)).job = some 5 := by decide +kernel

/-! ## Power and the Locus -/

/-- Core 0 sleeps or waits in CS `cs`, its cluster is on, its domain has PWR_STATUS `st`. -/
def asleep (cs : Fin 4) (st : Word) : State :=
  { with_ (upCore { core0 with cs := cs, wfi := true, pendO := [40] }) [(.pwrStatus 0, st), (.pwrStatus (clusterDom 0), 0)] with wakeO := [(0, [41])] }
theorem wit_PowerStateResults : up.hasDom 0 = true ∧ up.hasDom 265 = false ∧ (with_ up [(.pwrCtl 0, 0x30)]).rb (.pwrCtl 0) 5 = true ∧ up.rb (.pwrCtl 0) 5 = false ∧
    (up.cluSaves.get [] 0 : List (Nat × Word)) = [] ∧ (with_ up [(.pwrStatus 0, 0xC)]).trans 0 = true ∧ (with_ up [(.pwrStatus 0, 0xC)]).inflight 0 = 0 := by decide +kernel
theorem wit_PowerStateResults_wake : ((asleep 0 0).core 0).wfi = true ∧ ((asleep 0 0).core 0).pendO ≠ [] ∧ ((asleep 2 2).core 0).held = false ∧ (asleep 2 2).trans (coreDom 0) = false ∧
    (asleep 2 2).partState ((asleep 2 2).pidOf 0) ≠ 4 ∧ ((asleep 2 2).core 0).haltReq = false ∧ (asleep 2 2).rf (.pwrStatus (clusterDom (clusterOf 0))) 1 0 = 0 := by decide +kernel
def slot0 : SaveSlot := { d := [(1, 7)], a := [], sp := [], q := [], pc := 0x40, pl := 1, inner := false, sys := [], exec := 0, bps := [], crc := 0 }
def slotUp3 (c : Word) : State := { asleep 3 3 with saves := [(0, some { slot0 with crc := c })] }
theorem wit_PowerStateResults_saved : ∃ c, ((slotUp3 c).saves.get none 0 : Option SaveSlot) = some { slot0 with crc := c } ∧ c = SaveSlot.check { slot0 with crc := c } ∧
    ((slotUp3 c).core 0).cs = 3 ∧ ((slotUp3 c).wakeO.get [] 0 : List Nat) ≠ [] :=
  ⟨slot0.check, rfl, by simp only [SaveSlot.check, SaveSlot.image], rfl, by decide⟩
def powJob (dom idx st : Nat) : Job := ownerJob 0x01 [BitVec.ofNat 64 (dom + idx * 2 ^ 8 + st * 2 ^ 16)] []
theorem wit_PowerStateResults_req : ownerHyp up (powJob 1 0 2) 0x01 1 = true ∧ (withJob up (powJob 1 0 2)).powerBad (powJob 1 0 2) = none ∧
    (powJob 1 0 2).powerDom = some 216 ∧ up.domReleased 216 = false ∧ (laid [] [rz 3 []]).domReleased 216 = true ∧
    (withJob (laid [] []) (powJob 3 0 0)).powerBad (powJob 3 0 0) = none ∧ (laid [] []).partState (Fin.ofNat 16 (fld ((powJob 3 0 0).arg 0) 15 8)) ≠ 4 := by decide +kernel
theorem wit_PowerStateResults_abandon : 0 + 64 < (with_ (asleep 0 0) [(.locTickNum, 65)]).tick ∧ ((with_ (asleep 0 0) [(.locTickNum, 65)]).core 0).cs = 0 := by decide +kernel
/-- Cluster 0 with its target and its six cores in CS `cs`. -/
def clu (target : Word) (cs : Fin 4) : State :=
  { with_ up [(.pwrCtl (clusterDom 0), target), (.pwrStatus (clusterDom 0), 0)] with cores := (List.range 6).map fun k => (k, { core0 with cs := cs }) }
theorem wit_PowerStateResults_cluster : (clu 0 1).trans (clusterDom 0) = false ∧ ((clu 0 1).owner 0).isSome = true ∧ (clu 0 1).cluTarget 0 < 2 ∧ (clu 0 1).coresAt 0 1 = true ∧
    ((clu 2 2).cluTarget 0 = 2 ∧ (clu 2 2).coresAt 0 2 = true) ∧ ((clu 3 3).cluTarget 0 = 3 ∧ (clu 3 3).coresAt 0 3 = true) ∧ (clu 3 3).l2Lines 0 = [] := by decide +kernel
/-- A cluster of a Facet without an owned cluster, and one beside cluster 0 on F0. -/
theorem wit_PowerStateResults_unused : up.trans (clusterDom 3) = false ∧ up.owner 3 = none ∧ up.facetUnused 1 = true ∧ up.rf (.pwrStatus (facetDom 1)) 1 0 ≠ 3 ∧
    up.trans (facetDom 1) = false ∧ up.owner 1 = none ∧ up.facetUnused 0 = false ∧ (∀ y ∈ (withJob up (powJob 1 0 2)).psc.jobs, y.opcode = 0x01 → y.phase = 0) := by decide +kernel
theorem wit_ClockAndThermalResults : up.pwr.boostAt + 100 ≤ (with_ up [(.locTickNum, 100)]).tick ∧ throttleAt (.stack 0) ≤ 95 ∧ (.stack 0 : ThermUnit) ∉ up.pwr.hot ∧
    tripAt (.die 12) ≤ 115 ∧ (115 : Int) < tripAt (.die 12) + 1 ∧ 64 * 12 + 3 ∉ up.pwr.failed := by decide +kernel
theorem wit_ClockAndThermalResults_early : (with_ up [(.locTickNum, 99)]).tick < up.pwr.boostAt + 100 ∧ up.pwr.readAt.get none 771 = none ∧
    ({ up.pwr with readAt := [(771, some 5)] } : Pwr).readAt.get none 771 = some 5 ∧ 5 ≤ (with_ up [(.locTickNum, 1004)]).tick ∧ (with_ up [(.locTickNum, 1004)]).tick < 5 + 1000 ∧
    ¬ (with_ up [(.locTickNum, 1005)]).tick < 5 + 1000 := by decide +kernel
theorem wit_ClockAndThermalResults_sensor : ({ up.pwr with odd := [(771, 15)] } : Pwr).odd.get 0 771 = 15 ∧ (20 - 4 : Int).natAbs = 16 ∧ 15 < (20 - 4 : Int).natAbs ∧
    (with_ base [(.pscBootStatus, 1)]).rf .pscBootStatus 3 0 ≠ 8 ∧ (laid [] [rz 0 []]).getResize 5 = some (rz 0 []) ∧ (rz 0 []).persist = true ∧ building.partState 0 = 1 := by decide +kernel
/-- P0 parks or is parked: its cluster is in KS3. -/
def parkS (k : Park) (tick : Word) : State := parking k (with_ up [(.pwrStatus (clusterDom 0), 3), (.locTickNum, tick)])
def src0 : WakeSrc := { typ := 3, index := 0, op := 0, mask := 0, value := 9 }
def park1 : Park := { park0 with parked := some 0, srcs := [src0] }
theorem wit_ParkResults : (parkS park0 65).allKs3 0 = true ∧ (∀ i ∈ (parkS park0 65).portsOf 0, (parkS park0 65).rf (.pwrStatus (portDom i)) 1 0 = park0.portState i ∧ (parkS park0 65).trans (portDom i) = false) ∧
    (park0.job.bind fun n => (parkS park0 65).psc.jobs.find? fun x => x.id == n) = none ∧ (parking park0 (with_ up [(.pwrStatus (clusterDom 0), 0)])).allKs3 0 = false ∧ park0.since + 64 < (parkS park0 65).tick := by decide +kernel
def parkWith (j : Job) : State := let s := parkS { park0 with job := some 1 } 0; { s with psc := { s.psc with jobs := [j], nextId := 2 } }
theorem wit_ParkResults_job : (({ park0 with job := some 1 } : Park).job.bind fun n => (parkWith parkJob).psc.jobs.find? fun x => x.id == n) = some parkJob := by decide +kernel
theorem wit_ParkResults_sample : 0 + park1.next * 1000 * park1.ms ≤ (parkS park1 10000).tick ∧ (parkS park1 10000).wakeMatch src0 9 = (parkS park1 10000).wakeMatch src0 9 ∧
    ((parkS park1 10000).coresOfPart 0).any (fun c => !((parkS park1 10000).wakeO.get [] c.val).isEmpty) = false ∧ (∀ i, (some 0 : Option Nat) = some i → i < 16) :=
  ⟨by decide +kernel, rfl, by decide +kernel, fun _ h => by cases h; decide⟩
theorem wit_ParkResults_hit : (parkS park1 10000).wakeMatch src0 9 = true ∧ park1.srcs[0]? = some src0 ∧ park1.hit = none ∧ ({ park1 with hit := some (some 0, false, false) } : Park).hit = some (some 0, false, false) ∧
    (parkS park1 10000).wakeMatch src0 8 = false := by decide +kernel
theorem wit_SupplyResults : 100 ≤ (with_ up [(.locTickNum, 100)]).tick ∧ up.rb .locRailStatus 55 = false ∧ (with_ up [(.locRailStatus, 2 ^ 55)]).rb .locRailStatus 55 = true ∧
    ({ with_ up [(.locRailStatus, 2 ^ 55)] with pwr := { up.pwr with low := true } }).pwr.low = true ∧ up.pwr.low = false := by decide +kernel

/-! ## The Meter -/

def mtr (m : Meter) (tick : Word) : State := with_ { up with meter := m } [(.locTickNum, tick)]
def dueM : Meter := { up.meter with due := true, fail := 4 }
theorem wit_LedgerCloseConservesEnergy : (mtr dueM 5).meter.due = true ∧ (mtr dueM 5).cycle < 1600 ∧ (mtr dueM 5).mtrFault = false ∧
    (∀ g, g < 36 → (mtr dueM 5).meter.last.lay.owner.get 0 g ≤ 16) := by decide +kernel
theorem wit_LedgerCloseConservesEnergy_rails :
    ∀ i, i < 12 → ((mtr dueM 5).meter.rails.getD (min i 4) { sigma := 0, aWay := 0, aTok := 0, aGran := 0, kOvh := 1, wNet := 0, wL3 := 0, wHbm := 0 }).sigma ≤ 65536 ∧
      (staticWeights (mtr dueM 5).meter.last.lay (mtr dueM 5).usableGrans
        ((mtr dueM 5).meter.rails.getD (min i 4) { sigma := 0, aWay := 0, aTok := 0, aGran := 0, kOvh := 1, wNet := 0, wL3 := 0, wHbm := 0 })).sum ≠ 0 := by decide +kernel
def rec0 : GapRec := { epoch := 1, tick := 2, stop := none, cause := 2, chan := 0xFF }
def ev0 : MtrEvent := { epoch := 1, tick := 2, code := 0x2001, unit := 3 }
def par0 : ParRec := { epoch := 1, tick := 2, pOld := 1, pNew := 2, cOld := 3, cNew := 4 }
def img0 : ParamImage := { pset := 2, checksum := 9, rails := [], cal := [], signed := true }
theorem wit_MeterEventResults : (mtr { dueM with st := 2 } 5).mtrFault = true ∧ up.meter.due = false ∧ (mtr dueM 5).chFailed 2 = true ∧ (mtr dueM 5).chFailed 50 = false ∧
    (7 : Nat) ≠ up.meter.inc ∧ (mtr dueM 2000000).tick % 1000000 = 0 ∧ up.lifeCycle = 0 := by decide +kernel
theorem wit_EvonisumResults : up.meter.closed = none ∧ ({ dueM with closed := some 4 } : Meter).closed = some 4 ∧ ({ dueM with gaps := [rec0] } : Meter).gaps[0]? = some rec0 ∧
    ({ dueM with events := [ev0] } : Meter).events[0]? = some ev0 ∧ ({ dueM with plog := [par0] } : Meter).plog[0]? = some par0 ∧ up.signBusy = false ∧
    (mtr { dueM with signAt := some 1 } 5).signBusy = true := by decide +kernel
theorem wit_MeterEventResults_channel : (mtr { dueM with good := [(2, 1000)] } 5).chFailed (2 : Fin 72).val = true ∧ 1000 ≤ ({ dueM with good := [(2, 1000)] } : Meter).good.get 0 2 ∧
    ({ dueM with good := [(2, 999)] } : Meter).good.get 0 2 < 1000 ∧ (mtr dueM 5).chFailed (50 : Fin 72).val = false ∧
    64 ≤ ({ dueM with exceed := [(3, 64)] } : Meter).exceed.get 0 3 ∧ ({ dueM with exceed := [(3, 63)] } : Meter).exceed.get 0 3 < 64 := by decide +kernel
theorem wit_EvonisumResults_oldest : 0 + 1024 < (List.replicate 1025 rec0).length ∧ (List.replicate 1024 rec0).length ≤ 0 + 1024 ∧
    (List.replicate 1024 rec0)[0]? = some rec0 := by decide +kernel
theorem wit_EvonisumResults_load : up.loadOk img0 = true ∧ (with_ { up with meter := { up.meter with st := 1 } } [(.pscBootStatus, 0x68)]).loadOk img0 = true ∧
    (with_ { up with meter := { up.meter with st := 1 } } [(.pscBootStatus, 0x68)]).loadOk { img0 with signed := false } = false ∧
    (ownerHyp up (ownerJob 0x02 [18] []) 0x02 1 && ownerHyp up (ownerJob 0x02 [19] []) 0x02 1) = true := by decide +kernel
/-- R435: at the lowest load point, one degree above 25 °C, 34/35 of the correction there and 1/35 of that at 60 °C; a result below zero is zero (R421). -/
theorem test_calibration : ({ up.meter with cal := some [35, 0, 0] } : Meter).calibrated 0 2048000 26 = 2048034 ∧
    ({ up.meter with cal := some [35, 0, 0] } : Meter).calibrated 0 2048000 60 = 2048000 ∧ ({ up.meter with cal := some [] } : Meter).calibrated 63 (-3) 25 = 0 := by decide +kernel

/-! ## RAS, reset and boot -/

def bb (sev : Fin 8) : BbRec := ⟨5, 0x8020, none, sev, 0, 0⟩
theorem wit_ErrorEventResults : up.fatal = false ∧ up.partState 0 ≠ 5 ∧ up.psc.beat + 1000 < (with_ up [(.locTickNum, 1001)]).tick ∧ up.rb .bbxStatus 13 = false ∧ up.bbx.wrote < 64 ∧
    64 ≤ ({ up.bbx with wrote := 64 } : BlackBox).wrote ∧ (with_ up [(.bbxStatus, 0x2000)]).rb .bbxStatus 13 = true := by decide +kernel
theorem wit_ErrorEventResults_freeze : (bb 3).sev = 3 ∧ (bb 4).sev = 4 ∧ up.rb .bbxStatus 12 = false ∧ up.bbx.left = 0 ∧ (with_ up [(.locFatalCause, 5)]).rf .locFatalCause 15 0 ≠ 0 ∧
    up.rf .locFatalCause 15 0 = 0 := by decide +kernel
theorem wit_ErrorEventResults_trackers : (∀ ln, (up.line ln).queue = []) ∧ up.net.sliceQ = [] ∧ up.psc.jobs = [] ∧ up.lines = [] := ⟨fun _ => rfl, by decide, by decide, by decide⟩
theorem wit_PackageResetResults : up.rstRuns 2 0 = false ∧ up.psc.ownerOut = [] ∧ up.psc.jobs = [] ∧ (pscS { up.psc with ownerOut := [compl0] }).psc.ownerOut ≠ [] ∧
    (pscS { up.psc with resets := [{ rst0 with kind := 2 }] }).rstRuns 2 0 = true := by decide +kernel
/-- P0 may be debugged; its cluster is on. -/
def dbgS (held : Bool) (ctl : Word) : State :=
  with_ (upCore { core0 with held := held }) [(.pscDbgCtl 0, 0x5), (.coreDbgCtl 0, ctl), (.pwrStatus (clusterDom 0), 0), (.pscStartCtl 0, 0x1001)]
theorem wit_UnitResetResults : (dbgS true 0).ownsCore 0 0 = true ∧ (dbgS true 0).pidOf 0 = 0 ∧ (dbgS true 0).invasive 0 false = true ∧ (dbgS true 0).rstRuns 0 0 = false ∧
    ((dbgS true 0).core 0).held = true ∧ ((dbgS false 0).core 0).cs ≠ 3 ∧ (dbgS false 0).rb (.coreDbgCtl 0) 4 = false := by decide +kernel
theorem wit_UnitResetResults_drained : Drained (dbgS false 0) [0] [] ∧ (dbgS false 0).rf (.pwrStatus (clusterDom (clusterOf 0))) 1 0 = 0 ∧
    up.invasive 0 false = false := by unfold Drained State.noneDeferred; decide +kernel
/-- In SERVICE; Facet 1 belongs to nobody. -/
def service : State := with_ up [(.pscBootStatus, 0x68), (.chdStrandStatus 1 0, 8)]
theorem wit_UnitResetResults_facet : service.lifeCycle = 3 ∧ service.rstRuns 3 1 = false ∧ service.facetPids 1 = [] ∧ (∃ st, service.stState 1 st = 8) ∧
    (∀ st, service.stState 1 st = 0 ∨ service.stState 1 st = 8) ∧ service.facetPids 0 ≠ [] := by decide +kernel
/-- The same, with a strand that is UP and has sent what is not acknowledged. -/
def serviceUp : State :=
  with_ ({ service with chord := { Chord.empty with strands := [(7, { Strand.empty with fc := again 9 5 0 false 0 })] } }) [(.chdStrandStatus 1 1, 7)]
theorem wit_UnitResetResults_takeDown : serviceUp.fatal = false ∧ serviceUp.facetPids 1 = [] ∧ (∃ st, serviceUp.stState 1 st = 8) ∧ serviceUp.stState 1 1 = 7 ∧
    (serviceUp.strand 1 1).closing = none ∧ serviceUp.strandDrained 1 1 = false ∧ (∀ st, st ≠ 1 → serviceUp.stState 1 st = 0 ∨ serviceUp.stState 1 st = 8) := by decide +kernel
theorem wit_UnitResetResults_clean : Drained service ((List.range 216).filterMap fun n => if n / 18 = 1 then some (Fin.ofNat 216 n) else none)
    ((List.range 36).filterMap fun g => if g / 3 = 1 then some (Fin.ofNat 36 g) else none) ∧ up.facetDead 0 = false := by unfold Drained State.noneDeferred; decide +kernel
/-- Facet 0 is in step and has a strand that is UP. -/
def facetUpS : State := with_ up [(.chdStrandStatus 0 0, 7), (.fctTickStatus 0, 1)]
def rstJob : Job := ownerJob 0x05 [0x100] []
theorem wit_UnitResetResults_part : ownerHyp facetUpS rstJob 0x05 1 = true ∧ (withJob facetUpS rstJob).facetsBad 0 = false ∧ up.facetsBad 0 = true ∧
    (withJob facetUpS rstJob).ringJobs (.part 0) = [] ∧ facetUpS.portsOf 0 = [] ∧ (with_ up [(.pscPartStatus 0, 0)]).partState 0 = 0 := by decide +kernel
theorem wit_UnitResetResults_quiet : Drained (withJob facetUpS rstJob) ((withJob facetUpS rstJob).coresOfPart 0) [] ∧ (laid [rst0] []).resetting 0 = true ∧
    facetUpS.resizing 0 = false ∧ facetUpS.psc.resets = [] ∧ facetUpS.lines = [] := by unfold Drained State.noneDeferred; decide +kernel
/-- Boot step `n`. -/
def boot (n : Nat) (lc : Nat) (tick : Word) : State := with_ up [(.pscBootStatus, BitVec.ofNat 64 (n + 32 * lc)), (.pscPartStatus 0, 0), (.locTickNum, tick)]
def fw (ok : Bool) : FwCopy := ⟨true, ok, true, 3⟩
theorem wit_BootResults : ((List.range 6).all fun n => (boot (n + 1) 0 0).inBoot (n + 1)) = true ∧ (boot 8 0 0).inBoot 1 = false ∧ (fw true).read = true ∧ (fw true).keyOk = true ∧
    (boot 2 0 0).psc.svn ≤ (fw true).svn.toNat ∧ (fw false).keyOk = false := by decide +kernel
theorem wit_BootResults_reference : (boot 1 0 15).tick < (boot 1 0 15).psc.bootAt + 16 ∧ (boot 1 0 16).psc.bootAt + 16 ≤ (boot 1 0 16).tick ∧ (boot 1 0 16).inBoot 1 = true ∧
    (boot 5 4 0).bootStep = 5 ∧ (boot 5 4 0).lifeCycle = 4 := by decide +kernel
theorem wit_BootResults_training : 6 * 0 + 1 ∈ [1] ∧ laneWidth (laneCount ((up.rg (laneReg 0 1)).extractLsb' 0 25)) ≠ 0 ∧ laneWidth (laneCount ((up.rg (laneReg 0 1)).extractLsb' 25 25)) ≠ 0 ∧
    (with_ (boot 3 0 0) [(.chdStrandStatus 0 0, 8)]).stState 0 0 = 8 ∧ (boot 5 0 0).warmBoot = false ∧ (boot 5 0 0).psc.lcReq = none := by decide +kernel
/-- Boot step 6 with a stored layout of P0, of one cluster. -/
def lay1 : PartLayout := { lay0 with boot := some (2, 0x1000) }
def bootLay (lc : Nat) (stored : Tbl PartLayout) : State := { boot 6 lc 0 with psc := { up.psc with stored := stored, layouts := [] } }
theorem wit_BootResults_layout : (bootLay 2 []).getResize 0 = none ∧ (bootLay 0 []).lifeCycle = 0 ∧ (bootLay 2 []).lifeCycle ≠ 0 ∧ (bootLay 2 []).storedLayout [] ≠ .inr parsed0 ∧
    (bootLay 2 []).storedLayout (layRec0 2) = .inl 0 ∧ (bootLay 2 []).warmBoot = false := by decide +kernel
def lay2 : PartLayout := { lay1 with hbm := [(0, 1)] }
def bootGood : State := { with_ (boot 6 2 0) [(.fctTickStatus 0, 1), (.gmapEntryA 0, 0)] with psc := { up.psc with stored := [(0, lay2)], layouts := [], pool := [(1, 1)] } }
theorem wit_BootResults_build : (match bootGood.storedLayout [] with | .inr r => r == storedRec [(0, lay2)] [] | .inl _ => false) = true ∧
    bootGood.bootLayoutBad (storedRec [(0, lay2)] []) [(2, 4096)] = false ∧ bootGood.changed (storedRec [(0, lay2)] []) = [0] ∧ bootGood.inBoot 6 = true ∧
    bootGood.bootLayoutBad (storedRec [(0, lay2)] []) [] = true := by decide +kernel
def bootImg (tick : Word) : State := { with_ (boot 7 2 tick) [(.pscPartStatus 0, 1)] with psc := { up.psc with layouts := [(0, lay1)] } }
theorem wit_BootResults_image : (bootImg 0).inBoot 7 = true ∧ (bootImg 0).partState 0 = 1 ∧ (0 : Pid).val ∉ (bootImg 0).psc.release ∧ (bootImg 0).existsPart 0 = true ∧
    ((bootImg 0).layout 0).boot = some (2, 0x1000) := by decide +kernel
theorem wit_BootResults_late : (([(1, 101), (2, 100001), (3, 2001), (4, 10001), (6, 1001)] : List (Nat × Nat)).all fun e =>
      let s := boot e.1 2 (BitVec.ofNat 64 e.2); !s.fatal && !(s.rstRuns 2 0) && decide (s.psc.bootAt + s.bootLimit < s.tick)) = true ∧
    (bootImg 2684357).psc.bootAt + (bootImg 2684357).bootLimit < (bootImg 2684357).tick ∧ (boot 3 2 2001).inResync 3 = true ∧ facetUpS.inResync 0 = false := by decide +kernel
theorem wit_TestPortResults : up.diePowered 12 = true ∧ (with_ up [(.pwrStatus 252, 3)]).diePowered 0 = false ∧ (lc 4).lifeCycle = 4 ∧ up.lifeCycle = 0 ∧ (∃ p, up.partState p = 2) ∧
    (∀ p, (boot 8 0 0).partState p ≠ 2) ∧ (lc 3).lifeCycle = 3 := by decide +kernel
theorem wit_TestPortResults_request : ((1 : Fin 8).val = up.lifeCycle + 1 ∧ (1 : Fin 8).val ≤ 4) ∧ up.rf .bbxStatus 44 32 = 0 ∧
    bit ({ up with meter := { up.meter with st := 1 } }).meter.st 0 = true ∧ ¬ ((3 : Fin 8).val = up.lifeCycle + 1) ∧ (3 : Fin 8).val ≠ 4 := by decide +kernel

/-! ## Counters and memory -/

def dump0 : Dump := { base := 0x4000, log2 := 4, n := 10, sel := 1, cores := 0, reclen := 128, t0 := 3, inner := false, last := none, gen := none }
def snapRec (stage : Nat) : Snap := { cfg := dump0, seq := 0, tick := 9, gen := 0, trunc := false, layout := false, missed := false, late := false, stage := stage, body := List.replicate 64 7 }
def dumpS (x : List Snap) (st : Word) : State := with_ { up with dumps := [(0, some dump0)], snaps := [(0, x)] } [(.ctrStatus 0, st)]
theorem wit_CounterResults : ((dumpS [] 1).dumps.get none 0 : Option Dump) = some dump0 ∧ (dumpS [] 1).rf (.ctrStatus 0) 63 32 = 0 ∧ (dumpS [] 0x500000001).rf (.ctrStatus 0) 63 32 ≠ 0 ∧
    ((dumpS [snapRec 1] 1).snaps.get [] 0 : List Snap) = snapRec 1 :: [] ∧ (0 : Pid).val ∉ (dumpS [] 1).refused ∧ (up.dumps.get none 0 : Option Dump) = none := by decide +kernel
theorem wit_CounterResults_write : (dumpS [snapRec 0] 1).linesOk 0 false (0x4000 + 0 % 2 ^ 4 * 128) 1 = true ∧ (dumpS [snapRec 1] 1).linesOk 0 false (0x4000 + 64) 1 = true ∧
    (snapRec 1).body ≠ [] ∧ (snapRec 1).body.length / 64 = 1 ∧ dump0.t0 = (snapRec 2).cfg.t0 ∧ (with_ (dumpS [snapRec 0] 1) [(.gmapEntryA 0, 0)]).linesOk 0 false 0x4000 1 = false := by decide +kernel
def smplCore (tagged : Option Tagged) : State := upCore { core0.wsys Srn.smplCtl 0x2005 with tagged := tagged }
/-- The line of the dump buffer at PPA 0x4000 is in a transaction; or the partition is refused. -/
def dumpBusy : State := { dumpS [snapRec 0] 1 with lines := [(2 ^ 24 + 0x100, { LineSt.empty with tr := some tracker0 })] }
theorem wit_CounterResults_waits : dumpBusy.linesBusy 0 false 0x4000 1 = true ∧ dumpBusy.linesOk 0 false 0x4000 1 = true ∧ (dumpS [snapRec 0] 1).linesBusy 0 false 0x4000 1 = false ∧
    (dumpS [snapRec 1] 1).linesBusy 0 false (0x4000 + 64) 1 = false ∧ (dumpS [snapRec 0] 1).partState 0 ≠ 5 ∧
    (0 : Pid).val ∈ ({ dumpS [snapRec 2] 1 with refused := [0] }).refused ∧ ((dumpS [snapRec 1] 1).snaps.get [] 0 : List Snap) ≠ [] := by decide +kernel
theorem wit_CounterResults_sample : (smplCore none).runs 0 = true ∧ (smplCore none).sampling 0 = true ∧ ((smplCore none).core 0).tagged = none ∧
    ((smplCore (some ⟨4, 0, 0⟩)).core 0).tagged.isSome = true ∧ up.sampling 0 = false := by decide +kernel
/-- Cluster 0's sample ring of 16 entries at PPA 0x5000. -/
def smplRing (ctl : Word) (head : Word) : State :=
  with_ { up with smplBuf := [(0, [5])] } [(.cluSmplCtl 0, ctl), (.cluSmplBase 0, 0x5000), (.cluSmplHead 0, head), (.cluSmplPos 0, 0)]
theorem wit_CounterResults_ring : ((smplRing 9 0).smplBuf.get [] 0 : List Line) = 5 :: [] ∧ (smplRing 9 0).owner 0 = some 0 ∧ (smplRing 9 0).rb (.cluSmplCtl 0) 0 = true ∧
    ¬ ((0 + 1) % 2 ^ (smplRing 9 0).rf (.cluSmplCtl 0) 5 1 = (smplRing 9 0).rf (.cluSmplHead 0) 15 0) ∧
    (0 + 1) % 2 ^ (smplRing 9 1).rf (.cluSmplCtl 0) 5 1 = (smplRing 9 1).rf (.cluSmplHead 0) 15 0 ∧ (smplRing 9 0).linesOk 0 false 0x5000 1 = true ∧
    (smplRing 9 0).linesBusy 0 false 0x5000 1 = false ∧ ({ smplRing 9 0 with lines := [(2 ^ 24 + 0x140, { LineSt.empty with tr := some tracker0 })] }).linesBusy 0 false 0x5000 1 = true := by decide +kernel
theorem wit_CounterResults_enable : bit (9 : Word) 0 = true ∧ fld (9 : Word) 5 1 = 4 ∧ fld (7 : Word) 5 1 < 4 ∧ (smplRing 0x49 0).rb (.cluSmplCtl 0) 6 = true ∧
    (with_ (smplRing 9 0) [(.gmapEntryA 0, 0)]).linesOk 0 false 0x5000 1 = false := by decide +kernel
theorem wit_MemoryStaysCanonical : (up.wrByte 0x40000005 7).memOk ∧ (match step (up.wrByte 0x40000005 7) with | .next t => decide (t = { up.wrByte 0x40000005 7 with cycle := 1 }) | _ => false) = true := by
  unfold State.memOk; decide +kernel
/-- A core whose SYS_PMC0 counts CYCLES. -/
def pmcS : State := upCore ((core0.wsys 0x420 1).wsys 0x428 (BitVec.ofNat 64 (2 ^ 61 + 2 ^ 58 + 2 ^ 48 + 5)))
theorem wit_SystemRegisterResults_free : ((pmcS.core 0).pmcFree 0 && pmcS.runs 0 && (pmcS.core 0).ra.isNone && (pmcS.bpHit 0).isNone && pmcS.settled && srnListed 0x428 &&
    !(bit ((pmcS.core 0).rsys 0x420) 2)) = true ∧ (pmcS.core 0).pmcFree 1 = false := by decide +kernel

/-! ## Encodings, written out from the tables of chapter 04 and its worked examples -/

/-- 0x023 << 23, 7 << 18, 6 << 13, 6 << 8, 0x0E << 2, 0b11 (the worked CRC step); and the other words of the worked stream. -/
theorem wit_InstructionEncodingRoundTrip : kosalDecode 7 0x119CC63B = some (.crc32c 7 6 6 7 3) ∧
    kosalWord (.crc32c 7 6 6 7 3) = some (4, 0x119CC63B) ∧ kosalWord (.aluS 7 4 0 4) = some (2, 0x0480) := by decide
theorem test_worked_stream : kosalDecode 7 0x42303008 = some (.moviS 7 3 0) ∧ kosalDecode 7 0x34204230 = some (.ldS 7 4 1 0 true) ∧
    kosalDecode 7 0x5FE43420 = some (.aluS 7 1 3 4) ∧ kosalDecode 7 0x5FA55FE4 = some (.addiS 7 5 (-1)) ∧
    kosalDecode 7 0x43735FA5 = some (.bnzS 7 5 (-3)) ∧ kosalDecode 7 0x04804373 = some (.sd 7 3 2 0x120 false) ∧
    kosalDecode 7 0x0002 = some (.retS 7) ∧ kosalDecode 7 0x0004 = some (.addiS 7 0 0) := by decide
theorem test_worked_words : kosalDecode 7 0x40092097 = some (.mts 7 0x002 9) ∧ kosalDecode 7 0x2010627B = some (.qdot8 7 2 3 4 true) ∧
    kosalDecode 7 0x8040009F = some (.gateM 7 0x010) ∧ kosalDecode 7 0x101CC63B = some (.crc32c 7 6 6 7 0) := by decide
/-- Q8 in a field for Q0–Q7 (the worked QDOT8 with 0b01000 in [12:8]), and ADDAI with rd = 0b10000. -/
theorem test_refused_registers : kosalDecode 7 0x2010687B = none ∧ kosalDecode 7 0x00001043 = none ∧ kosalDecode 7 0xFFFFFFFF = none := by decide
theorem wit_TrapConditions_encoding : kosalDecode 0 (0xFFFFFFFF : BitVec 32).toNat = none ∧ kosalDecode 0 (0x4 : BitVec 32).toNat ≠ none := by decide

end Sys2Proof.Tests
end

section
/-! The address map of the package register space (R2, R15): a register is found at its own address and at no other. -/

namespace Sys2Proof.Reg

/-! ## How a block's list of readings is evaluated -/

theorem none_orElse (x : Option Reg) : orElse none x = x := by rw [orElse]
theorem some_orElse (r : Reg) (x : Option Reg) : orElse (some r) x = some r := by rw [orElse]

/-- `simp` evaluates the first reading before it looks at the others. -/
@[congr] theorem orElse_congr {x y : Option Reg} (h : x = y) (z : Option Reg) : orElse x z = orElse y z := by rw [h]

theorem guarded_none (c : Prop) [Decidable c] : guarded c none = none := ite_self none
theorem guarded_true (x : Option Reg) : guarded True x = x := if_pos trivial
theorem guarded_false (x : Option Reg) : guarded False x = none := if_neg id
theorem fin?_val {n : Nat} (i : Fin n) : fin? n i.val = some i := dif_pos i.isLt
theorem fin?_of_le {n k : Nat} (h : n ≤ k) : fin? n k = none := dif_neg (Nat.not_lt.mpr h)

/-- The laws of readings, as one set of rewrite rules. -/
theorem reading_laws :
    (∀ x, orElse none x = x) ∧ (∀ r x, orElse (some r) x = some r) ∧ (∀ c [Decidable c], guarded c none = none) ∧
    (∀ x, guarded True x = x) ∧ (∀ x, guarded False x = none) ∧ (∀ {n} (i : Fin n), fin? n i.val = some i) ∧
    (∀ {n k}, n ≤ k → fin? n k = none) :=
  ⟨none_orElse, some_orElse, guarded_none, guarded_true, guarded_false, fin?_val, fin?_of_le⟩

/-! ## Addresses as digits: an offset `c`, then index times stride, the widest stride first -/

theorem le_offset {c d : Nat} (y : Nat) (h : d ≤ c) : (d ≤ c + y) = True := eq_true (by omega)
theorem offset_ne_zero {c : Nat} (y : Nat) (h : 0 < c) : (c + y = 0) = False := eq_false (by omega)
theorem sub_offset {c d : Nat} (y : Nat) (h : d ≤ c) : c + y - d = (c - d) + y := by omega
theorem last_digit {c s : Nat} (i : Nat) (h : c < s) : (c + i * s) / s = i := by
  rw [Nat.add_mul_div_right _ _ (Nat.zero_lt_of_lt h), Nat.div_eq_of_lt h, Nat.zero_add]
theorem first_digit {c y s : Nat} (i : Nat) (h : c + y < s) : (c + (i * s + y)) / s = i := by
  rw [Nat.add_left_comm, Nat.add_comm, last_digit i h]
theorem drop_first_digit {c y s : Nat} (i : Nat) (h : c + y < s) : (c + (i * s + y)) % s = c + y := by
  rw [Nat.add_left_comm, Nat.add_comm, Nat.add_mul_mod_self_right, Nat.mod_eq_of_lt h]

/-- The laws of digits, as one set of rewrite rules. -/
theorem digit_laws :
    (∀ {c d : Nat} (y : Nat), d ≤ c → (d ≤ c + y) = True) ∧ (∀ {c : Nat} (y : Nat), 0 < c → (c + y = 0) = False) ∧
    (∀ {c d : Nat} (y : Nat), d ≤ c → c + y - d = (c - d) + y) ∧ (∀ c i s : Nat, (c + i * s) % s = c % s) ∧
    (∀ {c s : Nat} (i : Nat), c < s → (c + i * s) / s = i) ∧
    (∀ {c y s : Nat} (i : Nat), c + y < s → (c + (i * s + y)) % s = c + y) ∧
    (∀ {c y s : Nat} (i : Nat), c + y < s → (c + (i * s + y)) / s = i) :=
  ⟨le_offset, offset_ne_zero, sub_offset, Nat.add_mul_mod_self_right, last_digit, drop_first_digit, first_digit⟩

/-! ## Which block reads an address -/

theorem ofAddr_eq_inCore {a : Nat} (h : a < 0x01000000) : ofAddr a = inCore a := by
  simp (disch := omega) only [ofAddr, ↓if_neg]
theorem ofAddr_eq_inClu {a : Nat} (hlo : 0x01000000 ≤ a) (hhi : a < 0x01400000) : ofAddr a = inClu (a - 0x01000000) := by
  simp (disch := omega) only [ofAddr, ↓if_pos, ↓if_neg]
theorem ofAddr_eq_inFct {a : Nat} (hlo : 0x01400000 ≤ a) (hhi : a < 0x01500000) : ofAddr a = inFct (a - 0x01400000) := by
  simp (disch := omega) only [ofAddr, ↓if_pos, ↓if_neg]
theorem ofAddr_eq_inChd {a : Nat} (hlo : 0x01500000 ≤ a) (hhi : a < 0x02000000) : ofAddr a = inChd (a - 0x01500000) := by
  simp (disch := omega) only [ofAddr, ↓if_pos, ↓if_neg]
theorem ofAddr_eq_inNet {a : Nat} (hlo : 0x02000000 ≤ a) (hhi : a < 0x03000000) : ofAddr a = inNet (a - 0x02000000) := by
  simp (disch := omega) only [ofAddr, ↓if_pos, ↓if_neg]
theorem ofAddr_eq_inL3s {a : Nat} (hlo : 0x03000000 ≤ a) (hhi : a < 0x04000000) : ofAddr a = inL3s (a - 0x03000000) := by
  simp (disch := omega) only [ofAddr, ↓if_pos, ↓if_neg]
theorem ofAddr_eq_inHbm {a : Nat} (hlo : 0x04000000 ≤ a) (hhi : a < 0x05000000) : ofAddr a = inHbm (a - 0x04000000) := by
  simp (disch := omega) only [ofAddr, ↓if_pos, ↓if_neg]
theorem ofAddr_eq_inPci {a : Nat} (hlo : 0x05000000 ≤ a) (hhi : a < 0x06000000) : ofAddr a = inPci (a - 0x05000000) := by
  simp (disch := omega) only [ofAddr, ↓if_pos, ↓if_neg]
theorem ofAddr_eq_inIot {a : Nat} (hlo : 0x06000000 ≤ a) (hhi : a < 0x07000000) : ofAddr a = inIot (a - 0x06000000) := by
  simp (disch := omega) only [ofAddr, ↓if_pos, ↓if_neg]
theorem ofAddr_eq_inIrd {a : Nat} (hlo : 0x07000000 ≤ a) (hhi : a < 0x08000000) : ofAddr a = inIrd (a - 0x07000000) := by
  simp (disch := omega) only [ofAddr, ↓if_pos, ↓if_neg]
theorem ofAddr_eq_inDrt {a : Nat} (hlo : 0x08000000 ≤ a) (hhi : a < 0x08100000) : ofAddr a = inDrt (a - 0x08000000) := by
  simp (disch := omega) only [ofAddr, ↓if_pos, ↓if_neg]
theorem ofAddr_eq_inGmap {a : Nat} (hlo : 0x08100000 ≤ a) (hhi : a < 0x09000000) : ofAddr a = inGmap (a - 0x08100000) := by
  simp (disch := omega) only [ofAddr, ↓if_pos, ↓if_neg]
theorem ofAddr_eq_inCtr {a : Nat} (hlo : 0x09000000 ≤ a) (hhi : a < 0x0A000000) : ofAddr a = inCtr (a - 0x09000000) := by
  simp (disch := omega) only [ofAddr, ↓if_pos, ↓if_neg]
theorem ofAddr_eq_inPsc {a : Nat} (hlo : 0x0A000000 ≤ a) (hhi : a < 0x0B000000) : ofAddr a = inPsc (a - 0x0A000000) := by
  simp (disch := omega) only [ofAddr, ↓if_pos, ↓if_neg]
theorem ofAddr_eq_inMtr {a : Nat} (hlo : 0x0B000000 ≤ a) (hhi : a < 0x0C000000) : ofAddr a = inMtr (a - 0x0B000000) := by
  simp (disch := omega) only [ofAddr, ↓if_pos, ↓if_neg]
theorem ofAddr_eq_inLoc {a : Nat} (hlo : 0x0C000000 ≤ a) (hhi : a < 0x0D000000) : ofAddr a = inLoc (a - 0x0C000000) := by
  simp (disch := omega) only [ofAddr, ↓if_pos, ↓if_neg]
theorem ofAddr_eq_inBbx {a : Nat} (hlo : 0x0D000000 ≤ a) (hhi : a < 0x0E000000) : ofAddr a = inBbx (a - 0x0D000000) := by
  simp (disch := omega) only [ofAddr, ↓if_pos, ↓if_neg]
theorem ofAddr_eq_inPwr {a : Nat} (h : 0x0E000000 ≤ a) : ofAddr a = inPwr (a - 0x0E000000) := if_pos h

/-! ## Every register is found at its own address

Block by block: the readings before the register's own give none at its address, and its own reading gives back its indices. -/

theorem ofAddr_addr_core (n : Fin 216) (i : Fin 16) :
    ∀ x ∈ [.coreExecCtl n, .coreIntAckO n, .coreIntAckI n, .coreDbgCtl n, .coreBpAddr n i, .coreBpCtl n i], ofAddr (addr x) = some x := by
  simp only [List.forall_mem_cons, List.not_mem_nil, false_imp_iff, implies_true, and_true]
  refine ⟨?_, ?_, ?_, ?_, ?_, ?_⟩
  all_goals
    simp only [addr, Nat.add_assoc]
    rw [ofAddr_eq_inCore (by omega)]
    simp (disch := omega) only [inCore, reading_laws, digit_laws, Nat.reduceSub, Nat.reduceMod, Nat.reduceEqDiff, true_and,
      and_false, Option.bind_some]

theorem ofAddr_addr_clu (g : Fin 36) :
    ∀ x ∈ [.cluOwner g, .cluL2Ctl g, .cluL2Lock g, .cluL2Lockmiss g, .cluSmplBase g, .cluSmplCtl g, .cluSmplHead g, .cluSmplPos g], ofAddr (addr x) = some x := by
  simp only [List.forall_mem_cons, List.not_mem_nil, false_imp_iff, implies_true, and_true]
  refine ⟨?_, ?_, ?_, ?_, ?_, ?_, ?_, ?_⟩
  all_goals
    simp only [addr]
    rw [ofAddr_eq_inClu (by omega) (by omega)]
    simp (disch := omega) only [inClu, reading_laws, digit_laws, Nat.reduceSub, Nat.reduceMod, Nat.reduceEqDiff, true_and,
      and_false, Option.bind_some]

theorem ofAddr_addr_fct (f : Fin 12) :
    ∀ x ∈ [.fctTickStatus f, .fctRteSel f, .fctRteData f, .fctChdRemap f, .fctArbClassA f, .fctArbClassB f, .fctArbCfg f], ofAddr (addr x) = some x := by
  simp only [List.forall_mem_cons, List.not_mem_nil, false_imp_iff, implies_true, and_true]
  refine ⟨?_, ?_, ?_, ?_, ?_, ?_, ?_⟩
  all_goals
    simp only [addr]
    rw [ofAddr_eq_inFct (by omega) (by omega)]
    simp (disch := omega) only [inFct, reading_laws, digit_laws, Nat.reduceSub, Nat.reduceMod, Nat.reduceEqDiff, true_and,
      and_false, Option.bind_some]

theorem ofAddr_addr_chd (f : Fin 12) (s : Fin 6) (l : Fin 50) :
    ∀ x ∈ [.chdStrandCtl f s, .chdStrandStatus f s, .chdStrandErr f s, .chdEye f s l], ofAddr (addr x) = some x := by
  simp only [List.forall_mem_cons, List.not_mem_nil, false_imp_iff, implies_true, and_true]
  refine ⟨?_, ?_, ?_, ?_⟩
  all_goals
    simp only [addr, Nat.add_assoc]
    rw [ofAddr_eq_inChd (by omega) (by omega)]
    simp (disch := omega) only [inChd, reading_laws, digit_laws, Nat.reduceSub, Nat.reduceMod, Nat.reduceEqDiff, true_and,
      and_false, Option.bind_some]

theorem ofAddr_addr_net (p : Fin 12) (r : Fin 144) (o : Fin 7) (q : Fin 32) :
    ∀ x ∈ [.netRtrCtl p r, .netInflight p r, .netArbCfg p r, .netArbClassA p r, .netArbClassB p r, .netLinkErr p r o,
      .netSlotA p r o q, .netSlotB p r o q, .netRteSel p r, .netRteData p r], ofAddr (addr x) = some x := by
  simp only [List.forall_mem_cons, List.not_mem_nil, false_imp_iff, implies_true, and_true]
  refine ⟨?_, ?_, ?_, ?_, ?_, ?_, ?_, ?_, ?_, ?_⟩
  all_goals
    simp only [addr, Nat.add_assoc]
    rw [ofAddr_eq_inNet (by omega) (by omega)]
    simp (disch := omega) only [inNet, reading_laws, digit_laws, Nat.reduceSub, Nat.reduceMod, Nat.reduceDiv, Nat.reduceEqDiff,
      true_and, and_false, Option.bind_some, Option.bind_none, Option.bind_fun_none]

theorem ofAddr_addr_l3s (i : Fin 64) (q : Fin 16) :
    ∀ x ∈ [.l3sWaymaskA i q, .l3sWaymaskB i q, .l3sArbClassA i, .l3sArbClassB i, .l3sArbCfg i], ofAddr (addr x) = some x := by
  simp only [List.forall_mem_cons, List.not_mem_nil, false_imp_iff, implies_true, and_true]
  refine ⟨?_, ?_, ?_, ?_, ?_⟩
  all_goals
    simp only [addr, Nat.add_assoc]
    rw [ofAddr_eq_inL3s (by omega) (by omega)]
    simp (disch := omega) only [inL3s, reading_laws, digit_laws, Nat.reduceSub, Nat.reduceMod, Nat.reduceDiv, Nat.reduceEqDiff,
      true_and, and_false, Option.bind_some, Option.bind_none, Option.bind_fun_none]

theorem ofAddr_addr_hbm (m : Fin 8) (n : Fin 16) (c : Fin 2) (e : Fin 16) (t : Fin 65) (k : Fin 32) :
    ∀ x ∈ [.hbmSchedCfg m n, .hbmRasCfg m n, .hbmPcErr m n c, .hbmRemap m n c e, .hbmPort m n t, .hbmPhyStatus m, .hbmMig m,
      .hbmLpcA m k, .hbmLpcB m k], ofAddr (addr x) = some x := by
  simp only [List.forall_mem_cons, List.not_mem_nil, false_imp_iff, implies_true, and_true]
  refine ⟨?_, ?_, ?_, ?_, ?_, ?_, ?_, ?_, ?_⟩
  all_goals
    simp only [addr, Nat.add_assoc]
    rw [ofAddr_eq_inHbm (by omega) (by omega)]
    simp (disch := omega) only [inHbm, reading_laws, digit_laws, Nat.reduceSub, Nat.reduceMod, Nat.reduceDiv, Nat.reduceEqDiff,
      true_and, and_false, Option.bind_some, Option.bind_none, Option.bind_fun_none]

theorem ofAddr_addr_pci (r : Fin 8) (i : Fin 4) :
    ∀ x ∈ [.pciCfg r, .pciArbClassA r, .pciArbClassB r, .pciArbCfg r, .pciPortOwnerA r i, .pciPortOwnerB r i, .pciPortStatus r i], ofAddr (addr x) = some x := by
  simp only [List.forall_mem_cons, List.not_mem_nil, false_imp_iff, implies_true, and_true]
  refine ⟨?_, ?_, ?_, ?_, ?_, ?_, ?_⟩
  all_goals
    simp only [addr, Nat.add_assoc]
    rw [ofAddr_eq_inPci (by omega) (by omega)]
    simp (disch := omega) only [inPci, reading_laws, digit_laws, Nat.reduceSub, Nat.reduceMod, Nat.reduceEqDiff, true_and,
      and_false, Option.bind_some, Option.bind_none, Option.bind_fun_none]

theorem ofAddr_addr_iot (p : Fin 16) :
    ∀ x ∈ [.iotCtxRootO p, .iotCtxRootI p, .iotInvCmd p, .iotInvAddr p, .iotInvStatus p, .iotFaultInt p, .iotFaultLo p,
      .iotFaultHi p], ofAddr (addr x) = some x := by
  simp only [List.forall_mem_cons, List.not_mem_nil, false_imp_iff, implies_true, and_true]
  refine ⟨?_, ?_, ?_, ?_, ?_, ?_, ?_, ?_⟩
  all_goals
    simp only [addr]
    rw [ofAddr_eq_inIot (by omega) (by omega)]
    simp (disch := omega) only [inIot, reading_laws, digit_laws, Nat.reduceSub, Nat.reduceMod, Nat.reduceEqDiff, true_and,
      and_false, Option.bind_some]

theorem ofAddr_addr_ird (p : Fin 16) (i : Fin 2048) :
    ∀ x ∈ [.irdIpi p, .irdRoute p i], ofAddr (addr x) = some x := by
  simp only [List.forall_mem_cons, List.not_mem_nil, false_imp_iff, implies_true, and_true]
  refine ⟨?_, ?_⟩
  all_goals
    simp only [addr, Nat.add_assoc]
    rw [ofAddr_eq_inIrd (by omega) (by omega)]
    simp (disch := omega) only [inIrd, reading_laws, digit_laws, Nat.reduceSub, Nat.reduceMod, true_and, and_false,
      Option.bind_some]

theorem ofAddr_addr_drt (p : Fin 16) (i : Fin 64) :
    ∀ x ∈ [.drtRegionLo p i, .drtRegionHi p i, .drtCtl p], ofAddr (addr x) = some x := by
  simp only [List.forall_mem_cons, List.not_mem_nil, false_imp_iff, implies_true, and_true]
  refine ⟨?_, ?_, ?_⟩
  all_goals
    simp only [addr, Nat.add_assoc]
    rw [ofAddr_eq_inDrt (by omega) (by omega)]
    simp (disch := omega) only [inDrt, reading_laws, digit_laws, Nat.reduceSub, Nat.reduceMod, Nat.reduceDiv, Nat.reduceEqDiff,
      true_and, and_false, Option.bind_some, Option.bind_none, Option.bind_fun_none]

theorem ofAddr_addr_gmap (i : Fin 4096) :
    ∀ x ∈ [.gmapEntryA i, .gmapEntryB i, .gmapStatus], ofAddr (addr x) = some x := by
  simp only [List.forall_mem_cons, List.not_mem_nil, false_imp_iff, implies_true, and_true]
  refine ⟨?_, ?_, ?_⟩
  all_goals
    simp only [addr]
    rw [ofAddr_eq_inGmap (by omega) (by omega)]
    simp (disch := omega) only [inGmap, reading_laws, digit_laws, Nat.reduceSub, Nat.reduceMod, Nat.reduceDiv, Nat.reduceLeDiff,
      true_and, Option.bind_some, Option.bind_none]

theorem ofAddr_addr_ctr (p : Fin 16) :
    ∀ x ∈ [.ctrStatus p], ofAddr (addr x) = some x := by
  simp only [List.forall_mem_cons, List.not_mem_nil, false_imp_iff, implies_true, and_true]
  simp only [addr]
  rw [ofAddr_eq_inCtr (by omega) (by omega)]
  simp (disch := omega) only [inCtr, reading_laws, digit_laws, Nat.reduceSub, Nat.reduceMod, Option.bind_some]

theorem ofAddr_addr_psc (p : Fin 16) :
    ∀ x ∈ [.pscDeviceId, .pscMctpVid, .pscBootStatus, .pscSqBase p, .pscCqBase p, .pscRingCtl p, .pscSqTail p, .pscCqHead p,
      .pscRingPos p, .pscRingStatus p, .pscRingCnt p, .pscPartStatus p, .pscPartWm p, .pscDbgCtl p, .pscWakeCause p,
      .pscRasCtl p, .pscStartCtl p], ofAddr (addr x) = some x := by
  simp only [List.forall_mem_cons, List.not_mem_nil, false_imp_iff, implies_true, and_true]
  refine ⟨?_, ?_, ?_, ?_, ?_, ?_, ?_, ?_, ?_, ?_, ?_, ?_, ?_, ?_, ?_, ?_, ?_⟩
  all_goals
    simp only [addr]
    rw [ofAddr_eq_inPsc (by omega) (by omega)]
    simp (disch := omega) only [inPsc, reading_laws, digit_laws, Nat.reduceSub, Nat.reduceMod, Nat.reduceEqDiff, Nat.reduceLeDiff,
      true_and, and_false, Option.bind_some]

theorem ofAddr_addr_mtr (b : Fin 19) :
    ∀ x ∈ [.mtrId, .mtrStatus, .mtrChFailLo, .mtrChFailHi, .mtrLedgerTick, .mtrEntryFlags, .mtrTotal, .mtrLedger b], ofAddr (addr x) = some x := by
  simp only [List.forall_mem_cons, List.not_mem_nil, false_imp_iff, implies_true, and_true]
  refine ⟨?_, ?_, ?_, ?_, ?_, ?_, ?_, ?_⟩
  all_goals
    simp only [addr]
    rw [ofAddr_eq_inMtr (by omega) (by omega)]
    simp (disch := omega) only [inMtr, reading_laws, digit_laws, Nat.reduceSub, Nat.reduceMod, Nat.reduceEqDiff, Nat.reduceLeDiff,
      true_and, and_false, Option.bind_some]

theorem ofAddr_addr_loc (l : Fin 72) :
    ∀ x ∈ [.locTickNum, .locTimeOfs, .locTickStatus, .locSwapReq, .locTickOvr, .locSwapTick, .locFatalCause, .locRailStatus,
      .locLaneMap l], ofAddr (addr x) = some x := by
  simp only [List.forall_mem_cons, List.not_mem_nil, false_imp_iff, implies_true, and_true]
  refine ⟨?_, ?_, ?_, ?_, ?_, ?_, ?_, ?_, ?_⟩
  all_goals
    simp only [addr]
    rw [ofAddr_eq_inLoc (by omega) (by omega)]
    simp (disch := omega) only [inLoc, reading_laws, digit_laws, Nat.reduceSub, Nat.reduceMod, Nat.reduceEqDiff, Nat.reduceLeDiff,
      true_and, and_false, Option.bind_some]

theorem ofAddr_addr_bbx :
    ∀ x ∈ [.bbxStatus, .bbxLost], ofAddr (addr x) = some x := by
  simp only [List.forall_mem_cons, List.not_mem_nil, false_imp_iff, implies_true, and_true]
  refine ⟨?_, ?_⟩
  all_goals
    simp only [addr]
    rw [ofAddr_eq_inBbx (by omega) (by omega)]
    simp (disch := omega) only [inBbx, reading_laws, Nat.reduceSub, Nat.reduceEqDiff, Nat.reduceLeDiff, true_and]

theorem ofAddr_addr_pwr (d : Fin 296) (g : Fin 36) :
    ∀ x ∈ [.pwrCtl d, .pwrStatus d, .pwrPerf d, .pwrDroop g], ofAddr (addr x) = some x := by
  simp only [List.forall_mem_cons, List.not_mem_nil, false_imp_iff, implies_true, and_true]
  refine ⟨?_, ?_, ?_, ?_⟩
  all_goals
    simp only [addr]
    rw [ofAddr_eq_inPwr (by omega)]
    simp (disch := omega) only [inPwr, reading_laws, digit_laws, Nat.reduceSub, Nat.reduceMod, Nat.reduceEqDiff, true_and,
      and_false, Option.bind_some]

/-- A register is found at its own address. -/
theorem ofAddr_addr (r : Reg) : ofAddr r.addr = some r := by
  cases r with
  | coreExecCtl n | coreIntAckO n | coreIntAckI n | coreDbgCtl n =>
    exact ofAddr_addr_core n 0 _ (by simp)
  | coreBpAddr n i | coreBpCtl n i =>
    exact ofAddr_addr_core n i _ (by simp)
  | cluOwner g | cluL2Ctl g | cluL2Lock g | cluL2Lockmiss g | cluSmplBase g | cluSmplCtl g | cluSmplHead g | cluSmplPos g =>
    exact ofAddr_addr_clu g _ (by simp)
  | fctTickStatus f | fctRteSel f | fctRteData f | fctChdRemap f | fctArbClassA f | fctArbClassB f | fctArbCfg f =>
    exact ofAddr_addr_fct f _ (by simp)
  | chdStrandCtl f s | chdStrandStatus f s | chdStrandErr f s =>
    exact ofAddr_addr_chd f s 0 _ (by simp)
  | chdEye f s l =>
    exact ofAddr_addr_chd f s l _ (by simp)
  | netRtrCtl p r | netInflight p r | netArbCfg p r | netArbClassA p r | netArbClassB p r | netRteSel p r | netRteData p r =>
    exact ofAddr_addr_net p r 0 0 _ (by simp)
  | netLinkErr p r o =>
    exact ofAddr_addr_net p r o 0 _ (by simp)
  | netSlotA p r o q | netSlotB p r o q =>
    exact ofAddr_addr_net p r o q _ (by simp)
  | l3sWaymaskA i q | l3sWaymaskB i q =>
    exact ofAddr_addr_l3s i q _ (by simp)
  | l3sArbClassA i | l3sArbClassB i | l3sArbCfg i =>
    exact ofAddr_addr_l3s i 0 _ (by simp)
  | hbmSchedCfg m n | hbmRasCfg m n =>
    exact ofAddr_addr_hbm m n 0 0 0 0 _ (by simp)
  | hbmPcErr m n c =>
    exact ofAddr_addr_hbm m n c 0 0 0 _ (by simp)
  | hbmRemap m n c e =>
    exact ofAddr_addr_hbm m n c e 0 0 _ (by simp)
  | hbmPort m n t =>
    exact ofAddr_addr_hbm m n 0 0 t 0 _ (by simp)
  | hbmPhyStatus m | hbmMig m =>
    exact ofAddr_addr_hbm m 0 0 0 0 0 _ (by simp)
  | hbmLpcA m k | hbmLpcB m k =>
    exact ofAddr_addr_hbm m 0 0 0 0 k _ (by simp)
  | pciCfg r | pciArbClassA r | pciArbClassB r | pciArbCfg r =>
    exact ofAddr_addr_pci r 0 _ (by simp)
  | pciPortOwnerA r i | pciPortOwnerB r i | pciPortStatus r i =>
    exact ofAddr_addr_pci r i _ (by simp)
  | iotCtxRootO p | iotCtxRootI p | iotInvCmd p | iotInvAddr p | iotInvStatus p | iotFaultInt p | iotFaultLo p | iotFaultHi p =>
    exact ofAddr_addr_iot p _ (by simp)
  | irdIpi p =>
    exact ofAddr_addr_ird p 0 _ (by simp)
  | irdRoute p i =>
    exact ofAddr_addr_ird p i _ (by simp)
  | drtRegionLo p i | drtRegionHi p i =>
    exact ofAddr_addr_drt p i _ (by simp)
  | drtCtl p =>
    exact ofAddr_addr_drt p 0 _ (by simp)
  | gmapEntryA i | gmapEntryB i =>
    exact ofAddr_addr_gmap i _ (by simp)
  | gmapStatus =>
    exact ofAddr_addr_gmap 0 _ (by simp)
  | ctrStatus p =>
    exact ofAddr_addr_ctr p _ (by simp)
  | pscDeviceId | pscMctpVid | pscBootStatus =>
    exact ofAddr_addr_psc 0 _ (by simp)
  | pscSqBase p | pscCqBase p | pscRingCtl p | pscSqTail p | pscCqHead p | pscRingPos p | pscRingStatus p | pscRingCnt p
  | pscPartStatus p | pscPartWm p | pscDbgCtl p | pscWakeCause p | pscRasCtl p | pscStartCtl p =>
    exact ofAddr_addr_psc p _ (by simp)
  | mtrId | mtrStatus | mtrChFailLo | mtrChFailHi | mtrLedgerTick | mtrEntryFlags | mtrTotal =>
    exact ofAddr_addr_mtr 0 _ (by simp)
  | mtrLedger b =>
    exact ofAddr_addr_mtr b _ (by simp)
  | locTickNum | locTimeOfs | locTickStatus | locSwapReq | locTickOvr | locSwapTick | locFatalCause | locRailStatus =>
    exact ofAddr_addr_loc 0 _ (by simp)
  | locLaneMap l =>
    exact ofAddr_addr_loc l _ (by simp)
  | bbxStatus | bbxLost =>
    exact ofAddr_addr_bbx _ (by simp)
  | pwrCtl d | pwrStatus d | pwrPerf d =>
    exact ofAddr_addr_pwr d 0 _ (by simp)
  | pwrDroop g =>
    exact ofAddr_addr_pwr 0 g _ (by simp)

/-! ## No other address gives a register -/

/-- A reading that gives only registers whose address is `a`. -/
def Names (a : Nat) (x : Option Reg) : Prop := ∀ r, x = some r → addr r = a

theorem names_none (a : Nat) : Names a none := fun _ h => by cases h
theorem names_some {a : Nat} {r : Reg} (h : addr r = a) : Names a (some r) := fun _ hr => Option.some.inj hr ▸ h
theorem names_ite {a : Nat} {c : Prop} [Decidable c] {x y : Option Reg} (hx : c → Names a x) (hy : Names a y) :
    Names a (if c then x else y) := by
  split
  · exact hx ‹_›
  · exact hy
theorem names_orElse {a : Nat} {x y : Option Reg} (hx : Names a x) (hy : Names a y) : Names a (orElse x y) := by
  cases x with
  | none => exact hy
  | some r => exact hx
theorem names_guarded {a : Nat} {c : Prop} [Decidable c] {x : Option Reg} (h : c → Names a x) : Names a (guarded c x) :=
  names_ite h (names_none a)
theorem names_fin? {a n k : Nat} {f : Fin n → Option Reg} (h : ∀ i : Fin n, i.val = k → Names a (f i)) :
    Names a ((fin? n k).bind f) := by
  unfold fin?
  split
  · exact h _ rfl
  · exact names_none a

theorem names_of_offset {a b : Nat} {x : Option Reg} (h : b ≤ a) (hx : Names (b + (a - b)) x) : Names a x := by
  rwa [Nat.add_sub_cancel' h] at hx

/-- A block gives only registers at its base and the offset it was asked for: in each of its readings the guard and the indices that were read
make up the address. -/
theorem blocks_names :
    (∀ o, Names o (inCore o)) ∧ (∀ o, Names (0x01000000 + o) (inClu o)) ∧ (∀ o, Names (0x01400000 + o) (inFct o)) ∧
    (∀ o, Names (0x01500000 + o) (inChd o)) ∧ (∀ o, Names (0x02000000 + o) (inNet o)) ∧ (∀ o, Names (0x03000000 + o) (inL3s o)) ∧
    (∀ o, Names (0x04000000 + o) (inHbm o)) ∧ (∀ o, Names (0x05000000 + o) (inPci o)) ∧ (∀ o, Names (0x06000000 + o) (inIot o)) ∧
    (∀ o, Names (0x07000000 + o) (inIrd o)) ∧ (∀ o, Names (0x08000000 + o) (inDrt o)) ∧ (∀ o, Names (0x08100000 + o) (inGmap o)) ∧
    (∀ o, Names (0x09000000 + o) (inCtr o)) ∧ (∀ o, Names (0x0A000000 + o) (inPsc o)) ∧ (∀ o, Names (0x0B000000 + o) (inMtr o)) ∧
    (∀ o, Names (0x0C000000 + o) (inLoc o)) ∧ (∀ o, Names (0x0D000000 + o) (inBbx o)) ∧ (∀ o, Names (0x0E000000 + o) (inPwr o)) := by
  refine ⟨?_, ?_, ?_, ?_, ?_, ?_, ?_, ?_, ?_, ?_, ?_, ?_, ?_, ?_, ?_, ?_, ?_, ?_⟩
  all_goals
    intro o
    simp only [inCore, inClu, inFct, inChd, inNet, inL3s, inHbm, inPci, inIot, inIrd, inDrt, inGmap, inCtr, inPsc, inMtr, inLoc, inBbx, inPwr]
    repeat' first | apply names_orElse | apply names_none | refine names_guarded fun _ => ?_ | refine names_fin? fun _ _ => ?_
    all_goals
      apply names_some
      simp only [addr]
      omega

theorem ofAddr_names (a : Nat) : Names a (ofAddr a) := by
  obtain ⟨core, clu, fct, chd, net, l3s, hbm, pci, iot, ird, drt, gmap, ctr, psc, mtr, loc, bbx, pwr⟩ := blocks_names
  exact
    names_ite (fun h => names_of_offset h (pwr _)) <|
    names_ite (fun h => names_of_offset h (bbx _)) <|
    names_ite (fun h => names_of_offset h (loc _)) <|
    names_ite (fun h => names_of_offset h (mtr _)) <|
    names_ite (fun h => names_of_offset h (psc _)) <|
    names_ite (fun h => names_of_offset h (ctr _)) <|
    names_ite (fun h => names_of_offset h (gmap _)) <|
    names_ite (fun h => names_of_offset h (drt _)) <|
    names_ite (fun h => names_of_offset h (ird _)) <|
    names_ite (fun h => names_of_offset h (iot _)) <|
    names_ite (fun h => names_of_offset h (pci _)) <|
    names_ite (fun h => names_of_offset h (hbm _)) <|
    names_ite (fun h => names_of_offset h (l3s _)) <|
    names_ite (fun h => names_of_offset h (net _)) <|
    names_ite (fun h => names_of_offset h (chd _)) <|
    names_ite (fun h => names_of_offset h (fct _)) <|
    names_ite (fun h => names_of_offset h (clu _)) <|
    core a

/-- What is found at an address has that address. -/
theorem addr_of_ofAddr {a : Nat} {r : Reg} (h : ofAddr a = some r) : r.addr = a := ofAddr_names a r h

theorem addr_injective {r r' : Reg} (h : r.addr = r'.addr) : r = r' :=
  Option.some.inj (by rw [← ofAddr_addr r, h, ofAddr_addr r'])

/-! ## Width and alignment (R2) -/

theorem width_cases (r : Reg) : r.width = 32 ∨ r.width = 64 := by
  unfold width
  split <;> decide

theorem addr_aligned (r : Reg) : r.addr % (r.width / 8) = 0 := by
  cases r <;> simp only [addr, width] <;> omega

end Sys2Proof.Reg

namespace Sys2Proof.Machine

theorem regAt_eq_some {a size : Nat} {r : Reg} :
    regAt a size = some r ↔ Reg.ofAddr a = some r ∧ r.width = 8 * size ∧ a % size = 0 := by
  unfold regAt
  split
  · rename_i x hx
    rw [hx, Option.ite_none_right_eq_some, Option.some.injEq]
    constructor
    · rintro ⟨h, rfl⟩; exact ⟨rfl, h⟩
    · rintro ⟨rfl, h⟩; exact ⟨h, rfl⟩
  · rename_i hx
    simp [hx]

theorem regAt_addr (r : Reg) : regAt r.addr (r.width / 8) = some r := by
  refine regAt_eq_some.mpr ⟨r.ofAddr_addr, ?_, r.addr_aligned⟩
  rcases r.width_cases with h | h <;> rw [h]

/-- Settles O35: a register's address is read back block by block, and each reading of a block makes up the address it was given. -/
theorem registerAddressRoundTrip : Obligations.RegisterAddressRoundTrip := by
  refine ⟨fun r => ⟨r.ofAddr_addr, regAt_addr r, r.addr_aligned⟩, fun a r h => (Reg.addr_of_ofAddr h).symm, fun a size r h => ?_⟩
  obtain ⟨hr, hw, -⟩ := regAt_eq_some.mp h
  exact ⟨by omega, (Reg.addr_of_ofAddr hr).symm⟩

end Sys2Proof.Machine
end

section
/-! Writes to the package register space (R2, R4, R15, R17, R501), and those with a rule of their own (R35, R48, R66, R214). -/

namespace Sys2Proof.Machine

/-! ## Bit fields -/

theorem testBit_fld (v : Word) (hi lo j : Nat) : (fld v hi lo).testBit j = (decide (j < hi + 1 - lo) && v.getLsbD (lo + j)) := by
  rw [fld, Nat.testBit_mod_two_pow, Nat.testBit_div_two_pow, BitVec.getLsbD, Nat.add_comm lo]

theorem fld_eq_of_bits {v w : Word} {hi lo : Nat} (h : ∀ i, lo ≤ i → i ≤ hi → v.getLsbD i = w.getLsbD i) : fld v hi lo = fld w hi lo := by
  refine Nat.eq_of_testBit_eq fun j => ?_
  rw [testBit_fld, testBit_fld]
  by_cases hj : j < hi + 1 - lo
  · rw [h (lo + j) (by omega) (by omega)]
  · simp [hj]

/-- The mask of a field has its bits alone. -/
theorem getLsbD_fmask (hi lo i : Nat) : (fmask hi lo).getLsbD i = (decide (i < 64) && decide (lo ≤ i ∧ i ≤ hi)) := by
  rw [fmask, BitVec.getLsbD_ofNat, Nat.testBit_mul_two_pow, Nat.testBit_two_pow_sub_one, ← Bool.decide_and]
  congr 2
  apply propext
  omega

/-- A write to a field puts its value there and leaves every other bit. -/
theorem getLsbD_setFld (v : Word) (hi lo x i : Nat) :
    (setFld v hi lo x).getLsbD i = if i < 64 ∧ lo ≤ i ∧ i ≤ hi then x.testBit (i - lo) else v.getLsbD i := by
  rw [setFld, BitVec.getLsbD_or, BitVec.getLsbD_and, BitVec.getLsbD_not, getLsbD_fmask, BitVec.getLsbD_ofNat,
    Nat.testBit_mul_two_pow, Nat.testBit_mod_two_pow]
  by_cases h : i < 64 ∧ lo ≤ i ∧ i ≤ hi
  · obtain ⟨hi64, hlo, hhi⟩ := h
    have hin : i - lo < hi + 1 - lo := by omega
    simp [hi64, hlo, hhi, hin]
  · rw [if_neg h]
    by_cases hi64 : i < 64
    · have hout : ¬ (lo ≤ i ∧ i ≤ hi) := fun hf => h ⟨hi64, hf⟩
      have hlow : lo ≤ i → ¬ i - lo < hi + 1 - lo := by omega
      simp +contextual [hi64, hout, hlow]
    · simp [hi64, BitVec.getLsbD_of_ge v i (by omega)]

theorem fld_setFld_same (v : Word) (hi lo x : Nat) (hhi : hi < 64) (hx : x < 2 ^ (hi + 1 - lo)) : fld (setFld v hi lo x) hi lo = x := by
  refine Nat.eq_of_testBit_eq fun j => ?_
  rw [testBit_fld, getLsbD_setFld]
  by_cases hj : j < hi + 1 - lo
  · rw [if_pos (by omega)]; simp [hj]
  · simp [hj, Nat.testBit_lt_two_pow (Nat.lt_of_lt_of_le hx (Nat.pow_le_pow_right (by decide) (Nat.not_lt.mp hj)))]

theorem fld_setFld_disjoint (v : Word) (hi lo x hi' lo' : Nat) (h : hi < lo' ∨ hi' < lo) : fld (setFld v hi lo x) hi' lo' = fld v hi' lo' :=
  fld_eq_of_bits fun i h1 h2 => by rw [getLsbD_setFld, if_neg (by omega)]

theorem fld_lt (v : Word) (hi lo : Nat) : fld v hi lo < 2 ^ (hi + 1 - lo) := Nat.mod_lt _ (Nat.two_pow_pos _)

theorem fld_setFld_fld (v w : Word) (hi lo : Nat) (hhi : hi < 64) : fld (setFld v hi lo (fld w hi lo)) hi lo = fld w hi lo :=
  fld_setFld_same _ _ _ _ hhi (fld_lt ..)

theorem bit_setFld_other (v : Word) (hi lo x i : Nat) (h : i < lo ∨ hi < i) : bit (setFld v hi lo x) i = bit v i := by
  rw [bit, getLsbD_setFld, if_neg (by omega)]; rfl

theorem bit_setFld_one (v : Word) (i : Nat) (hi : i < 64) : bit (setFld v i i 1) i = true := by
  rw [bit, getLsbD_setFld, if_pos (by omega), Nat.sub_self]; rfl

/-! ## What a register reads after a write to a register -/

@[simp] theorem rg_rgSet_of_ne (s : State) {r q : Reg} (v : Word) (h : q ≠ r) : (s.rgSet r v).rg q = s.rg q :=
  rg_rgSet_other _ _ _ _ fun ha => h (Reg.addr_injective ha)
@[simp] theorem rg_rfSet_of_ne (s : State) {r q : Reg} (hi lo x : Nat) (h : q ≠ r) : (s.rfSet r hi lo x).rg q = s.rg q :=
  rg_rgSet_of_ne s _ h
theorem rg_rgSet (s : State) (r q : Reg) (v : Word) : (s.rgSet r v).rg q = if q = r then v else s.rg q := by
  split
  · subst q; exact rg_rgSet_same s r v
  · exact rg_rgSet_of_ne s v ‹_›

theorem rf_rfSet_same (s : State) (r : Reg) (hi lo x : Nat) (hhi : hi < 64) (hx : x < 2 ^ (hi + 1 - lo)) :
    (s.rfSet r hi lo x).rf r hi lo = x := by
  rw [State.rf, rg_rfSet_same, fld_setFld_same _ _ _ _ hhi hx]
theorem rb_rfSet_other (s : State) (r : Reg) (hi lo x i : Nat) (h : i < lo ∨ hi < i) : (s.rfSet r hi lo x).rb r i = s.rb r i := by
  rw [State.rb, rg_rfSet_same, bit_setFld_other _ _ _ _ _ h]; rfl
theorem rb_rfSet_one (s : State) (r : Reg) (i : Nat) (hi : i < 64) : (s.rfSet r i i 1).rb r i = true := by
  rw [State.rb, rg_rfSet_same, bit_setFld_one _ _ hi]

theorem rb_congr {s t : State} {r : Reg} (h : t.rg r = s.rg r) (i : Nat) : t.rb r i = s.rb r i := by rw [State.rb, h]; rfl
theorem rf_congr {s t : State} {r : Reg} (h : t.rg r = s.rg r) (hi lo : Nat) : t.rf r hi lo = s.rf r hi lo := by rw [State.rf, h]; rfl

/-- A black-box record leaves every register but those of the black box. -/
theorem rg_bbPut (s : State) (c : BbCell) {r : Reg} (h : r.addr ≠ Reg.addr .bbxStatus) : (s.bbPut c).rg r = s.rg r := by
  unfold State.bbPut
  dsimp only
  repeat' split
  all_goals simp only [State.rg, State.rfSet, State.rgSet, Tbl.get_set_other _ _ _ _ _ _ h]
theorem rg_bb (s : State) (code : Nat) (pid : Option Pid) (inst arg : Nat) {r : Reg} (hs : r ≠ .bbxStatus) (hl : r ≠ .bbxLost) :
    (s.bb code pid inst arg).rg r = s.rg r := by
  have hs : r.addr ≠ Reg.addr .bbxStatus := fun ha => hs (Reg.addr_injective ha)
  have lost (t : State) : (t.rfInc .bbxLost 31 0 1).rg r = t.rg r := rg_rfSet_of_ne t _ _ _ hl
  unfold State.bb State.bbArrive
  split
  · exact lost s
  · split
    · exact lost s
    · dsimp only
      split
      · exact (rg_bbPut _ _ hs).trans rfl
      · exact rg_bbPut _ _ hs

/-- What a bit of a register holds after a software write (R4). -/
theorem getLsbD_regWritten (r : Reg) (lock : Bool) (old v : Word) (i : Nat) :
    (regWritten r lock old v).getLsbD i =
      if v.getLsbD i = true ∧ r.maskW1c.getLsbD i = true then false
      else if r.maskRw.getLsbD i = true ∨ (lock = false ∧ r.maskRwl.getLsbD i = true) then v.getLsbD i
      else if v.getLsbD i = true ∧ r.maskW1s.getLsbD i = true then true else old.getLsbD i := by
  by_cases hi : i < 64
  · have masks : (if lock then r.maskRw else r.maskRw ||| r.maskRwl).getLsbD i = (r.maskRw.getLsbD i || !lock && r.maskRwl.getLsbD i) := by
      cases lock <;> simp
    simp only [regWritten, BitVec.getLsbD_and, BitVec.getLsbD_or, BitVec.getLsbD_not, masks, hi, decide_true, Bool.true_and]
    generalize v.getLsbD i = a, old.getLsbD i = b, r.maskRw.getLsbD i = c, r.maskRwl.getLsbD i = d, r.maskW1c.getLsbD i = e,
      r.maskW1s.getLsbD i = f
    clear masks
    revert a b c d e f lock
    decide
  · have high (w : Word) : w.getLsbD i = false := BitVec.getLsbD_of_ge w i (by omega)
    simp [high]

/-! ## Who reaches a register (R2, R15, R17, R501) -/

theorem prsWrite_addr (s : State) (r : Reg) (v : Word) : s.prsWrite r.addr (r.width / 8) v.toNat = s.regPut .inner r v := by
  simp [State.prsWrite, regAt_addr]
theorem prsRead_addr (s : State) (r : Reg) : s.prsRead r.addr (r.width / 8) = s.regValue .inner r := by
  simp [State.prsRead, regAt_addr]

theorem winWrite_own (s : State) (p : Pid) (w : World) (r : Reg) (v : Word) (h : s.reach p r.addr = .own) :
    s.winWrite p w r.addr (r.width / 8) v.toNat = s.regPut w r v := by
  simp [State.winWrite, h, regAt_addr]

/-- A write outside what the partition owns is counted: it is foreign, or it names a register that is read only to it. -/
theorem winWrite_refused (s : State) (p : Pid) (w : World) (a size v : Nat)
    (h : s.reach p a = .foreign ∨ (s.reach p a = .readOnly ∧ regAt a size ≠ none)) :
    s.winWrite p w a size v = s.foreign p (winPage a) := by
  rcases h with h | ⟨h, hr⟩
  · simp [State.winWrite, h]
  · simp [State.winWrite, h, Option.isSome_iff_ne_none.mpr hr]

/-- A write that names no register is recorded as malformed wherever the partition reaches. -/
theorem winWrite_malformed (s : State) (p : Pid) (w : World) (a size v : Nat) (h : s.reach p a ≠ .foreign) (hr : regAt a size = none) :
    s.winWrite p w a size v = s.malformed (some p) (winPage a) := by
  cases hreach : s.reach p a with
  | foreign => exact absurd hreach h
  | readOnly => simp [State.winWrite, hreach, hr]
  | own => simp [State.winWrite, hreach, hr]

theorem registerWrite_psc (s : State) (r : Reg) (v : Word) :
    exec (.registerWrite .psc r.addr (r.width / 8) v) s = .next (s.regPut .inner r v) :=
  congrArg Host.Outcome.next (prsWrite_addr s r v)

theorem registerWrite_tap (s : State) (a size : Nat) (v : Word) :
    exec (.registerWrite .tap a size v) s = .next (if s.prsOpen then s.prsWrite a size v.toNat else s) := rfl

theorem prsAccess_write (s : State) (a size : Nat) (v : Word) :
    exec (.prsAccess a size true v) s = .next (if s.prsOpen then s.prsWrite a size v.toNat else s) := by
  show Host.Outcome.next _ = _
  cases s.prsOpen <;> rfl

theorem prsAccess_read (s : State) (a size : Nat) (v : Word) :
    exec (.prsAccess a size false v) s =
      .next (if s.prsOpen then { (s.prsRead a size).2 with reply := natBytes (s.prsRead a size).1 size } else s) := by
  show Host.Outcome.next _ = _
  cases s.prsOpen <;> rfl

theorem registerWrite_core (s : State) (k : CoreId) (a size : Nat) (v : Word) :
    exec (.registerWrite (.core k) a size v) s = .next (s.winWrite (s.pidOf k) (coreWorld (s.core k)) a size v.toNat) := rfl

theorem registerAccessResults : RegisterAccessResults := by
  intro s k r v addr size i old lock
  refine ⟨registerWrite_psc s r v, fun hopen => ⟨?_, ?_, ?_⟩, fun hshut => ⟨?_, ?_, ?_⟩, fun hown => ?_, fun href => ?_,
    fun hreach hnone => ?_, ?_, ?_, getLsbD_regWritten r lock old v i⟩
  · exact (registerWrite_tap ..).trans (by rw [if_pos hopen, prsWrite_addr])
  · exact (prsAccess_write ..).trans (by rw [if_pos hopen, prsWrite_addr])
  · exact ⟨_, (prsAccess_read ..).trans (by rw [if_pos hopen, prsRead_addr]), rfl⟩
  · exact (registerWrite_tap ..).trans (by simp [hshut])
  · exact (prsAccess_write ..).trans (by simp [hshut])
  · exact (prsAccess_read ..).trans (by simp [hshut])
  · exact (registerWrite_core ..).trans (by rw [winWrite_own _ _ _ _ _ hown])
  · refine ⟨s.foreign (s.pidOf k) (winPage addr), ?_, rfl, quiet_bbCoal .., rfl⟩
    rw [registerWrite_core, winWrite_refused _ _ _ _ _ _ href]
  · refine ⟨s.malformed (some (s.pidOf k)) (winPage addr), ?_, quiet_bb .., rfl⟩
    rw [registerWrite_core, winWrite_malformed _ _ _ _ _ _ hreach hnone]
  · rintro m c j rfl r'
    exact rg_rgSet ..
  · rintro g rfl
    exact rg_rgSet_same ..

/-! ## The granule map (R35, R48) -/

theorem quiet_gmapWrite (s : State) (bank : Bool) (idx : Fin 4096) (v : Word) : Quiet s (s.gmapWrite bank idx v) :=
  Quiet.ite (((quiet_rfSet ..).trans (quiet_bb ..)).rfSet _ _ _ _ |>.rfSet _ _ _ _)
    (Quiet.ite ((quiet_rfSet ..).rfSet _ _ _ _ |>.trans (quiet_bb ..)) (quiet_rgSet ..))

/-- An entry's register is none of those that a granule-map write also changes. -/
theorem gmapReg_ne (bank : Bool) (idx : Fin 4096) : gmapReg bank idx ≠ .gmapStatus ∧ gmapReg bank idx ≠ .locSwapReq ∧
    gmapReg bank idx ≠ .bbxStatus ∧ gmapReg bank idx ≠ .bbxLost := by
  cases bank <;> exact ⟨nofun, nofun, nofun, nofun⟩

/-- A write to the bank that is active or locked is dropped, and shows so. -/
theorem gmapWrite_locked (s : State) (bank : Bool) (idx : Fin 4096) (v : Word) (h : s.bankLocked 2 bank = true) :
    let t := s.gmapWrite bank idx v
    t.rg (gmapReg bank idx) = s.rg (gmapReg bank idx) ∧ t.rb .gmapStatus 1 = true ∧ t.rf .gmapStatus 27 16 = idx.val ∧
      t.rb .locSwapReq 4 = true := by
  obtain ⟨hst, hsw, hbs, hbl⟩ := gmapReg_ne bank idx
  simp only [State.gmapWrite, h, if_true, State.bankDrop]
  refine ⟨?_, ?_, rf_rfSet_same _ _ _ _ _ (by decide) idx.isLt, ?_⟩
  · rw [rg_rfSet_of_ne _ _ _ _ hst, rg_rfSet_of_ne _ _ _ _ hst, rg_bb _ _ _ _ _ hbs hbl, rg_rfSet_of_ne _ _ _ _ hsw]
  · rw [rb_rfSet_other _ _ _ _ _ _ (by decide), rb_rfSet_one _ _ _ (by decide)]
  · rw [rb_congr (rg_rfSet_of_ne _ _ _ _ (by nofun)), rb_congr (rg_rfSet_of_ne _ _ _ _ (by nofun)),
      rb_congr (rg_bb _ _ _ _ _ (by nofun) (by nofun)), rb_rfSet_one _ _ _ (by decide)]

/-- A valid entry that R48 forbids is dropped, and shows so. -/
theorem gmapWrite_bad (s : State) (bank : Bool) (idx : Fin 4096) (v : Word) (h : s.bankLocked 2 bank = false)
    (hb : s.gmapBad bank idx.val v = true) :
    let t := s.gmapWrite bank idx v
    t.rg (gmapReg bank idx) = s.rg (gmapReg bank idx) ∧ t.rb .gmapStatus 0 = true ∧ t.rf .gmapStatus 27 16 = idx.val := by
  obtain ⟨hst, -, hbs, hbl⟩ := gmapReg_ne bank idx
  have status (t : State) (code arg : Nat) : (t.bb code none 0 arg).rg .gmapStatus = t.rg .gmapStatus := rg_bb _ _ _ _ _ nofun nofun
  simp only [State.gmapWrite, h, hb, if_true, Bool.false_eq_true, if_false]
  refine ⟨?_, ?_, ?_⟩
  · rw [rg_bb _ _ _ _ _ hbs hbl, rg_rfSet_of_ne _ _ _ _ hst, rg_rfSet_of_ne _ _ _ _ hst]
  · rw [rb_congr (status ..), rb_rfSet_other _ _ _ _ _ _ (by decide), rb_rfSet_one _ _ _ (by decide)]
  · rw [rf_congr (status ..), rf_rfSet_same _ _ _ _ _ (by decide) idx.isLt]

/-- Every other write puts the entry. -/
theorem gmapWrite_good (s : State) (bank : Bool) (idx : Fin 4096) (v : Word) (h : s.bankLocked 2 bank = false)
    (hb : s.gmapBad bank idx.val v = false) : s.gmapWrite bank idx v = s.rgWrite (gmapReg bank idx) false v := by
  simp [State.gmapWrite, h, hb]

/-! ## The debug enables (R66) -/

theorem quiet_dbgWrite (s : State) (p : Pid) (w : World) (v : Word) : Quiet s (s.dbgWrite p w v) := by
  cases w with
  | outer => exact Quiet.ite ((quiet_rfSet ..).trans (quiet_bb ..)) (quiet_rfSet ..)
  | inner =>
    have hboth : Quiet s (if bit (s.rg (.pscDbgCtl p)) 6 then s.rfSet (.pscDbgCtl p) 3 2 (fld v 3 2)
        else (s.rfSet (.pscDbgCtl p) 3 2 (fld v 3 2)).rfSet (.pscDbgCtl p) 5 4 (fld v 5 4)) :=
      Quiet.ite (quiet_rfSet ..) ((quiet_rfSet ..).rfSet _ _ _ _)
    exact Quiet.ite (hboth.rfSet _ _ _ _) hboth

/-- An outer-world write changes the outer enables alone; one that would change the others is recorded. -/
theorem rg_dbgWrite_outer (s : State) (p : Pid) (v : Word) :
    (s.dbgWrite p .outer v).rg (.pscDbgCtl p) = setFld (s.rg (.pscDbgCtl p)) 3 2 (fld v 3 2) := by
  simp only [State.dbgWrite]
  split
  · rw [rg_bb _ _ _ _ _ (by nofun) (by nofun), rg_rfSet_same]
  · rw [rg_rfSet_same]

/-- An inner-world write changes all enables unless the inner ones are locked, and may set the lock. -/
theorem rg_dbgWrite_inner (s : State) (p : Pid) (v : Word) :
    (s.dbgWrite p .inner v).rg (.pscDbgCtl p) =
      let old := s.rg (.pscDbgCtl p)
      let outer := setFld old 3 2 (fld v 3 2)
      let both := if bit old 6 then outer else setFld outer 5 4 (fld v 5 4)
      if bit v 6 then setFld both 6 6 1 else both := by
  simp only [State.dbgWrite]
  split <;> split <;> simp only [rg_rfSet_same]

theorem dbgWrite_fields (s : State) (p : Pid) (w : World) (v : Word) :
    let dbg : Reg := .pscDbgCtl p
    let t := s.dbgWrite p w v
    t.rf dbg 3 2 = fld v 3 2 ∧ t.rf dbg 1 0 = s.rf dbg 1 0 ∧ (w = .outer → t.rf dbg 6 4 = s.rf dbg 6 4) ∧
      (w = .inner → t.rf dbg 5 4 = (if s.rb dbg 6 then s.rf dbg 5 4 else fld v 5 4) ∧ t.rb dbg 6 = (s.rb dbg 6 || bit v 6)) := by
  cases w with
  | outer =>
    simp only [State.rf, rg_dbgWrite_outer]
    exact ⟨fld_setFld_fld _ _ _ _ (by decide), fld_setFld_disjoint _ _ _ _ _ _ (by decide),
      fun _ => fld_setFld_disjoint _ _ _ _ _ _ (by decide), nofun⟩
  | inner =>
    simp only [State.rf, State.rb, rg_dbgWrite_inner]
    by_cases hold : bit (s.rg (.pscDbgCtl p)) 6 = true <;> by_cases hnew : bit v 6 = true
    all_goals
      simp (disch := decide) [hold, hnew, fld_setFld_fld, fld_setFld_disjoint, bit_setFld_other, bit_setFld_one]

/-! ## The device regions (R4, R214) -/

theorem quiet_drtWrite (s : State) (p : Pid) (w : World) (i : Fin 64) (hi : Bool) (v : Word) : Quiet s (s.drtWrite p w i hi v) :=
  Quiet.ite ((quiet_rfSet ..).trans (quiet_bb ..)) ((quiet_rgSet ..).rgSet _ _)

/-- The two registers of a region after a write that is not barred. -/
def drtNew (s : State) (p : Pid) (i : Fin 64) (hi : Bool) (v : Word) : Word × Word :=
  let lock := s.rb (.drtCtl p) 0
  (if hi then s.rg (.drtRegionLo p i) else regWritten (.drtRegionLo p i) lock (s.rg (.drtRegionLo p i)) v,
   if hi then regWritten (.drtRegionHi p i) lock (s.rg (.drtRegionHi p i)) v else s.rg (.drtRegionHi p i))

/-- A write that would touch an inner region from the outer world, or leave a valid region outside the MMIO window. -/
def drtBarred (s : State) (p : Pid) (w : World) (i : Fin 64) (hi : Bool) (v : Word) : Prop :=
  (w = .outer ∧ (s.rb (.drtRegionLo p i) 1 = true ∨ bit (drtNew s p i hi v).1 1 = true)) ∨
    drtFits (drtNew s p i hi v).1 (drtNew s p i hi v).2 = false

theorem drtWrite_barred (s : State) (p : Pid) (w : World) (i : Fin 64) (hi : Bool) (v : Word) (h : drtBarred s p w i hi v) :
    s.drtWrite p w i hi v = (s.rfSet (.drtCtl p) 4 4 1).bb 0x8032 (some p) (0x40 + p.val) i.val :=
  if_pos (by simpa [drtBarred, drtNew, State.rb] using h)

theorem drtWrite_good (s : State) (p : Pid) (w : World) (i : Fin 64) (hi : Bool) (v : Word) (h : ¬ drtBarred s p w i hi v) :
    s.drtWrite p w i hi v = (s.rgSet (.drtRegionLo p i) (drtNew s p i hi v).1).rgSet (.drtRegionHi p i) (drtNew s p i hi v).2 :=
  if_neg (by simpa [drtBarred, drtNew, State.rb] using h)

/-- A barred write leaves the region and sets the error bit. -/
theorem drtWrite_barred_regs (s : State) (p : Pid) (w : World) (i : Fin 64) (hi : Bool) (v : Word) (h : drtBarred s p w i hi v) :
    let t := s.drtWrite p w i hi v
    t.rg (.drtRegionLo p i) = s.rg (.drtRegionLo p i) ∧ t.rg (.drtRegionHi p i) = s.rg (.drtRegionHi p i) ∧ t.rb (.drtCtl p) 4 = true := by
  simp only [drtWrite_barred s p w i hi v h]
  refine ⟨?_, ?_, ?_⟩
  · rw [rg_bb _ _ _ _ _ (by nofun) (by nofun), rg_rfSet_of_ne _ _ _ _ (by nofun)]
  · rw [rg_bb _ _ _ _ _ (by nofun) (by nofun), rg_rfSet_of_ne _ _ _ _ (by nofun)]
  · rw [rb_congr (rg_bb _ _ _ _ _ (by nofun) (by nofun)), rb_rfSet_one _ _ _ (by decide)]

/-- Every other write puts the region. -/
theorem drtWrite_good_regs (s : State) (p : Pid) (w : World) (i : Fin 64) (hi : Bool) (v : Word) (h : ¬ drtBarred s p w i hi v) :
    let t := s.drtWrite p w i hi v
    t.rg (.drtRegionLo p i) = (drtNew s p i hi v).1 ∧ t.rg (.drtRegionHi p i) = (drtNew s p i hi v).2 ∧ t.rg (.drtCtl p) = s.rg (.drtCtl p) := by
  simp only [drtWrite_good s p w i hi v h]
  exact ⟨by rw [rg_rgSet_of_ne _ _ (by nofun), rg_rgSet_same], rg_rgSet_same .., by
    rw [rg_rgSet_of_ne _ _ (by nofun), rg_rgSet_of_ne _ _ (by nofun)]⟩

theorem guardedWriteResults : GuardedWriteResults := by
  intro s p w i hi bank idx v
  refine ⟨⟨s.gmapWrite bank idx v, rfl, quiet_gmapWrite .., gmapWrite_locked s bank idx v, gmapWrite_bad s bank idx v, fun h hb => ?_⟩,
    ⟨s.dbgWrite p w v, rfl, quiet_dbgWrite .., dbgWrite_fields s p w v⟩,
    ⟨s.drtWrite p w i hi v, rfl, quiet_drtWrite .., drtWrite_barred_regs s p w i hi v, drtWrite_good_regs s p w i hi v⟩,
    ⟨s.rfSet (.drtCtl p) 0 0 1, rfl, quiet_rfSet .., rb_rfSet_one _ _ _ (by decide), fun r hr => rg_rfSet_of_ne _ _ _ _ hr⟩⟩
  rw [gmapWrite_good s bank idx v h hb]
  exact rg_rgSet_same ..

/-- Settles O36: each agent's access comes to one of four writes, and a register is found at no address but its own; the guarded writes case
by case of their guards. -/
theorem registerWriteResults : Obligations.RegisterWriteResults := ⟨registerAccessResults, guardedWriteResults⟩

end Sys2Proof.Machine
end

section
/-! The block right after reset (R5). -/

namespace Sys2Proof.Machine

/-! ## A step with nothing to do -/

/-- Nothing goes on where no request waits at a slice or a port, no ring holds a completion and no command's output waits. -/
theorem resume_of_nothing_waits (s : State) (hq : s.net.sliceQ = []) (hp : s.ports = []) (hh : s.psc.held = [])
    (hf : s.psc.finishing = []) : s.resume = s := by
  have home : s.homesWake = s := by simp [State.homesWake, hq]
  have ports : s.rcsGo = s := by simp [State.rcsGo, hp]
  have psc : s.finishRun = s := by simp [State.finishRun, hh, hf]
  rw [State.resume, home, ports, psc]

/-- Before cycle 1,599 a Net cycle changes the cycle count alone (R21, R443). -/
theorem idle_of_lt (s : State) (h : s.cycle < 1599) : s.idle = { s with cycle := s.cycle + 1 } := by
  have hlast : s.cycle < 1999 := by omega
  have hpublish : ¬ (s.cycle < 1616 ∧ 1616 ≤ s.cycle + 1) := by omega
  have hmirror : ¬ (s.cycle < 1600 ∧ 1600 ≤ s.cycle + 1 ∧ s.meter.stale) := by omega
  rw [State.idle, if_pos hlast, State.passTo, if_neg (by omega), if_neg hpublish, if_neg hmirror]

/-! ## The state after reset -/

theorem rg_reset (r : Reg) : State.reset.rg r = r.reset := rfl
theorem core_reset (k : CoreId) : State.reset.core k = Core.reset := rfl
theorem rdByte_reset (da : Nat) : State.reset.rdByte da = 0 := rfl
theorem copy_reset (ln : Nat) (g : ClusterId) : State.reset.copy ln g = none := rfl

theorem partState_reset (p : Pid) : State.reset.partState p = 0 := show fld 0 2 0 = 0 by decide

/-- What stands from bit 5 on does not show in the low four bits. -/
theorem fld_or_shiftLeft_five (v x : Word) : fld (v ||| x <<< (5 : Nat)) 3 0 = fld v 3 0 := by
  have hlow : (x <<< (5 : Nat)).toNat % 2 ^ 4 = 0 := by
    rw [BitVec.toNat_shiftLeft, Nat.shiftLeft_eq]; omega
  simp only [fld, BitVec.toNat_or, Nat.pow_zero, Nat.div_one, Nat.or_mod_two_pow, hlow, Nat.or_zero]

/-- The boot begins at step 1, whatever life-cycle state the fuses put above it in PSC_BOOT_STATUS (R497, R501). -/
theorem bootStep_reset : State.reset.bootStep = 1 := (fld_or_shiftLeft_five 0x1 _).trans (by decide)

theorem step_reset : step State.reset = .next { State.reset with cycle := 1 } := by
  have helapse : State.reset.elapse = { State.reset with cycle := 1 } := by
    rw [State.elapse, resume_of_nothing_waits _ rfl rfl rfl rfl, idle_of_lt _ (by decide)]
    rfl
  rw [← helapse]
  rfl

/-- Settles O59: the tables of the state are empty at reset, so that every reader finds its default. -/
theorem resetState : Obligations.ResetState :=
  ⟨memOk_nil rfl, rg_reset, core_reset, rdByte_reset, copy_reset, partState_reset, bootStep_reset, rfl, rfl, rfl, rfl, fun _ => rfl,
    step_reset⟩

end Sys2Proof.Machine
end
